-- ==== Sys2Proof/Word.lean ====
section
/-! DEFINITION. The word types of the Falob block and the index types of its units
(00_scope.md R4, R7; 02_anatomy.md R52, R64, R74). -/

namespace Sys2Proof

/-- One byte (R7). -/
abbrev Byte := BitVec 8
/-- A 32-bit register (R10). -/
abbrev Word32 := BitVec 32
/-- A mailbox entry or a 64-byte line (R135, R452, R454), byte 0 in the least significant bits (R7). -/
abbrev Line := BitVec 512

/-- A logical core, quire × 32 + position (R52). -/
abbrev CoreId := Fin 4096
/-- A logical quire, die × 16 + position (R66). -/
abbrev QuireId := Fin 128
/-- A compute die (R4). -/
abbrev DieId := Fin 8
/-- An HBM3 stack (R74). -/
abbrev StackId := Fin 24
/-- A pseudo-channel of a stack (R363). -/
abbrev PcId := Fin 32
/-- A chain link (R390). -/
abbrev ChainId := Fin 32
/-- A chain link, 0 to 31, or the Couch link, 32 (R401, R441). -/
abbrev LinkId := Fin 33
/-- A mailbox (R449). -/
abbrev BoxId := Fin 256
/-- A partition number (R473). -/
abbrev PartId := Fin 128
/-- A context number; 0 is the Armature (R448). -/
abbrev CtxId := Fin 4096
/-- A rollout group identifier (R17). -/
abbrev GroupId := Fin 4096
/-- A branch identifier (R20). -/
abbrev BranchId := Fin 262144
/-- A Vat page number (R287). -/
abbrev PageId := Fin 524288
/-- A walker of a core (R186). -/
abbrev WalkerId := Fin 4

end Sys2Proof
end

