-- ==== Sys2Proof/Syntax.lean ====
section
/-! DEFINITION. The commands of the block: one constructor of `Instr` per row of the operation table, and
the plain data they carry. The table gives its rows no operand fields; the operands are the model's
(DESIGN CHOICE, log 4): unit numbers, packet fields, and the readings and outcomes that reach the block from outside. -/

namespace Sys2Proof

/-- What set off a thermal trip (R558). -/
inductive TripCause where
  | junction110 | junction115 | dram97
  deriving DecidableEq, Repr, Inhabited

/-- The TAP instructions that hold the module in reset (R564). -/
inductive TapInsn where
  | extest | extestPulse | extestTrain
  deriving DecidableEq, Repr, Inhabited

/-- A bank of a scratchpad or of a quire store (R158). -/
inductive BankRef where
  | spd (core : CoreId) (bank : Fin 24)
  | qsr (quire : QuireId) (bank : Fin 32)
  deriving DecidableEq, Repr

/-- A unit that a proof run exercised (R540, R541). -/
inductive ProofUnit where
  | core (c : CoreId)
  | quire (q : QuireId)
  deriving DecidableEq, Repr

/-- A die bridge (R61, R63): west, east or plinth. -/
inductive BridgeSide where
  | west | east | plinth
  deriving DecidableEq, Repr, Inhabited

/-- A row of a stack: pseudo-channel, bank and row of the bank (R363). -/
structure RowRef where
  pc : PcId
  bank : Fin 64
  row : Fin 65536
  deriving DecidableEq, Repr

/-- What the check code finds in one unit read (R364, R365, R370): nothing, a corrected word, or an
uncorrectable one with what the re-read and the row test then find. -/
inductive ReadCheck where
  | clean
  | corrected
  | uncorrectable (rereadClean : Bool) (rowFails : Bool)
  deriving DecidableEq, Repr, Inhabited

/-- A chain packet (R394), its header fields and its data. -/
structure ChnPkt where
  typ : BitVec 4
  src : BitVec 14
  dst : BitVec 14
  tag : BitVec 16
  addr : BitVec 48
  len : BitVec 13
  reason : BitVec 8
  expert : BitVec 16
  poison : BitVec 64
  data : List Byte
  deriving DecidableEq, Repr, Inhabited

/-- A Couch packet (R428), its header fields and its data. -/
structure CchPkt where
  typ : BitVec 4
  space : Bool
  tag : BitVec 16
  addr : BitVec 48
  len : BitVec 13
  status : BitVec 3
  keepS : Bool
  mask : BitVec 64
  poison : BitVec 64
  data : List Byte
  deriving DecidableEq, Repr, Inhabited

/-- A CTRL flit of a chain link (R396) or of the Couch link (R427). -/
structure CtrlFlit where
  srcDev : BitVec 14
  role : BitVec 2
  link : BitVec 5
  epoch : BitVec 16
  heartbeat : BitVec 16
  creditReq : BitVec 11
  creditRsp : BitVec 11
  creditExp : BitVec 11
  groups : BitVec 8
  enc : Bool
  compFrames : BitVec 26
  deriving DecidableEq, Repr, Inhabited

/-- A frame as it arrives (R392): its sequence fields, the kinds of its ten flits, how its four
codewords decoded, whether its CRC matched, and the CTRL flits in it. -/
structure Frame where
  fseq : BitVec 12
  ack : BitVec 12
  nak : Bool
  kinds : BitVec 20
  corrected : BitVec 4
  failed : BitVec 4
  crcOk : Bool
  tagOk : Bool
  ctrl : List CtrlFlit
  deriving DecidableEq, Repr, Inhabited

/-- The engines a descriptor can run on (R171). -/
inductive Engine where
  | mma | vec | att | sta | dmv
  deriving DecidableEq, Repr, Inhabited

/-- A 64-byte line of an on-chip store: of a scratchpad, a quire store or a state store (R144, R278, R584). -/
inductive LineRef where
  | spd (core : CoreId) (line : Fin 6144)
  | qsr (quire : QuireId) (line : Fin 65536)
  | sts (core : CoreId) (line : Fin 2048)
  deriving DecidableEq, Repr

/-- What the check code of an on-chip store finds while a descriptor reads (R141): nothing, a corrected error,
or an uncorrectable one, in the line named (DESIGN CHOICE, log 24). -/
inductive Upset where
  | clean
  | corrected (at_ : LineRef)
  | uncorrectable (at_ : LineRef)
  deriving DecidableEq, Repr

/-- The commands, in the order of the operation table. -/
inductive Instr where
  /-- CONVERTER_START (R548). -/
  | converterStart (mainDv : BitVec 10)
  /-- CONVERTER_STOP (R548). -/
  | converterStop (mainDv : BitVec 10) (auxDv : BitVec 10)
  /-- AUX_LOST (R549). -/
  | auxLost
  /-- MOD_RESET_N (R556). -/
  | modResetN (ns : BitVec 40)
  /-- BRING_UP_START (R525). -/
  | bringUpStart (straps : BitVec 10)
  /-- BOOT_WINDOW_LOAD (R544). -/
  | bootWindowLoad (value : Word32)
  /-- STACK_TRAINED (R530). -/
  | stackTrained (stk : StackId) (failedPcs : BitVec 32)
  /-- RETENTION_REST_END (R531). -/
  | retentionRestEnd (stk : StackId) (failed : List RowRef)
  /-- MEMORY_TEST_COMPLETE (R533). -/
  | memoryTestComplete (stk : StackId) (failed : List RowRef)
  /-- POINTING_PASS (R535). -/
  | pointingPass
  /-- PROOF_RUN_COMPLETE (R541). -/
  | proofRunComplete (unit : ProofUnit) (same : Bool) (poisoned : Bool)
  /-- THERMAL_TRIP (R558). -/
  | thermalTrip (cause : TripCause)
  /-- REFCLK_SERDES_LOST (R554). -/
  | refclkSerdesLost
  /-- REFCLK_CORE_LOST (R554). -/
  | refclkCoreLost
  /-- EXTEST (R564). -/
  | extest (insn : TapInsn)
  /-- POWER_SAMPLE (R551). -/
  | powerSample (watts : BitVec 16) (mainDv : BitVec 10)
  /-- POWER_GOVERNOR (R551). -/
  | powerGovernor
  /-- JUNCTION_READ (R560). -/
  | junctionRead (q : QuireId) (degC : BitVec 8)
  /-- JUNCTION_LIMIT (R560). -/
  | junctionLimit
  /-- COOLANT_READ (R570). -/
  | coolantRead (inlet : BitVec 8) (outlet : BitVec 8)
  /-- SET_NUMERIC_EFFECTER_VALUE (R563). -/
  | setNumericEffecterValue (effecter : BitVec 8) (value : BitVec 16)
  /-- GET_SENSOR_READING (R563). -/
  | getSensorReading (sensor : BitVec 8)
  /-- ENTROPY_HEALTH_FAIL (R519). -/
  | entropyHealthFail
  /-- ENTROPY_FAIL (R519). -/
  | entropyFail
  /-- ENTROPY_RECOVERED (R519). -/
  | entropyRecovered
  /-- LINK_KEY_TIMEOUT (R522). -/
  | linkKeyTimeout (n : ChainId)
  /-- DBL_CMD (R438). -/
  | dblCmd (m : BoxId) (value : Word32)
  /-- DBL_RSP_READ (R438). -/
  | dblRspRead (m : BoxId) (value : Word32)
  /-- REGISTER_WRITE (R10). -/
  | registerWrite (off : BitVec 26) (value : Word32)
  /-- POWER_DOWN_REQUEST (R158). -/
  | powerDownRequest (bank : BankRef)
  /-- POWER_UP_REQUEST (R158). -/
  | powerUpRequest (bank : BankRef)
  /-- BANK_DRAINED (R158). -/
  | bankDrained (bank : BankRef)
  /-- RAMP_DOWN_COMPLETE (R158). -/
  | rampDownComplete (bank : BankRef)
  /-- RAMP_UP_COMPLETE (R158). -/
  | rampUpComplete (bank : BankRef)
  /-- BANK_CLEAR_COMPLETE (R158). -/
  | bankClearComplete (bank : BankRef)
  /-- CHN_LINK_ENABLE_SET (R401). -/
  | chnLinkEnableSet (n : ChainId)
  /-- CHN_LINK_ENABLE_CLEAR (R401). -/
  | chnLinkEnableClear (n : ChainId)
  /-- TASK_LAUNCH (R482). -/
  | taskLaunch (addr : BitVec 64)
  /-- NOTICE_POST (R456). -/
  | noticePost (m : BoxId)
  /-- INFO (R463). -/
  | info (m : BoxId)
  /-- OVERLAY_APPLY (R469). -/
  | overlayApply (m : BoxId)
  /-- OVERLAY_WITHDRAW (R469). -/
  | overlayWithdraw (m : BoxId)
  /-- BANK_POWER (R160). -/
  | bankPower (m : BoxId)
  /-- DECODE_TABLE_LOAD (R352). -/
  | decodeTableLoad (m : BoxId)
  /-- DECODE_TABLE_WITHDRAW (R352). -/
  | decodeTableWithdraw (m : BoxId)
  /-- PARTITION_CREATE (R474). -/
  | partitionCreate (m : BoxId)
  /-- PARTITION_DESTROY (R474). -/
  | partitionDestroy (m : BoxId)
  /-- CONTEXT_CREATE (R476). -/
  | contextCreate (m : BoxId)
  /-- CONTEXT_DESTROY (R478). -/
  | contextDestroy (m : BoxId)
  /-- MAILBOX_GRANT (R479). -/
  | mailboxGrant (m : BoxId)
  /-- MAILBOX_REVOKE (R479). -/
  | mailboxRevoke (m : BoxId)
  /-- MEMORY_GRANT (R480). -/
  | memoryGrant (m : BoxId)
  /-- PROGRAM_LOAD (R460). -/
  | programLoad (m : BoxId)
  /-- PROGRAM_UNLOAD (R460). -/
  | programUnload (m : BoxId)
  /-- GROUP_OPEN (R24). -/
  | groupOpen (m : BoxId)
  /-- GROUP_CLOSE (R42). -/
  | groupClose (m : BoxId)
  /-- BRANCH_FORK (R41). -/
  | branchFork (m : BoxId)
  /-- TRIM_POLICY (R325). -/
  | trimPolicy (m : BoxId)
  /-- STREAM_OPEN (R273). -/
  | streamOpen (m : BoxId)
  /-- STREAM_CLOSE (R272). -/
  | streamClose (m : BoxId)
  /-- STREAM_SWAP_OUT (R272). -/
  | streamSwapOut (m : BoxId)
  /-- STREAM_FLUSH (R272). -/
  | streamFlush (m : BoxId)
  /-- STREAM_EXPORT (R272). -/
  | streamExport (m : BoxId)
  /-- STREAM_IMPORT (R273). -/
  | streamImport (m : BoxId)
  /-- VAT_RESERVE (R315). -/
  | vatReserve (m : BoxId)
  /-- VAT_RELEASE (R315). -/
  | vatRelease (m : BoxId)
  /-- VAT_QUERY (R315). -/
  | vatQuery (m : BoxId)
  /-- CYCLE_TABLE_SET (R489). -/
  | cycleTableSet (m : BoxId)
  /-- CYCLE_TABLE_CLEAR (R489). -/
  | cycleTableClear (m : BoxId)
  /-- PREEMPT (R491). -/
  | preempt (m : BoxId)
  /-- RESUME (R495). -/
  | resume (m : BoxId)
  /-- PARTITION_RESET (R499). -/
  | partitionReset (m : BoxId)
  /-- ERROR_READ (R582). -/
  | errorRead (m : BoxId)
  /-- ERROR_CLEAR (R583). -/
  | errorClear (m : BoxId)
  /-- ATTEST_REPORT (R516). -/
  | attestReport (m : BoxId)
  /-- CERT_READ (R515). -/
  | certRead (m : BoxId)
  /-- FW_STAGE (R511). -/
  | fwStage (m : BoxId)
  /-- FW_COMMIT (R512). -/
  | fwCommit (m : BoxId)
  /-- CONFIG_STAGE (R511). -/
  | configStage (m : BoxId)
  /-- THERMAL_SET (R562). -/
  | thermalSet (m : BoxId)
  /-- THERMAL_GET (R562). -/
  | thermalGet (m : BoxId)
  /-- LINK_STATUS (R539). -/
  | linkStatus (m : BoxId)
  /-- LINK_ENABLE (R539). -/
  | linkEnable (m : BoxId)
  /-- TOPOLOGY_ACCEPT (R537). -/
  | topologyAccept (m : BoxId)
  /-- STACK_STATUS (R465). -/
  | stackStatus (m : BoxId)
  /-- DIAG_READ (R465). -/
  | diagRead (m : BoxId)
  /-- TASK_START (R485). -/
  | taskStart (p : PartId)
  /-- TASK_END (R481). -/
  | taskEnd (p : PartId) (slot : Fin 17)
  /-- SLOT_BOUNDARY (R490). -/
  | slotBoundary (p : PartId)
  /-- CHEAP_POINT_SPILL (R194). -/
  | cheapPointSpill (c : CoreId)
  /-- PREEMPTION_COMPLETE (R492). -/
  | preemptionComplete (p : PartId) (slot : Fin 17)
  /-- WORK_RESUME (R495). -/
  | workResume (p : PartId) (slot : Fin 17)
  /-- PROGRESS_NOTICE (R496). -/
  | progressNotice (c : CoreId)
  /-- TEARDOWN_COMPLETE (R477). -/
  | teardownComplete (x : CtxId)
  /-- RESET_COMPLETE (R475). -/
  | resetComplete (p : PartId)
  /-- DESTROY_COMPLETE (R475). -/
  | destroyComplete (p : PartId)
  /-- ROOT_TASK_COMPLETE (R27). -/
  | rootTaskComplete (g : GroupId)
  /-- ROSTER_CLOSE (R35). -/
  | rosterClose (p : PartId)
  /-- RECORD_RING_STALL (R46). -/
  | recordRingStall (g : GroupId)
  /-- ALLOC_SKIP_STALL (R314). -/
  | allocSkipStall (b : BranchId)
  /-- PARTITION_STEP_COMPLETE (R320). -/
  | partitionStepComplete (p : PartId)
  /-- GROUP_BOUNDARY (R38). -/
  | groupBoundary (g : GroupId)
  /-- FORK_COMPLETE (R298). -/
  | forkComplete (b : BranchId)
  /-- BRANCH_FREE (R20). -/
  | branchFree (b : BranchId)
  /-- GROUP_END (R27). -/
  | groupEnd (g : GroupId)
  /-- VAT_TICK (R302). -/
  | vatTick
  /-- VAT_SWEEP (R302). -/
  | vatSweep (page : PageId)
  /-- REFCOUNT_INCREMENT (R292). -/
  | refcountIncrement (page : PageId)
  /-- REFCOUNT_DECREMENT (R301). -/
  | refcountDecrement (page : PageId)
  /-- BACKGROUND_EVICTION (R305). -/
  | backgroundEviction (d : DieId)
  /-- PAGE_EXPORT_COMPLETE (R289). -/
  | pageExportComplete (page : PageId)
  /-- PAGE_IMPORT_COMPLETE (R289). -/
  | pageImportComplete (page : PageId)
  /-- REBUILD_START (R308). -/
  | rebuildStart (p : PartId)
  /-- REBUILD_COMPLETE (R308). -/
  | rebuildComplete (p : PartId)
  /-- REBUILD_FAIL (R312). -/
  | rebuildFail (page : PageId)
  /-- MOVE_COMPLETE (R313). -/
  | moveComplete (page : PageId)
  /-- WRITE_GATHER_FLUSH (R343). -/
  | writeGatherFlush (stk : StackId) (block : BitVec 25)
  /-- SEAL (R346). -/
  | seal (stk : StackId)
  /-- RECODE (R353). -/
  | recode (stk : StackId)
  /-- TABLE_LOAD_COMPLETE (R350). -/
  | tableLoadComplete (slot : Fin 4)
  /-- TABLE_SLOT_FREE (R350). -/
  | tableSlotFree (slot : Fin 4)
  /-- STACK_READ (R366). -/
  | stackRead (stk : StackId) (unit : BitVec 28) (found : ReadCheck)
  /-- STACK_WRITE (R366). -/
  | stackWrite (stk : StackId) (unit : BitVec 28) (data : List Byte) (mask : BitVec 512) (found : ReadCheck)
  /-- PARITY_ERROR (R369). -/
  | parityError (stk : StackId) (pc : PcId)
  /-- PARITY_REISSUE (R369). -/
  | parityReissue (stk : StackId) (pc : PcId) (ok : Bool)
  /-- SOFT_REPAIR_COMPLETE (R374). -/
  | softRepairComplete (stk : StackId)
  /-- REFRESH (R368). -/
  | refresh (stk : StackId) (pc : PcId) (bank : Fin 64)
  /-- PATROL_SCRUB (R371). -/
  | patrolScrub (stk : StackId) (found : ReadCheck)
  /-- DRAM_TEMP_READ (R382). -/
  | dramTempRead (stk : StackId) (reading : Option (BitVec 8))
  /-- STACK_LIMIT (R383). -/
  | stackLimit
  /-- PC_RETIRE (R376). -/
  | pcRetire (stk : StackId) (pc : PcId)
  /-- REDIRECT_COPY_START (R379). -/
  | redirectCopyStart (stk : StackId) (pc : PcId)
  /-- REDIRECT_COPY_COMPLETE (R379). -/
  | redirectCopyComplete (stk : StackId) (pc : PcId)
  /-- REPAIR_LOG_APPEND (R372). -/
  | repairLogAppend
  /-- GATHER_FLUSH (R152). -/
  | gatherFlush (c : CoreId) (line : Fin 6144) (bad : Bool)
  /-- LINE_TEST (R144). -/
  | lineTest (line : LineRef) (fails : Bool)
  /-- SLOT_STALL_NOTICE (R150). -/
  | slotStallNotice (c : CoreId) (w : WalkerId)
  /-- WAIT_STALL_NOTICE (R199). -/
  | waitStallNotice (c : CoreId) (w : WalkerId)
  /-- NEST_ENTRY (R174). -/
  | nestEntry (c : CoreId)
  /-- TILE_ENTRY (R174). -/
  | tileEntry (c : CoreId) (w : WalkerId)
  /-- ITEM_DRAW (R179). -/
  | itemDraw (c : CoreId) (w : WalkerId)
  /-- DONE_NOTICE (R182). -/
  | doneNotice (c : CoreId)
  /-- MULTICAST_DELIVERY (R184). -/
  | multicastDelivery (q : QuireId)
  /-- PREFETCH_ISSUE (R191). -/
  | prefetchIssue (q : QuireId)
  /-- PREFETCH_LANDED (R192). -/
  | prefetchLanded (q : QuireId) (j : Fin 1024)
  /-- DESCRIPTOR_COMPLETE (R147). -/
  | descriptorComplete (c : CoreId) (eng : Engine)
  /-- REMOTE_PRODUCER_LANDED (R148). -/
  | remoteProducerLanded (c : CoreId)
  /-- SHADOW_FULL (R118). -/
  | shadowFull (c : CoreId)
  /-- MMA_LOAD (R116). -/
  | mmaLoad (c : CoreId) (w : WalkerId) (e : Upset)
  /-- MMA_MUL (R111). -/
  | mmaMul (c : CoreId) (w : WalkerId) (e : Upset)
  /-- MMA_DRAIN (R115). -/
  | mmaDrain (c : CoreId) (w : WalkerId) (e : Upset)
  /-- MMA_SWAP (R118). -/
  | mmaSwap (c : CoreId) (w : WalkerId)
  /-- COPY (R206). -/
  | copy (c : CoreId) (w : WalkerId) (e : Upset)
  /-- ADD (R206). -/
  | add (c : CoreId) (w : WalkerId) (e : Upset)
  /-- SUB (R206). -/
  | sub (c : CoreId) (w : WalkerId) (e : Upset)
  /-- VEC_MUL (R206). -/
  | vecMul (c : CoreId) (w : WalkerId) (e : Upset)
  /-- DIV (R206). -/
  | div (c : CoreId) (w : WalkerId) (e : Upset)
  /-- MAX (R206). -/
  | max (c : CoreId) (w : WalkerId) (e : Upset)
  /-- MIN (R206). -/
  | min (c : CoreId) (w : WalkerId) (e : Upset)
  /-- FMA (R206). -/
  | fma (c : CoreId) (w : WalkerId) (e : Upset)
  /-- ABS (R206). -/
  | abs (c : CoreId) (w : WalkerId) (e : Upset)
  /-- RELU (R206). -/
  | relu (c : CoreId) (w : WalkerId) (e : Upset)
  /-- GELU (R206). -/
  | gelu (c : CoreId) (w : WalkerId) (e : Upset)
  /-- SILU (R206). -/
  | silu (c : CoreId) (w : WalkerId) (e : Upset)
  /-- SIGMOID (R206). -/
  | sigmoid (c : CoreId) (w : WalkerId) (e : Upset)
  /-- TANH (R206). -/
  | tanh (c : CoreId) (w : WalkerId) (e : Upset)
  /-- EXP (R206). -/
  | exp (c : CoreId) (w : WalkerId) (e : Upset)
  /-- LOG (R206). -/
  | log (c : CoreId) (w : WalkerId) (e : Upset)
  /-- SQRT (R206). -/
  | sqrt (c : CoreId) (w : WalkerId) (e : Upset)
  /-- RSQRT (R206). -/
  | rsqrt (c : CoreId) (w : WalkerId) (e : Upset)
  /-- RECIP (R206). -/
  | recip (c : CoreId) (w : WalkerId) (e : Upset)
  /-- CLAMP (R206). -/
  | clamp (c : CoreId) (w : WalkerId) (e : Upset)
  /-- RSUM (R209). -/
  | rsum (c : CoreId) (w : WalkerId) (e : Upset)
  /-- RMAX (R209). -/
  | rmax (c : CoreId) (w : WalkerId) (e : Upset)
  /-- RMIN (R209). -/
  | rmin (c : CoreId) (w : WalkerId) (e : Upset)
  /-- RSUMSQ (R209). -/
  | rsumsq (c : CoreId) (w : WalkerId) (e : Upset)
  /-- RARGMAX (R211). -/
  | rargmax (c : CoreId) (w : WalkerId) (e : Upset)
  /-- SOFTMAX (R212). -/
  | softmax (c : CoreId) (w : WalkerId) (e : Upset)
  /-- LAYERNORM (R213). -/
  | layernorm (c : CoreId) (w : WalkerId) (e : Upset)
  /-- RMSNORM (R213). -/
  | rmsnorm (c : CoreId) (w : WalkerId) (e : Upset)
  /-- CONV (R222). -/
  | conv (c : CoreId) (w : WalkerId) (e : Upset)
  /-- SAMPLE (R218). -/
  | sample (c : CoreId) (w : WalkerId) (e : Upset)
  /-- ATTEND (R238). -/
  | attend (c : CoreId) (w : WalkerId) (e : Upset)
  /-- FINISH (R241). -/
  | finish (c : CoreId) (w : WalkerId) (e : Upset)
  /-- EXPORT (R244). -/
  | exportRows (c : CoreId) (w : WalkerId) (e : Upset)
  /-- APPEND (R247). -/
  | appendRows (c : CoreId) (w : WalkerId) (e : Upset)
  /-- ARM (R244). -/
  | arm (c : CoreId) (w : WalkerId)
  /-- COMBINE_MERGE (R244). -/
  | combineMerge (q : QuireId)
  /-- COMBINE_FINALISE (R244). -/
  | combineFinalise (q : QuireId)
  /-- COMBINE_RESULT_LANDED (R245). -/
  | combineResultLanded (q : QuireId)
  /-- CHUNK (R266). -/
  | chunk (c : CoreId) (w : WalkerId) (e : Upset)
  /-- FLUSH (R272). -/
  | flush (c : CoreId) (w : WalkerId) (e : Upset)
  /-- RELEASE (R270). -/
  | release (c : CoreId) (w : WalkerId) (e : Upset)
  /-- STREAM_CLAIM (R269). -/
  | streamClaim (c : CoreId)
  /-- STREAM_LOADED (R272). -/
  | streamLoaded (c : CoreId)
  /-- STREAM_WRITTEN_BACK (R270). -/
  | streamWrittenBack (c : CoreId)
  /-- MIGRATE_RELEASE (R269). -/
  | migrateRelease (c : CoreId)
  /-- MOVE (R197). -/
  | move (c : CoreId) (w : WalkerId) (e : Upset)
  /-- FILL (R155). -/
  | fill (c : CoreId) (w : WalkerId)
  /-- LCOPY (R155). -/
  | lcopy (c : CoreId) (w : WalkerId) (e : Upset)
  /-- SLOT_DEF (R146). -/
  | slotDef (c : CoreId) (w : WalkerId)
  /-- SLOT_UNDEF (R199). -/
  | slotUndef (c : CoreId) (w : WalkerId)
  /-- CTR_SET (R199). -/
  | ctrSet (c : CoreId) (w : WalkerId)
  /-- CTR_FADD (R180). -/
  | ctrFadd (c : CoreId) (w : WalkerId)
  /-- WAIT_GE (R199). -/
  | waitGe (c : CoreId) (w : WalkerId)
  /-- BARRIER (R199). -/
  | barrier (c : CoreId) (w : WalkerId)
  /-- FENCE (R199). -/
  | fence (c : CoreId) (w : WalkerId)
  /-- WAIT_GE_SATISFIED (R199). -/
  | waitGeSatisfied (c : CoreId) (w : WalkerId)
  /-- BARRIER_RELEASE (R199). -/
  | barrierRelease (c : CoreId) (w : WalkerId)
  /-- DETECT (R401). -/
  | detect (l : LinkId) (groups : BitVec 8)
  /-- DETECT_TIMEOUT (R401). -/
  | detectTimeout (l : LinkId)
  /-- EQUALIZE_DONE (R401). -/
  | equalizeDone (l : LinkId) (failed : BitVec 8)
  /-- ALIGN_DONE (R402). -/
  | alignDone (l : LinkId) (locked : BitVec 8)
  /-- EXCHANGE_DONE (R401). -/
  | exchangeDone (l : LinkId) (peer : CtrlFlit)
  /-- LINK_PERMANENT_ERROR (R400). -/
  | linkPermanentError (l : LinkId)
  /-- RETRAIN_DONE (R401). -/
  | retrainDone (l : LinkId) (groups : BitVec 8) (peer : CtrlFlit)
  /-- RETRAIN_TIMEOUT (R404). -/
  | retrainTimeout (l : LinkId)
  /-- DRAIN_COMPLETE (R401). -/
  | drainComplete (l : LinkId)
  /-- DOWN_RETRY (R401). -/
  | downRetry (l : LinkId)
  /-- FRAME_RECEIVE (R399). -/
  | frameReceive (l : LinkId) (frame : Frame)
  /-- REPLAY_TIMEOUT (R399). -/
  | replayTimeout (l : LinkId)
  /-- CTRL_FLIT_SEND (R397). -/
  | ctrlFlitSend (l : LinkId)
  /-- HELD_PACKET_ROUTE (R407). -/
  | heldPacketRoute (n : ChainId)
  /-- CHN_RD (R411). -/
  | chnRd (n : ChainId) (pkt : ChnPkt)
  /-- CHN_WR (R411). -/
  | chnWr (n : ChainId) (pkt : ChnPkt)
  /-- CHN_EXPD (R414). -/
  | chnExpd (n : ChainId) (pkt : ChnPkt)
  /-- INBOX_DELIVER (R414). -/
  | inboxDeliver (n : ChainId)
  /-- CHN_RDDATA (R395). -/
  | chnRddata (n : ChainId) (pkt : ChnPkt)
  /-- CHN_WRACK (R395). -/
  | chnWrack (n : ChainId) (pkt : ChnPkt)
  /-- CHN_NACK (R410). -/
  | chnNack (n : ChainId) (pkt : ChnPkt)
  /-- HEARTBEAT_TICK (R418). -/
  | heartbeatTick
  /-- MANAGER_SILENCE (R418). -/
  | managerSilence
  /-- SILENCE (R419). -/
  | silence (n : ChainId) (slot : BitVec 4) (epoch : BitVec 16)
  /-- MANAGER_CHANGE (R420). -/
  | managerChange (n : ChainId) (slot : BitVec 4) (epoch : BitVec 16)
  /-- CERT (R521). -/
  | cert (n : ChainId) (msg : List Byte)
  /-- KEY_INIT (R521). -/
  | keyInit (n : ChainId) (msg : List Byte)
  /-- KEY_RESP (R521). -/
  | keyResp (n : ChainId) (msg : List Byte)
  /-- RD_SHARED (R429). -/
  | rdShared (pkt : CchPkt)
  /-- RD_UNCACHED (R429). -/
  | rdUncached (pkt : CchPkt)
  /-- COUCH_WR (R429). -/
  | couchWr (pkt : CchPkt)
  /-- WR_PARTIAL (R429). -/
  | wrPartial (pkt : CchPkt)
  /-- RD_OWN (R429). -/
  | rdOwn (pkt : CchPkt)
  /-- EVICT (R429). -/
  | evict (pkt : CchPkt)
  /-- SNP_INV (R432). -/
  | snpInv (pkt : CchPkt)
  /-- SNP_DATA (R432). -/
  | snpData (pkt : CchPkt)
  /-- COUCH_DATA (R439). -/
  | couchData (pkt : CchPkt)
  /-- COUCH_ACK (R430). -/
  | couchAck (pkt : CchPkt)
  /-- COUCH_NACK (R439). -/
  | couchNack (pkt : CchPkt)
  /-- SNP_RSP (R435). -/
  | snpRsp (pkt : CchPkt)
  /-- SNOOP_LATE (R435). -/
  | snoopLate (line : Fin 1048576)
  /-- AUX_WITHIN_RANGE (R549). -/
  | auxWithinRange (auxDv : BitVec 10)
  /-- BRIDGE_LINK_ERROR (R63). -/
  | bridgeLinkError (d : DieId) (side : BridgeSide) (again : Bool)
  /-- KEY_EXCHANGE_RETRY (R522). -/
  | keyExchangeRetry (n : ChainId)
  /-- SET_EVENT_RECEIVER (R563). -/
  | setEventReceiver (eid : BitVec 8)
  deriving DecidableEq, Repr

end Sys2Proof
end

