-- ==== Sys2Proof/Decode.lean ====
section
/-! DEFINITION. The operation table gives no row any bits, so no word spells a command (DESIGN CHOICE, log 4). -/

namespace Sys2Proof

/-- The command that a word of the operation table spells: none, since every row is without bits. -/
def decodeTableWord (_nbits _w : Nat) : Option Instr := none

end Sys2Proof
end

