-- ==== Sys2Proof/Config.lean ====
section
/-! DEFINITION. What an implementation fixes and what the spec leaves open: constants without a body, so
that no statement can rest on a value of theirs. -/

namespace Sys2Proof

/-- A free value: entropy draws (R518), rounding draws (R85, R89), and every value or choice that the spec
leaves open, applied to the state's counter (DESIGN CHOICE, log 5). -/
opaque Config.free : Nat → BitVec 64

/-- The fused defect map (R64): physical quire die × 18 + site, sites 0 to 15 home, 16 west, 17 east.
Bits [30:0] defect-free sheet cores, [35:31] defect-free press cores, [36] the quire is fused bad (DESIGN CHOICE, log 7). -/
opaque Config.defects : Nat → BitVec 37

/-- FW_KEY_DIGEST of a firmware key slot (R504). -/
opaque Config.fwKeyDigest : Nat → BitVec 256
/-- OWNER_KEY_DIGEST of an owner key slot, and which slots hold one (R504, R524). -/
opaque Config.ownerKeyDigest : Nat → BitVec 256
opaque Config.ownerValid : BitVec 4
/-- Digest of the boot ROM's contents and of the root certificate's public key (R504, R508). -/
opaque Config.romDigest : BitVec 256
opaque Config.rootDigest : BitVec 256
/-- The identity public key that ID_SEED gives (R517). -/
opaque Config.identityKey : List (BitVec 8)
/-- ML-DSA-44 verification: public key, context string, message, signature (R503) (DESIGN CHOICE, log 21). -/
opaque Config.verify : List (BitVec 8) → List (BitVec 8) → List (BitVec 8) → List (BitVec 8) → Bool
/-- ML-DSA-44 hedged signature under the identity key: randomness, context string, message (R503, R516)
(DESIGN CHOICE, log 21). -/
opaque Config.sign : Nat → List (BitVec 8) → List (BitVec 8) → List (BitVec 8)
/-- A certificate chain check up to a root digest (R516, R521): the public key it certifies, if it holds
(DESIGN CHOICE, log 21). -/
opaque Config.certKey : List (BitVec 8) → BitVec 256 → Option (List (BitVec 8))
/-- ML-KEM-768 (R521): encapsulation key from randomness, ciphertext from key and randomness, shared
secret from either side (DESIGN CHOICE, log 21). -/
opaque Config.kemKey : Nat → List (BitVec 8)
opaque Config.kemCipher : List (BitVec 8) → Nat → List (BitVec 8)
opaque Config.kemSecret : Nat → List (BitVec 8) → BitVec 256
/-- Certificate `i` of the certificate chain area of flash (R505, R515) (DESIGN CHOICE, log 22). -/
opaque Config.certAt : List (BitVec 8) → Nat → List (BitVec 8)
/-- Which of the 3,072 rows from row 46,080 of a bank are repair reserve (R363, R375): the spec does not say
(DESIGN CHOICE, log 23). -/
opaque Config.isReserve : Nat → Bool
/-- Frames in stack whose frame record a reserved row holds, by row of the bank and bank (R363, R532): the spec
does not say (DESIGN CHOICE, log 23). -/
opaque Config.recordFrames : Nat → Nat → List Nat

/-- The ordinal that an ALT patch with BASE_LEVEL 0 takes, by a walker's level-1 ordinal (R176): no level 0 exists and the
spec states no value (DESIGN CHOICE, log 75). -/
opaque Config.altOrdinal : Nat → Nat

end Sys2Proof
end

