-- ==== Sys2Proof/Machine/Float.lean ====
section
/-! DEFINITION. Number formats and arithmetic rules (chapter 03): exact values, formats, rounding, overflow, flags,
integers and block scales. -/

namespace Sys2Proof.Machine

/-! Values, flags and draws -/

/-- A number as the engines see it: not a number, an infinity, or ± m × 2^e with m a natural number. -/
inductive Val where
  | nan
  | inf (neg : Bool)
  | num (neg : Bool) (m : Nat) (e : Int)
  deriving DecidableEq, Repr, Inhabited

/-- What arithmetic leaves beside its result: the flags it sets (R102) and the free values it has drawn (DESIGN CHOICE, log 5). -/
structure ArSt where
  flags : Nat
  fresh : Nat
  deriving DecidableEq, Repr

/-- Arithmetic: a result, with flags raised and values drawn. -/
abbrev Ar (α : Type) : Type := ArSt → α × ArSt

def Ar.pure {α : Type} (a : α) : Ar α := fun t => (a, t)
def Ar.bind {α β : Type} (x : Ar α) (f : α → Ar β) : Ar β := fun t => f (x t).1 (x t).2
def Ar.map {α β : Type} (f : α → β) (x : Ar α) : Ar β := fun t => (f (x t).1, (x t).2)

/-- Run arithmetic over the elements of a list, in order. -/
def Ar.each {α β : Type} (f : α → Ar β) : List α → Ar (List β)
  | [] => Ar.pure []
  | a :: r => Ar.bind (f a) fun b => Ar.map (b :: ·) (Ar.each f r)

/-- Run arithmetic from an accumulator over the elements of a list, in order. -/
def Ar.fold {α β : Type} (f : β → α → Ar β) : β → List α → Ar β
  | b, [] => Ar.pure b
  | b, a :: r => Ar.bind (f b a) fun b1 => Ar.fold f b1 r

/-- Raise a flag. -/
def Ar.flag (f : Nat) : Ar Unit := fun t => ((), { t with flags := t.flags ||| f })
/-- Raise a flag when a condition holds. -/
def Ar.flagIf (b : Bool) (f : Nat) : Ar Unit := if b then Ar.flag f else Ar.pure ()
/-- Draw a free value. -/
def Ar.draw : Ar Nat := fun t => ((Config.free t.fresh).toNat, { t with fresh := t.fresh + 1 })
/-- A result that raises a flag. -/
def Ar.withFlag {α : Type} (f : Nat) (a : α) : Ar α := Ar.bind (Ar.flag f) fun _ => Ar.pure a

/-! Arithmetic flags (R102) -/
def fInvalid : Nat := 1
def fOverflow : Nat := 2
def fFlushed : Nat := 4
def fScaleHi : Nat := 8
def fScaleLo : Nat := 16
def fIntSat : Nat := 32
def fIntWrap : Nat := 64

/-! The arithmetic control field (R86) -/

/-- ARITH, with the context's flush mode (R87). -/
structure Ctl where
  stoch : Bool
  ovf : Bool
  iwrap : Bool
  sgnA : Bool
  sgnB : Bool
  sgnOut : Bool
  flush : Bool
  deriving DecidableEq, Repr

/-- The field as the 16 bits of a descriptor. -/
def ctlOf (a : Nat) (flush : Bool) : Ctl :=
  { stoch := fld a 0 2 == 1, ovf := bit a 2, iwrap := bit a 3, sgnA := bit a 4, sgnB := bit a 5, sgnOut := bit a 6
    flush := flush }

/-- The field carries a reserved code or a reserved bit (DEDUCED, log 69). -/
def arithReserved (a : Nat) : Bool := decide (2 ≤ fld a 0 2) || fld a 7 9 != 0

/-! Formats (R78, R79) -/

/-- A floating-point element format. -/
structure Fmt where
  bits : Nat
  mbits : Nat
  bias : Nat
  /-- Code of the largest finite magnitude. -/
  top : Nat
  /-- Codes of infinity and of the canonical NaN. -/
  infCode : Option Nat
  nanCode : Option Nat
  deriving DecidableEq, Repr

def fp32 : Fmt := { bits := 32, mbits := 23, bias := 127, top := 0x7F7FFFFF, infCode := some 0x7F800000, nanCode := some 0x7FC00000 }
def bf16 : Fmt := { bits := 16, mbits := 7, bias := 127, top := 0x7F7F, infCode := some 0x7F80, nanCode := some 0x7FC0 }
def fp16 : Fmt := { bits := 16, mbits := 10, bias := 15, top := 0x7BFF, infCode := some 0x7C00, nanCode := some 0x7E00 }
def e4m3 : Fmt := { bits := 8, mbits := 3, bias := 7, top := 0x7E, infCode := none, nanCode := some 0x7F }
def e5m2 : Fmt := { bits := 8, mbits := 2, bias := 15, top := 0x7B, infCode := some 0x7C, nanCode := some 0x7E }
def e2m1 : Fmt := { bits := 4, mbits := 1, bias := 1, top := 0x7, infCode := none, nanCode := none }
def e3m2 : Fmt := { bits := 6, mbits := 2, bias := 3, top := 0x1F, infCode := none, nanCode := none }
def e2m3 : Fmt := { bits := 6, mbits := 3, bias := 1, top := 0x1F, infCode := none, nanCode := none }

/-- The element format of a floating format code, block-scaled or not. -/
def fmtOf : Nat → Option Fmt
  | 0x00 => some fp32
  | 0x01 => some bf16
  | 0x02 => some fp16
  | 0x03 => some e4m3
  | 0x04 => some e5m2
  | 0x05 => some e2m1
  | 0x08 => some e4m3
  | 0x09 => some e5m2
  | 0x0A => some e3m2
  | 0x0B => some e2m3
  | 0x0C => some e2m1
  | 0x18 => some fp32
  | _ => none

/-- MX formats, and INT4G (R81, R82). -/
def isMx (f : Nat) : Bool := decide (0x08 ≤ f) && decide (f ≤ 0x0C)
def isInt4g (f : Nat) : Bool := f == 0x13
def isScaled (f : Nat) : Bool := isMx f || isInt4g f
/-- Integer formats in which signedness is selected (R87). -/
def isInt (f : Nat) : Bool := f == 0x10 || f == 0x11 || f == 0x12
/-- A format code is not reserved (R78). -/
def fmtKnown (f : Nat) : Bool := (fmtOf f).isSome || isInt f || isInt4g f

/-- Bits of an element (R78, R80). -/
def elemBits (f : Nat) : Nat :=
  match fmtOf f with
  | some g => g.bits
  | none => if f = 0x10 then 8 else if f = 0x12 then 32 else 4

/-- Bytes that a line of `n` packed elements takes: whole packing groups (R80). -/
def rowLen (f n : Nat) : Nat :=
  let b := elemBits f
  if b = 6 then ceilDiv n 4 * 3 else ceilDiv (n * b) 8

/-- The code of element `i` of a line of packed elements whose bytes are read by `rd` (R80). -/
def elemCode (rd : Nat → Byte) (base f i : Nat) : Nat :=
  let b := elemBits f
  let at0 := i * b
  fld (leNat ((List.range (if b = 32 then 4 else if b = 16 then 2 else if b = 6 then 2 else 1)).map fun k =>
    rd (base + at0 / 8 + k))) (at0 % 8) b

/-- The bytes of a line of codes, padded with zero bits to whole packing groups (R80). -/
def packRow (f : Nat) (codes : List Nat) : List Byte :=
  let b := elemBits f
  leBytes (rowLen f codes.length) (codes.foldr (fun c v => c % 2 ^ b + 2 ^ b * v) 0)

/-! Decoding (R79, R81) -/

/-- The value of a code. -/
def decodeFp (f : Fmt) (code : Nat) : Val :=
  let neg := bit code (f.bits - 1)
  let mag := code % 2 ^ (f.bits - 1)
  let ex := mag / 2 ^ f.mbits
  let fr := mag % 2 ^ f.mbits
  if f.infCode = some mag then .inf neg
  else if f.top < mag then .nan
  else if ex = 0 then .num neg fr (1 - (f.bias : Int) - f.mbits)
  else .num neg (fr + 2 ^ f.mbits) ((ex : Int) - f.bias - f.mbits)

/-- The value of an FP32 word. -/
def ofW (w : Word32) : Val := decodeFp fp32 w.toNat

/-- A whole number as a value. -/
def ofInt (i : Int) : Val := .num (decide (i < 0)) i.natAbs 0

/-- A value is a subnormal of a format, and not zero. -/
def isSubnormal (f : Fmt) : Val → Bool
  | .num _ m e => m != 0 && decide ((Nat.log2 m : Int) + e < 1 - (f.bias : Int))
  | _ => false

/-- The value of 2^k. -/
def pow2 (k : Int) : Val := .num false 1 k

/-! Exact operations (R84, R92) -/

def Val.isNan : Val → Bool | .nan => true | _ => false
def Val.isZero : Val → Bool | .num _ 0 _ => true | _ => false
def Val.isInf : Val → Bool | .inf _ => true | _ => false
def Val.neg? : Val → Bool | .nan => false | .inf s => s | .num s _ _ => s
def Val.negate : Val → Val | .nan => .nan | .inf s => .inf (!s) | .num s m e => .num (!s) m e
def Val.abs : Val → Val | .nan => .nan | .inf _ => .inf false | .num _ m e => .num false m e

/-- The signed significand of a number at an exponent at or below its own. -/
def scaled (neg : Bool) (m : Nat) (e lo : Int) : Int :=
  let v : Int := (m * 2 ^ (e - lo).toNat : Nat)
  if neg then -v else v

/-- A number from a signed significand; an exact zero is +0 (R95). -/
def ofScaled (i lo : Int) : Val := .num (decide (i < 0)) i.natAbs lo

/-- Exact sum; ∞ − ∞ is invalid (R92) (DEDUCED, log 43). -/
def addX : Val → Val → Ar Val
  | .nan, _ => Ar.pure .nan
  | _, .nan => Ar.pure .nan
  | .inf a, .inf b => if a = b then Ar.pure (.inf a) else Ar.withFlag fInvalid .nan
  | .inf a, _ => Ar.pure (.inf a)
  | _, .inf b => Ar.pure (.inf b)
  | .num s m e, .num t n g =>
    if m = 0 ∧ n = 0 then Ar.pure (.num (s && t) 0 0) else
    let lo := min e g
    Ar.pure (ofScaled (scaled s m e lo + scaled t n g lo) lo)

/-- Exact difference. -/
def subX (a b : Val) : Ar Val := addX a b.negate

/-- Exact product; 0 × ∞ is invalid (R92). -/
def mulX : Val → Val → Ar Val
  | .nan, _ => Ar.pure .nan
  | _, .nan => Ar.pure .nan
  | .inf a, .inf b => Ar.pure (.inf (a != b))
  | .inf a, .num t n _ => if n = 0 then Ar.withFlag fInvalid .nan else Ar.pure (.inf (a != t))
  | .num s m _, .inf b => if m = 0 then Ar.withFlag fInvalid .nan else Ar.pure (.inf (s != b))
  | .num s m e, .num t n g => Ar.pure (.num (s != t) (m * n) (e + g))

/-- The quotient m / n to 128 bits and more, with a last bit that says whether anything was left over. -/
def quotBits (m n : Nat) : Nat × Int :=
  let k := 128 + Nat.log2 n - Nat.log2 m
  let q := m * 2 ^ k / n
  (2 * q + (if m * 2 ^ k % n = 0 then 0 else 1), -((k : Int) + 1))

/-- Quotient; 0/0 and ∞/∞ are invalid, x/0 is an infinity (R206). -/
def divX : Val → Val → Ar Val
  | .nan, _ => Ar.pure .nan
  | _, .nan => Ar.pure .nan
  | .inf _, .inf _ => Ar.withFlag fInvalid .nan
  | .inf a, b => Ar.pure (.inf (a != b.neg?))
  | .num s _ _, .inf b => Ar.pure (.num (s != b) 0 0)
  | .num s m e, .num t n g =>
    if n = 0 then (if m = 0 then Ar.withFlag fInvalid .nan else Ar.pure (.inf (s != t)))
    else if m = 0 then Ar.pure (.num (s != t) 0 0)
    else
      let q := quotBits m n
      Ar.pure (.num (s != t) q.1 (e - g + q.2))

/-- The largest r with r² ≤ n, by bits from the top; `k` bits are looked at. -/
def isqrt (n : Nat) : Nat → Nat → Nat
  | 0, r => r
  | k + 1, r => let t := r + 2 ^ k
                isqrt n k (if t * t ≤ n then t else r)

/-- Square root; of a negative number it is invalid, and √(−0) is −0 (R206). -/
def sqrtX : Val → Ar Val
  | .nan => Ar.pure .nan
  | .inf true => Ar.withFlag fInvalid .nan
  | .inf false => Ar.pure (.inf false)
  | .num s m e =>
    if m = 0 then Ar.pure (.num s 0 0)
    else if s then Ar.withFlag fInvalid .nan
    else
      let odd := e % 2 != 0
      let m1 := (if odd then 2 * m else m) * 2 ^ 256
      let e1 := (if odd then e - 1 else e) - 256
      let r := isqrt m1 (Nat.log2 m1 / 2 + 1) 0
      Ar.pure (.num false (2 * r + (if r * r = m1 then 0 else 1)) (e1 / 2 - 1))

/-- a < b for numbers and infinities; false when either is NaN. -/
def ltV : Val → Val → Bool
  | .nan, _ => false
  | _, .nan => false
  | .inf a, .inf b => a && !b
  | .inf a, _ => a
  | _, .inf b => !b
  | .num s m e, .num t n g =>
    let lo := min e g
    decide (scaled s m e lo < scaled t n g lo)

/-- a ≤ b for numbers and infinities. -/
def leV (a b : Val) : Bool := !a.isNan && !b.isNan && !ltV b a

/-- Equality as numbers: +0 and −0 are equal. -/
def eqV (a b : Val) : Bool := leV a b && leV b a

/-- The larger of two; max(+0, −0) is +0 (R206). -/
def maxV (a b : Val) : Val :=
  if a.isNan || b.isNan then .nan
  else if a.isZero && b.isZero then .num (a.neg? && b.neg?) 0 0
  else if ltV a b then b else a

/-- The smaller of two; min(+0, −0) is −0 (R206). -/
def minV (a b : Val) : Val :=
  if a.isNan || b.isNan then .nan
  else if a.isZero && b.isZero then .num (a.neg? || b.neg?) 0 0
  else if ltV b a then b else a

/-! Rounding (R88, R89) -/

/-- The magnitude code that m × 2^e rounds to, the format extended without end above its largest finite value. `draw`
is the stochastic draw; none selects nearest, ties to even. -/
def roundMag (f : Fmt) (draw : Option Nat) (m : Nat) (e : Int) : Nat :=
  if m = 0 then 0 else
  let least : Int := 1 - (f.bias : Int) - f.mbits
  let u := max ((Nat.log2 m : Int) + e - f.mbits) least
  let sh := u - e
  let q := if sh ≤ 0 then m * 2 ^ (-sh).toNat else m / 2 ^ sh.toNat
  let rem := if sh ≤ 0 then 0 else m % 2 ^ sh.toNat
  let unit := 2 ^ sh.toNat
  let up := match draw with
    | none => decide (unit < 2 * rem) || (2 * rem == unit && q % 2 == 1)
    | some r => decide (r % 65536 < rem * 65536 / unit)
  (u - least).toNat * 2 ^ f.mbits + (if up && rem != 0 then q + 1 else q)

/-- The value lies on a code of the format. -/
def onGrid (f : Fmt) (m : Nat) (e : Int) : Bool :=
  let least : Int := 1 - (f.bias : Int) - f.mbits
  let u := max ((Nat.log2 m : Int) + e - f.mbits) least
  decide (u ≤ e) || m % 2 ^ (u - e).toNat == 0

/-- The code of a magnitude with a sign. -/
def withSign (f : Fmt) (neg : Bool) (code : Nat) : Nat := code + (if neg then 2 ^ (f.bits - 1) else 0)

/-- A finite value has overflowed (R90). -/
def overflowCode (f : Fmt) (ovf neg : Bool) : Nat :=
  match f.infCode, ovf with
  | some i, true => withSign f neg i
  | _, _ => withSign f neg f.top

/-- Convert a value into a floating format (R88 to R95): the code, with its flags. -/
def toFp (f : Fmt) (stoch ovf flush : Bool) (v : Val) : Ar Nat :=
  match v with
  | .nan =>
    match f.nanCode with
    | some c => Ar.pure c
    | none => Ar.withFlag fInvalid f.top
  | .inf s =>
    match f.infCode with
    | some c => Ar.pure (withSign f s c)
    | none => Ar.withFlag fOverflow (withSign f s f.top)
  | .num s m e =>
    let fin (code : Nat) : Ar Nat :=
      if f.top < code then Ar.withFlag fOverflow (overflowCode f ovf s)
      else if flush && code != 0 && decide (code < 2 ^ f.mbits) then Ar.withFlag fFlushed (withSign f s 0)
      else Ar.pure (withSign f s code)
    if stoch && m != 0 && !onGrid f m e then Ar.bind Ar.draw fun r => fin (roundMag f (some r) m e)
    else fin (roundMag f none m e)

/-- Round a value into FP32, ties to even, as one arithmetic step (R84, R90). -/
def f32 (ovf : Bool) (v : Val) : Ar Val := Ar.map (decodeFp fp32) (toFp fp32 false ovf false v)

/-- FP32 steps: each rounds once. -/
def addF (ovf : Bool) (a b : Val) : Ar Val := Ar.bind (addX a b) (f32 ovf)
def subF (ovf : Bool) (a b : Val) : Ar Val := Ar.bind (subX a b) (f32 ovf)
def mulF (ovf : Bool) (a b : Val) : Ar Val := Ar.bind (mulX a b) (f32 ovf)
def divF (ovf : Bool) (a b : Val) : Ar Val := Ar.bind (divX a b) (f32 ovf)
def fmaF (ovf : Bool) (a b c : Val) : Ar Val := Ar.bind (mulX a b) fun p => Ar.bind (addX p c) (f32 ovf)

/-- The FP32 word of a value that is one already. -/
def toW (v : Val) : Word32 := BitVec.ofNat 32 ((toFp fp32 false false false v) { flags := 0, fresh := 0 }).1

/-- An operand read under flush mode: a subnormal is zero with its sign (R94) (DEDUCED, log 42). -/
def flushIn (flush : Bool) (f : Fmt) (v : Val) : Ar Val :=
  if flush && isSubnormal f v then Ar.withFlag fFlushed (.num v.neg? 0 0) else Ar.pure v

/-! Integers (R96, R97) -/

/-- Least and greatest value of an integer range. -/
def intMin (bits : Nat) (signed : Bool) : Int := if signed then -(2 ^ (bits - 1) : Nat) else 0
def intMax (bits : Nat) (signed : Bool) : Int := if signed then (2 ^ (bits - 1) : Nat) - 1 else (2 ^ bits : Nat) - 1

/-- An integer brought into a range: saturate, or keep the low bits (R96, R97). -/
def intFit (bits : Nat) (signed wrap : Bool) (i : Int) : Ar Int :=
  if intMin bits signed ≤ i ∧ i ≤ intMax bits signed then Ar.pure i
  else if wrap then
    let low := i % (2 ^ bits : Nat)
    Ar.withFlag fIntWrap (if signed && decide (intMax bits true < low) then low - (2 ^ bits : Nat) else low)
  else Ar.withFlag fIntSat (if i < 0 then intMin bits signed else intMax bits signed)

/-- The integer that a number rounds to (R97). -/
def roundInt (draw : Option Nat) (neg : Bool) (m : Nat) (e : Int) : Int :=
  let q : Nat :=
    if 0 ≤ e then m * 2 ^ e.toNat
    else
      let unit := 2 ^ (-e).toNat
      let q := m / unit
      let rem := m % unit
      let up := match draw with
        | none => decide (unit < 2 * rem) || (2 * rem == unit && q % 2 == 1)
        | some r => decide (r % 65536 < rem * 65536 / unit)
      if up && rem != 0 then q + 1 else q
  if neg then -(q : Int) else q

/-- Convert a floating value into an integer format (R91, R93, R97): the low bits, with flags. -/
def toInt (bits : Nat) (signed : Bool) (c : Ctl) (v : Val) : Ar Nat :=
  match v with
  | .nan => Ar.withFlag fInvalid 0
  | .inf s => Ar.withFlag fIntSat (toBits bits (if s then intMin bits signed else intMax bits signed))
  | .num s m e =>
    let fin (i : Int) : Ar Nat := Ar.map (toBits bits) (intFit bits signed c.iwrap i)
    if c.stoch && decide (e < 0) && m % 2 ^ (-e).toNat != 0 then
      Ar.bind Ar.draw fun r => fin (roundInt (some r) s m e)
    else fin (roundInt none s m e)

/-- An integer code as a number. -/
def intVal (bits : Nat) (signed : Bool) (code : Nat) : Int := if signed then sext bits code else (code % 2 ^ bits : Nat)

/-! Reading elements (R80 to R82, R203) -/

/-- Value of an E8M0 scale (R79). -/
def e8m0 (code : Nat) : Val := if code = 255 then .nan else pow2 ((code : Int) - 127)

/-- The unscaled value of an element. -/
def elemVal (f : Nat) (signed : Bool) (code : Nat) : Val :=
  match fmtOf f with
  | some g => decodeFp g code
  | none => ofInt (intVal (elemBits f) (if isInt4g f then true else signed) code)

/-- Bytes of a block's scale. -/
def scaleBytes (f : Nat) : Nat := if isInt4g f then 2 else 1

/-- The scale of block `k` of a line of scales at `base`. -/
def scaleVal (rd : Nat → Byte) (base f k : Nat) : Val :=
  if isInt4g f then decodeFp bf16 (leNat [rd (base + 2 * k), rd (base + 2 * k + 1)]) else e8m0 (rd (base + k)).toNat

/-- Element times scale, evaluated exactly for MX and in FP32 for INT4G (R81, R82); a NaN or an infinity of the scale
sets no flag. -/
def scaleElem (f : Nat) (v sc : Val) : Val :=
  match v, sc with
  | .nan, _ => .nan
  | _, .nan => .nan
  | .inf a, s => .inf (a != s.neg?)
  | x, .inf b => if x.isZero then .nan else .inf (x.neg? != b)
  | .num s m e, .num t n g =>
    let p : Val := .num (s != t) (m * n) (e + g)
    if isInt4g f then ((f32 false p) { flags := 0, fresh := 0 }).1 else p

/-- Element `i` of a line at `base` whose block scales lie at `sbase`, under flush mode (R94). -/
def readElem (rd : Nat → Byte) (flush : Bool) (base sbase f : Nat) (signed : Bool) (i : Nat) : Ar Val :=
  let raw := elemVal f signed (elemCode rd base f i)
  let flushed := match fmtOf f with | some g => flushIn flush g raw | none => Ar.pure raw
  Ar.bind flushed fun v =>
    if isScaled f then Ar.pure (scaleElem f v (scaleVal rd sbase f (i / 32))) else Ar.pure v

/-- As an engine that computes in FP32 reads it: INT32 values round (R203)
(DEDUCED, log 43; DEDUCED, log 75). -/
def readF32 (rd : Nat → Byte) (c : Ctl) (base sbase f : Nat) (signed : Bool) (i : Nat) : Ar Val :=
  Ar.bind (readElem rd c.flush base sbase f signed i) (f32 c.ovf)

/-! Writing lines (R83, R97, R208) -/

/-- floor(log2) of a positive magnitude. -/
def log2V : Val → Int
  | .num _ m e => (Nat.log2 m : Int) + e
  | _ => 0

/-- emax of an MX element format (R83). -/
def emaxOf (f : Nat) : Int :=
  match f with
  | 0x08 => 8
  | 0x09 => 15
  | 0x0A => 4
  | 0x0B => 2
  | _ => 2

/-- The largest magnitude among finite values. -/
def amax (l : List Val) : Val :=
  l.foldl (fun a v => match v with | .num _ _ _ => if ltV a v.abs then v.abs else a | _ => a) (.num false 0 0)

/-- The scale exponent of an MX block (R83). -/
def mxExp (f : Nat) (l : List Val) : Int :=
  let a := amax l
  if a.isZero then -127 else max (-127) (min 127 (log2V a - emaxOf f))

/-- Codes of an MX block and its scale code (R83). -/
def mxBlock (f : Nat) (g : Fmt) (c : Ctl) (l : List Val) : Ar (List Nat × Nat) :=
  let ex := mxExp f l
  let down : Val → Val
    | .num s m e => .num s m (e - ex)
    | v => v
  Ar.map (fun codes => (codes, (ex + 127).toNat)) (Ar.each (fun v => toFp g c.stoch c.ovf c.flush (down v)) l)

/-- Codes of an INT4G block and its BF16 scale (R208). -/
def int4gBlock (c : Ctl) (l : List Val) : Ar (List Nat × Nat) :=
  let a := amax l
  if a.isZero then Ar.bind (Ar.flagIf (l.any Val.isNan) fInvalid) fun _ =>
    Ar.bind (Ar.flagIf (l.any Val.isInf) fOverflow) fun _ => Ar.pure (l.map fun _ => 0, 0)
  else
    Ar.bind (divX a (ofInt 7)) fun q => Ar.bind (toFp bf16 false false false q) fun sc =>
      let s := decodeFp bf16 sc
      Ar.map (fun codes => (codes, sc)) (Ar.each (fun v =>
        match v with
        | .nan => Ar.withFlag fInvalid 0
        | .inf n => Ar.withFlag fOverflow (toBits 4 (if n then -7 else 7))
        | x => Ar.bind (divX x s) fun y =>
          match y with
          | .num n m e =>
            let fin (i : Int) : Ar Nat := Ar.pure (toBits 4 (max (-7) (min 7 i)))
            if c.stoch && decide (e < 0) && m % 2 ^ (-e).toNat != 0 then
              Ar.bind Ar.draw fun r => fin (roundInt (some r) n m e)
            else fin (roundInt none n m e)
          | _ => Ar.pure (toBits 4 (if y.neg? then -7 else 7))) l)

/-- Cut a list into pieces of `n`; `fuel` bounds the pieces. -/
def chunksOf {α : Type} (n : Nat) : Nat → List α → List (List α)
  | 0, _ => []
  | k + 1, l => if l.isEmpty then [] else l.take n :: chunksOf n k (l.drop n)

/-- Pad the codes of a block to 32 with zeros (R81). -/
def padBlock (codes : List Nat) : List Nat := codes ++ List.replicate (32 - codes.length) 0

/-- Convert a line of values into a format: its bytes, and the bytes of its scales. -/
def writeLine (f : Nat) (c : Ctl) (l : List Val) : Ar (List Byte × List Byte) :=
  if isScaled f then
    Ar.map (fun bs => (packRow f (bs.flatMap fun b => padBlock b.1), bs.flatMap fun b => leBytes (scaleBytes f) b.2))
      (Ar.each (fun b => match fmtOf f with | some g => mxBlock f g c b | none => int4gBlock c b) (chunksOf 32 l.length l))
  else
    Ar.map (fun codes => (packRow f codes, []))
      (Ar.each (fun v => match fmtOf f with
        | some g => toFp g c.stoch c.ovf c.flush v
        | none => toInt (elemBits f) c.sgnOut c v) l)

/-! Block products (R98, R99) -/

/-- The scaling of a block's partial sum by 2^S, S the sum of the unbiased scale codes (DEDUCED, log 42). -/
def blockScale (c : Ctl) (sum : Val) (codes : List Nat) : Ar Val :=
  let S : Int := codes.foldl (fun (v : Int) (k : Nat) => v + ((k : Int) - 127)) 0
  if sum.isZero then Ar.pure (.num false 0 0)
  else if sum.isNan ∨ codes.contains 255 then Ar.pure .nan
  else if 127 < S then
    Ar.withFlag fScaleHi (if c.ovf || sum.isInf then .inf sum.neg? else decodeFp fp32 (withSign fp32 sum.neg? fp32.top))
  else if S < -127 then Ar.withFlag fScaleLo (if sum.isInf then sum else .num sum.neg? 0 0)
  else
    match sum with
    | .num s m e => Ar.map (decodeFp fp32) (toFp fp32 false c.ovf c.flush (.num s m (e + S)))
    | v => Ar.pure v

end Sys2Proof.Machine
end

