-- ==== Sys2Proof/Machine/Funcs.lean ====
section
/-! DEFINITION. The functions that engines compute within a number of units in the last place (R207, R235, R326), and
the counter-based generator of the sampler (R215). The exact value of a function is bracketed by fixed-point series of
320 bits; which of the FP32 values within the stated distance is delivered is a free value (DESIGN CHOICE, log 19). -/

namespace Sys2Proof.Machine

/-! Series in fixed point, 320 fraction bits -/

def fxBits : Nat := 320
def fxOne : Int := (2 ^ fxBits : Nat)

/-- A number in fixed point. -/
def toFx (neg : Bool) (m : Nat) (e : Int) : Int :=
  let sh := e + fxBits
  let v : Nat := if 0 ≤ sh then m * 2 ^ sh.toNat else m / 2 ^ (-sh).toNat
  if neg then -(v : Int) else v

/-- Σ r^k / k! from term `k`, for |r| below 1. -/
def expSum (r : Int) : Nat → Nat → Int → Int → Int
  | 0, _, _, acc => acc
  | n + 1, k, term, acc => expSum r n (k + 1) (term * r / fxOne / ((k : Int) + 1)) (acc + term)

/-- Σ z^(2k+1) / (2k+1): atanh z for |z| at most 1/3. -/
def atanhSum (z2 : Int) : Nat → Nat → Int → Int → Int
  | 0, _, _, acc => acc
  | n + 1, k, p, acc => atanhSum z2 n (k + 1) (p * z2 / fxOne) (acc + p / (2 * (k : Int) + 1))

def atanhFx (z : Int) : Int := atanhSum (z * z / fxOne) 110 0 z 0

/-- ln 2. -/
def ln2Fx : Int := 2 * atanhFx (fxOne / 3)

/-- A fixed-point number times 2^k, as a value. -/
def ofFx (i : Int) (k : Int) : Val := .num (decide (i < 0)) i.natAbs (k - fxBits)

/-- e^v; beyond ±2,000 a value far outside FP32 on the right side. -/
def expV : Val → Val
  | .nan => .nan
  | .inf true => .num false 0 0
  | .inf false => .inf false
  | .num s m e =>
    if ltV (ofInt 2000) (.num s m e) then pow2 4000
    else if ltV (.num s m e) (ofInt (-2000)) then pow2 (-4000)
    else
      let x := toFx s m e
      let k := x / ln2Fx
      ofFx (expSum (x - k * ln2Fx) 80 0 fxOne 0) k

/-- ln v of a positive number. -/
def lnNum (m : Nat) (e : Int) : Val :=
  let l := Nat.log2 m
  let y : Int := (m * 2 ^ fxBits / 2 ^ l : Nat)
  ofFx (2 * atanhFx ((y - fxOne) * fxOne / (y + fxOne)) + ((l : Int) + e) * ln2Fx) 0

/-- Arithmetic without flags, for the insides of a function. -/
def quiet {α : Type} (x : Ar α) : α := (x { flags := 0, fresh := 0 }).1

/-- 1 / (1 + e^−v). -/
def sigmoidV (v : Val) : Val :=
  if v.isNan then .nan
  else if v.neg? then
    let u := expV v
    quiet (Ar.bind (addX (ofInt 1) u) fun d => divX u d)
  else quiet (Ar.bind (addX (ofInt 1) (expV v.negate)) fun d => divX (ofInt 1) d)

/-- tanh v. -/
def tanhV : Val → Val
  | .nan => .nan
  | .inf s => .num s 1 0
  | .num s m e =>
    if m = 0 then .num s 0 0 else
    let t := expV (.num true m (e + 1))
    let q := quiet (Ar.bind (subX (ofInt 1) t) fun n => Ar.bind (addX (ofInt 1) t) fun d => divX n d)
    if s then q.negate else q

/-- v / (1 + e^−v); at −∞ the limit −0 (DEDUCED, log 43). -/
def siluV (v : Val) : Val :=
  match v with
  | .inf true => .num true 0 0
  | v => quiet (mulX v (sigmoidV v))

/-- 0.5 v (1 + tanh t) = v / (1 + e^−2t), with t = 0.7978845608 (v + 0.044715 v³); at −∞ the limit −0
(DEDUCED, log 43). -/
def geluV (v : Val) : Val :=
  match v with
  | .nan => .nan
  | .inf true => .num true 0 0
  | .inf false => .inf false
  | v =>
    let t2 := quiet (Ar.bind (mulX v v) fun v2 => Ar.bind (mulX v2 v) fun v3 =>
      Ar.bind (divX (ofInt 44715) (ofInt 1000000)) fun a => Ar.bind (mulX a v3) fun b => Ar.bind (addX v b) fun c =>
        Ar.bind (divX (ofInt 15957691216) (ofInt 10000000000)) fun d => mulX d c)
    quiet (mulX v (sigmoidV t2))

/-! Delivery within a number of units in the last place -/

/-- The magnitude of a code, the format extended above its largest finite value. -/
def magVal (f : Fmt) (code : Nat) : Nat × Int :=
  let ex := code / 2 ^ f.mbits
  let fr := code % 2 ^ f.mbits
  let least : Int := 1 - (f.bias : Int) - f.mbits
  if ex = 0 then (fr, least) else (fr + 2 ^ f.mbits, (ex : Int) - 1 + least)

/-- |a − b| ≤ k × 2^u for two magnitudes. -/
def withinMag (a b : Nat × Int) (k : Nat) (u : Int) : Bool :=
  let lo := min (min a.2 b.2) u
  decide ((scaled false a.1 a.2 lo - scaled false b.1 b.2 lo).natAbs ≤ k * 2 ^ (u - lo).toNat)

/-- FP32 codes within `k` units in the last place of a magnitude. -/
def nearCodes (k m : Nat) (e : Int) : List Nat :=
  let f := fp32
  let least : Int := 1 - (f.bias : Int) - f.mbits
  let u := if m = 0 then least else max ((Nat.log2 m : Int) + e - f.mbits) least
  let sh := u - e
  let q := if sh ≤ 0 then m * 2 ^ (-sh).toNat else m / 2 ^ sh.toNat
  let code := (u - least).toNat * 2 ^ f.mbits + q
  ((List.range (2 * k + 1)).map (code - k + ·)).filter fun c => withinMag (magVal f c) (m, e) k u

/-- A function's value as delivered: some FP32 value within `k` units in the last place of the exact one (R207); an
overflow follows R90, and an exact zero is delivered as it is. -/
def nearF (ovf : Bool) (k : Nat) (v : Val) : Ar Val :=
  match v with
  | .nan => Ar.pure .nan
  | .inf s => Ar.pure (.inf s)
  | .num s m e =>
    if m = 0 then Ar.pure (.num s 0 0)
    else if fp32.top < roundMag fp32 none m e then f32 ovf v else
    let cs := nearCodes k m e
    Ar.bind Ar.draw fun r =>
      let c := cs.getD (r % max 1 cs.length) 0
      if fp32.top < c then f32 ovf (pow2 128 |> fun p => if s then p.negate else p)
      else Ar.pure (decodeFp fp32 (withSign fp32 s c))

/-- EXP and LOG within 1 unit in the last place; ln of a negative number is invalid, ln(±0) is −∞ (R206). -/
def expF (ovf : Bool) (v : Val) : Ar Val := nearF ovf 1 (expV v)
def lnF (ovf : Bool) (v : Val) : Ar Val :=
  match v with
  | .nan => Ar.pure .nan
  | .inf true => Ar.withFlag fInvalid .nan
  | .inf false => Ar.pure (.inf false)
  | .num s m e =>
    if m = 0 then Ar.pure (.inf true)
    else if s then Ar.withFlag fInvalid .nan
    else nearF ovf 1 (lnNum m e)

/-- RECIP and RSQRT within 1 unit in the last place (R206, R207). -/
def recipF (ovf : Bool) (v : Val) : Ar Val := Ar.bind (divX (ofInt 1) v) (nearF ovf 1)
def rsqrtF (ovf : Bool) (v : Val) : Ar Val :=
  if v.isZero then Ar.pure (.inf v.neg?)
  else Ar.bind (sqrtX v) fun r => Ar.bind (divX (ofInt 1) r) (nearF ovf 1)

/-- √ correctly rounded (R207). -/
def sqrtF (ovf : Bool) (v : Val) : Ar Val := Ar.bind (sqrtX v) (f32 ovf)

/-! Philox4x32-10 (R215; its constants are those of the published generator, PRESUMED, log 20) -/

/-- One round on four counter words under two key words. -/
def philoxRound (c : List Nat) (k0 k1 : Nat) : List Nat :=
  let a := 0xD2511F53 * c.getD 0 0
  let b := 0xCD9E8D57 * c.getD 2 0
  [(b / 2 ^ 32) ^^^ c.getD 1 0 ^^^ k0, b % 2 ^ 32, (a / 2 ^ 32) ^^^ c.getD 3 0 ^^^ k1, a % 2 ^ 32]

/-- `n` rounds, the key words stepping between them. -/
def philoxRounds : Nat → List Nat → Nat → Nat → List Nat
  | 0, c, _, _ => c
  | n + 1, c, k0, k1 =>
    philoxRounds n (philoxRound c k0 k1) ((k0 + 0x9E3779B9) % 2 ^ 32) ((k1 + 0xBB67AE85) % 2 ^ 32)

/-- The four output words for a key and a counter tuple. -/
def philox (key : Nat) (c : List Nat) : List Nat := philoxRounds 10 (c.map (· % 2 ^ 32)) (key % 2 ^ 32) (key / 2 ^ 32 % 2 ^ 32)

/-- The draw u of an output word (R215). -/
def drawU (word : Nat) : Val := .num false (2 * (word / 256 % 2 ^ 24) + 1) (-25)

end Sys2Proof.Machine
end

