-- ==== Sys2Proof/Machine/Sparse.lean ====
section
/-! DEFINITION. Sparse maps in one canonical form: keys strictly rising, and no entry equal to what an
unlisted key reads as. Memory (R73) is such a map from addresses to bytes, and every numbered unit of
the block is held in one. -/

namespace Sys2Proof.Machine

/-- A map from numbers to `α`; an unlisted key reads as `default`. -/
structure SMap (α : Type) where
  cells : List (Nat × α) := []
  deriving DecidableEq, Repr, Inhabited

/-- The value listed at a key. -/
def SMap.find {α : Type} : List (Nat × α) → Nat → Option α
  | [], _ => none
  | (a, v) :: r, k => if k = a then some v else SMap.find r k

/-- List a value at a key, in order. -/
def SMap.ins {α : Type} (k : Nat) (v : α) : List (Nat × α) → List (Nat × α)
  | [] => [(k, v)]
  | (a, w) :: r => if k < a then (k, v) :: (a, w) :: r
      else if k = a then (k, v) :: r else (a, w) :: SMap.ins k v r

/-- Unlist a key. -/
def SMap.del {α : Type} (k : Nat) : List (Nat × α) → List (Nat × α)
  | [] => []
  | (a, w) :: r => if k = a then SMap.del k r else (a, w) :: SMap.del k r

/-- Read a key. -/
def SMap.get {α : Type} [Inhabited α] (m : SMap α) (k : Nat) : α := (SMap.find m.cells k).getD default

/-- Write a key, keeping the canonical form. -/
def SMap.set {α : Type} [Inhabited α] [DecidableEq α] (m : SMap α) (k : Nat) (v : α) : SMap α :=
  if v = default then ⟨SMap.del k m.cells⟩ else ⟨SMap.ins k v m.cells⟩

/-- Change a key. -/
def SMap.mod {α : Type} [Inhabited α] [DecidableEq α] (m : SMap α) (k : Nat) (f : α → α) : SMap α :=
  m.set k (f (m.get k))

/-- Unlist every key from `lo` up to but not including `hi`. -/
def SMap.clear {α : Type} (m : SMap α) (lo hi : Nat) : SMap α :=
  ⟨m.cells.filter fun c => c.1 < lo || hi ≤ c.1⟩

/-- The listed keys. -/
def SMap.keys {α : Type} (m : SMap α) : List Nat := m.cells.map (·.1)

/-- Apply `f` to every listed value, keeping the canonical form. -/
def SMap.mapAll {α : Type} [Inhabited α] [DecidableEq α] (m : SMap α) (f : Nat → α → α) : SMap α :=
  m.cells.foldl (fun acc c => acc.set c.1 (f c.1 c.2)) m

/-- Replace the keys from `dst` on, `n` of them, by what the keys from `src` on hold. -/
def SMap.copyTo {α : Type} [Inhabited α] [DecidableEq α] (m : SMap α) (src n dst : Nat) : SMap α :=
  (m.cells.filter fun c => decide (src ≤ c.1) && decide (c.1 < src + n)).foldl
    (fun acc c => acc.set (c.1 - src + dst) c.2) (m.clear dst (dst + n))

/-- Keys strictly rising above a bound. -/
def SMap.rising {α : Type} : Option Nat → List (Nat × α) → Bool
  | _, [] => true
  | lo, (a, _) :: r => (match lo with | none => true | some b => decide (b < a)) && SMap.rising (some a) r

/-- The canonical form: keys strictly rising, no default listed. -/
def SMap.wf {α : Type} [Inhabited α] [DecidableEq α] (m : SMap α) : Bool :=
  SMap.rising none m.cells && m.cells.all fun c => decide (c.2 ≠ default)

end Sys2Proof.Machine
end

