-- ==== Sys2Proof/Machine/Regs.lean ====
section
/-! DEFINITION. The register map of the control space: every register the spec tables give, with its access
code (R10), its writable bits (R13), its reset value and the block whose idleness an RWL write asks for (R12). -/

namespace Sys2Proof.Machine

/-- Access codes (R10). -/
inductive Acc where
  | ro | rw | wo | w1c | rwl
  deriving DecidableEq, Repr

/-- The blocks with RWL registers (R12). -/
inductive RwlBlock where
  | none | spd | dck | str | vat | cal | chn | cch
  deriving DecidableEq, Repr

/-- A row of a register table: `count` registers from offset `base`, `stride` bytes apart. -/
structure RegRow where
  base : Nat
  stride : Nat
  count : Nat
  acc : Acc
  /-- Bits that a write reaches. -/
  mask : Nat
  reset : Nat
  blk : RwlBlock
  deriving DecidableEq, Repr

/-- PLN_ENABLED_COUNT (R68). -/
def Reg.plnEnabledCount : Nat := 0x2000
/-- PLN_DIE_QMAP (R68). -/
def Reg.plnDieQmap (d : Nat) : Nat := 0x2010 + 4 * d
/-- PLN_QUIRE_SPARE (R68). -/
def Reg.plnQuireSpare (q : Nat) : Nat := 0x2040 + 4 * q
/-- PLN_FABRIC_STATUS (R68). -/
def Reg.plnFabricStatus (d : Nat) : Nat := 0x2240 + 4 * d
/-- PLN_ARITH_QSUM (R102). -/
def Reg.plnArithQsum (i : Nat) : Nat := 0x2260 + 4 * i
/-- MMA_FLAGS (R102). -/
def Reg.mmaFlags (c : Nat) : Nat := 0x80000 + 16 * c
/-- VEC_FLAGS (R102). -/
def Reg.vecFlags (c : Nat) : Nat := 0x80004 + 16 * c
/-- ATT_FLAGS (R102). -/
def Reg.attFlags (c : Nat) : Nat := 0x80008 + 16 * c
/-- STA_FLAGS (R102). -/
def Reg.staFlags (c : Nat) : Nat := 0x8000C + 16 * c
/-- MMA_VECTORS (R134). -/
def Reg.mmaVectors (c : Nat) : Nat := 0x90000 + 16 * c
/-- MMA_SKIPPED (R134). -/
def Reg.mmaSkipped (c : Nat) : Nat := 0x90004 + 16 * c
/-- MMA_SWAP_STALL (R134). -/
def Reg.mmaSwapStall (c : Nat) : Nat := 0x90008 + 16 * c
/-- SPD_CTRL (R164). -/
def Reg.spdCtrl (c : Nat) : Nat := 0xA0000 + 32 * c
/-- SPD_STATUS (R164). -/
def Reg.spdStatus (c : Nat) : Nat := 0xA0004 + 32 * c
/-- SPD_PWR_CTL (R164). -/
def Reg.spdPwrCtl (c : Nat) : Nat := 0xA0008 + 32 * c
/-- SPD_PWR_STATE_LO (R164). -/
def Reg.spdPwrStateLo (c : Nat) : Nat := 0xA000C + 32 * c
/-- SPD_PWR_STATE_HI (R164). -/
def Reg.spdPwrStateHi (c : Nat) : Nat := 0xA0010 + 32 * c
/-- SPD_STALL_INFO (R164). -/
def Reg.spdStallInfo (c : Nat) : Nat := 0xA0014 + 32 * c
/-- SPD_CORRECTED (R164). -/
def Reg.spdCorrected (c : Nat) : Nat := 0xA0018 + 32 * c
/-- SPD_BANK_RETIRED (R164). -/
def Reg.spdBankRetired (c : Nat) : Nat := 0xA001C + 32 * c
/-- QSR_PWR_CTL (R164). -/
def Reg.qsrPwrCtl (q : Nat) : Nat := 0xC0000 + 32 * q
/-- QSR_PWR_STATE_LO (R164). -/
def Reg.qsrPwrStateLo (q : Nat) : Nat := 0xC0004 + 32 * q
/-- QSR_PWR_STATE_HI (R164). -/
def Reg.qsrPwrStateHi (q : Nat) : Nat := 0xC0008 + 32 * q
/-- QSR_STATUS (R164). -/
def Reg.qsrStatus (q : Nat) : Nat := 0xC000C + 32 * q
/-- DCK_CTRL (R201). -/
def Reg.dckCtrl (c : Nat) : Nat := 0xD0000 + 16 * c
/-- DCK_STATUS (R201). -/
def Reg.dckStatus (c : Nat) : Nat := 0xD0004 + 16 * c
/-- DCK_TILES (R201). -/
def Reg.dckTiles (c : Nat) : Nat := 0xD0008 + 16 * c
/-- DCK_STALE (R201). -/
def Reg.dckStale (c : Nat) : Nat := 0xD000C + 16 * c
/-- QSR_WC_VALUE (R201). -/
def Reg.qsrWcValue (q k : Nat) : Nat := 0xE0000 + 256 * q + 16 * k
/-- QSR_WC_DONE (R201). -/
def Reg.qsrWcDone (q k : Nat) : Nat := 0xE0004 + 256 * q + 16 * k
/-- QSR_WC_EPOCH (R201). -/
def Reg.qsrWcEpoch (q k : Nat) : Nat := 0xE0008 + 256 * q + 16 * k
/-- VEC_ELEMS (R230). -/
def Reg.vecElems (c : Nat) : Nat := 0xF0000 + 16 * c
/-- VEC_ZEROS (R230). -/
def Reg.vecZeros (c : Nat) : Nat := 0xF0004 + 16 * c
/-- VEC_DRAWS (R230). -/
def Reg.vecDraws (c : Nat) : Nat := 0xF0008 + 16 * c
/-- ATT_BLOCKS (R256). -/
def Reg.attBlocks (c : Nat) : Nat := 0x10000 + 16 * c
/-- ATT_SKIPPED (R256). -/
def Reg.attSkipped (c : Nat) : Nat := 0x10004 + 16 * c
/-- ATT_APPENDED (R256). -/
def Reg.attAppended (c : Nat) : Nat := 0x10008 + 16 * c
/-- ATT_COMB_STATUS (R256). -/
def Reg.attCombStatus (q : Nat) : Nat := 0x20000 + 16 * q
/-- ATT_COMB_MERGES (R256). -/
def Reg.attCombMerges (q : Nat) : Nat := 0x20004 + 16 * q
/-- STA_SLOTS (R284). -/
def Reg.staSlots (c : Nat) : Nat := 0x30000 + 16 * c
/-- STA_STEPS (R284). -/
def Reg.staSteps (c : Nat) : Nat := 0x30004 + 16 * c
/-- STA_SWAP_WAIT (R284). -/
def Reg.staSwapWait (c : Nat) : Nat := 0x30008 + 16 * c
/-- STR_TABLE_BASE_LO (R284). -/
def Reg.strTableBaseLo : Nat := 0x40000
/-- STR_TABLE_BASE_HI (R284). -/
def Reg.strTableBaseHi : Nat := 0x40004
/-- STR_TABLE_CTRL (R284). -/
def Reg.strTableCtrl : Nat := 0x40008
/-- STR_STATUS (R284). -/
def Reg.strStatus : Nat := 0x4000C
/-- STR_LOADS (R284). -/
def Reg.strLoads : Nat := 0x40010
/-- STR_WRITEBACKS (R284). -/
def Reg.strWritebacks : Nat := 0x40014
/-- STR_MIGRATIONS (R284). -/
def Reg.strMigrations : Nat := 0x40018
/-- VAT_CTRL (R316). -/
def Reg.vatCtrl : Nat := 0x50000
/-- VAT_STATUS (R316). -/
def Reg.vatStatus : Nat := 0x50004
/-- VAT_TICK (R316). -/
def Reg.vatTick : Nat := 0x50008
/-- VAT_PAGES_USED (R316). -/
def Reg.vatPagesUsed : Nat := 0x5000C
/-- VAT_SWAP_BASE_LO (R316). -/
def Reg.vatSwapBaseLo : Nat := 0x50010
/-- VAT_SWAP_BASE_HI (R316). -/
def Reg.vatSwapBaseHi : Nat := 0x50014
/-- VAT_SWAP_SLOTS (R316). -/
def Reg.vatSwapSlots : Nat := 0x50018
/-- VAT_SWAP_USED (R316). -/
def Reg.vatSwapUsed : Nat := 0x5001C
/-- VAT_FORKS (R316). -/
def Reg.vatForks : Nat := 0x50020
/-- VAT_DROPS (R316). -/
def Reg.vatDrops : Nat := 0x50024
/-- VAT_REBUILDS (R316). -/
def Reg.vatRebuilds : Nat := 0x50028
/-- VAT_EXPORTS (R316). -/
def Reg.vatExports : Nat := 0x5002C
/-- VAT_IMPORTS (R316). -/
def Reg.vatImports : Nat := 0x50030
/-- VAT_RETIRED_PAGES (R316). -/
def Reg.vatRetiredPages : Nat := 0x50034
/-- VAT_FRAME_BASE (R316). -/
def Reg.vatFrameBase (d : Nat) : Nat := 0x50100 + 16 * d
/-- VAT_FRAME_COUNT (R316). -/
def Reg.vatFrameCount (d : Nat) : Nat := 0x50104 + 16 * d
/-- VAT_FREE (R316). -/
def Reg.vatFree (d : Nat) : Nat := 0x50108 + 16 * d
/-- VAT_LOW (R316). -/
def Reg.vatLow (d : Nat) : Nat := 0x5010C + 16 * d
/-- TRM_STATUS (R335). -/
def Reg.trmStatus : Nat := 0x60000
/-- TRM_BOUNDARIES (R335). -/
def Reg.trmBoundaries : Nat := 0x60004
/-- TRM_PRUNED (R335). -/
def Reg.trmPruned : Nat := 0x60008
/-- TRM_FORKS (R335). -/
def Reg.trmForks : Nat := 0x6000C
/-- TRM_FORK_FAILED (R335). -/
def Reg.trmForkFailed : Nat := 0x60010
/-- TRM_MISSING (R335). -/
def Reg.trmMissing : Nat := 0x60014
/-- TRM_DIE_LIVE (R335). -/
def Reg.trmDieLive (d : Nat) : Nat := 0x60100 + 16 * d
/-- TRM_DIE_STATUS (R335). -/
def Reg.trmDieStatus (d : Nat) : Nat := 0x60104 + 16 * d
/-- TRM_DIE_RANKED (R335). -/
def Reg.trmDieRanked (d : Nat) : Nat := 0x60108 + 16 * d
/-- CAL_CTRL (R362). -/
def Reg.calCtrl : Nat := 0x70000
/-- CAL_SLOT_STATE (R362). -/
def Reg.calSlotState : Nat := 0x70004
/-- CAL_SLOT_VERSION (R362). -/
def Reg.calSlotVersion (s : Nat) : Nat := 0x70010 + 4 * s
/-- CAL_SLOT_QUEUED (R362). -/
def Reg.calSlotQueued (s : Nat) : Nat := 0x70020 + 4 * s
/-- CAL_BLOCKS_CODED (R362). -/
def Reg.calBlocksCoded : Nat := 0x70030
/-- CAL_BLOCKS_RAW (R362). -/
def Reg.calBlocksRaw : Nat := 0x70034
/-- CAL_UNITS_SAVED (R362). -/
def Reg.calUnitsSaved : Nat := 0x70038
/-- CAL_SEALS (R362). -/
def Reg.calSeals : Nat := 0x7003C
/-- CAL_WINDOW_BASE (R362). -/
def Reg.calWindowBase (w : Nat) : Nat := 0x70100 + 8 * w
/-- CAL_WINDOW_COUNT (R362). -/
def Reg.calWindowCount (w : Nat) : Nat := 0x70104 + 8 * w
/-- CAL_STATUS (R362). -/
def Reg.calStatus (s : Nat) : Nat := 0x70200 + 4 * s
/-- HBM_STATUS (R387). -/
def Reg.hbmStatus (s : Nat) : Nat := 0xC4000 + 64 * s
/-- HBM_PC_RETIRED (R387). -/
def Reg.hbmPcRetired (s : Nat) : Nat := 0xC4004 + 64 * s
/-- HBM_PC_EVAC (R387). -/
def Reg.hbmPcEvac (s : Nat) : Nat := 0xC4008 + 64 * s
/-- HBM_TEMP (R387). -/
def Reg.hbmTemp (s : Nat) : Nat := 0xC400C + 64 * s
/-- HBM_REMAP_USED (R387). -/
def Reg.hbmRemapUsed (s : Nat) : Nat := 0xC4010 + 64 * s
/-- HBM_SOFT_REPAIRS (R387). -/
def Reg.hbmSoftRepairs (s : Nat) : Nat := 0xC4014 + 64 * s
/-- HBM_RETIRED_FRAMES (R387). -/
def Reg.hbmRetiredFrames (s : Nat) : Nat := 0xC4018 + 64 * s
/-- HBM_CORRECTED (R387). -/
def Reg.hbmCorrected (s : Nat) : Nat := 0xC401C + 64 * s
/-- HBM_UNCORR (R387). -/
def Reg.hbmUncorr (s : Nat) : Nat := 0xC4020 + 64 * s
/-- HBM_PARITY (R387). -/
def Reg.hbmParity (s : Nat) : Nat := 0xC4024 + 64 * s
/-- HBM_SCRUB_POS (R387). -/
def Reg.hbmScrubPos (s : Nat) : Nat := 0xC4028 + 64 * s
/-- THM_DRAM_HI (R387). -/
def Reg.thmDramHi : Nat := 0xC5000
/-- THM_DRAM_LO (R387). -/
def Reg.thmDramLo : Nat := 0xC5004
/-- HBM_SCRUB_CTRL (R387). -/
def Reg.hbmScrubCtrl : Nat := 0xC5008
/-- CHN_CTRL (R424). -/
def Reg.chnCtrl : Nat := 0xCA000
/-- CHN_DEVICE (R424). -/
def Reg.chnDevice : Nat := 0xCA004
/-- CHN_ROLE (R424). -/
def Reg.chnRole : Nat := 0xCA008
/-- CHN_STATUS (R424). -/
def Reg.chnStatus : Nat := 0xCA00C
/-- CHN_EXPERT_BASE_LO (R424). -/
def Reg.chnExpertBaseLo : Nat := 0xCA010
/-- CHN_EXPERT_BASE_HI (R424). -/
def Reg.chnExpertBaseHi : Nat := 0xCA014
/-- CHN_INBOX_BASE_LO (R424). -/
def Reg.chnInboxBaseLo : Nat := 0xCA018
/-- CHN_INBOX_BASE_HI (R424). -/
def Reg.chnInboxBaseHi : Nat := 0xCA01C
/-- CHN_REMOTE_FAIL (R424). -/
def Reg.chnRemoteFail : Nat := 0xCA020
/-- CHN_EXP_HELD (R424). -/
def Reg.chnExpHeld : Nat := 0xCA024
/-- CHN_LINK_STATE (R424). -/
def Reg.chnLinkState (n : Nat) : Nat := 0xCA100 + 32 * n
/-- CHN_LINK_CTL (R424). -/
def Reg.chnLinkCtl (n : Nat) : Nat := 0xCA104 + 32 * n
/-- CHN_LINK_FLAGS (R424). -/
def Reg.chnLinkFlags (n : Nat) : Nat := 0xCA108 + 32 * n
/-- CHN_CORR (R424). -/
def Reg.chnCorr (n : Nat) : Nat := 0xCA10C + 32 * n
/-- CHN_UNCORR (R424). -/
def Reg.chnUncorr (n : Nat) : Nat := 0xCA110 + 32 * n
/-- CHN_RETRY (R424). -/
def Reg.chnRetry (n : Nat) : Nat := 0xCA114 + 32 * n
/-- CHN_RETRAIN (R424). -/
def Reg.chnRetrain (n : Nat) : Nat := 0xCA118 + 32 * n
/-- CHN_LINK_PEER (R424). -/
def Reg.chnLinkPeer (n : Nat) : Nat := 0xCA11C + 32 * n
/-- CHN_WIN_BASE (R424). -/
def Reg.chnWinBase (w : Nat) : Nat := 0xCB000 + 16 * w
/-- CHN_WIN_FRAMES (R424). -/
def Reg.chnWinFrames (w : Nat) : Nat := 0xCB004 + 16 * w
/-- CHN_WIN_CTL (R424). -/
def Reg.chnWinCtl (w : Nat) : Nat := 0xCB008 + 16 * w
/-- CCH_CTRL (R445). -/
def Reg.cchCtrl : Nat := 0xC6000
/-- CCH_STATUS (R445). -/
def Reg.cchStatus : Nat := 0xC6004
/-- CCH_LINK_STATE (R445). -/
def Reg.cchLinkState : Nat := 0xC6008
/-- CCH_COMP_FRAMES (R445). -/
def Reg.cchCompFrames : Nat := 0xC600C
/-- CCH_CORR (R445). -/
def Reg.cchCorr : Nat := 0xC6010
/-- CCH_UNCORR (R445). -/
def Reg.cchUncorr : Nat := 0xC6014
/-- CCH_RETRY (R445). -/
def Reg.cchRetry : Nat := 0xC6018
/-- CCH_CACHE_MISS (R445). -/
def Reg.cchCacheMiss : Nat := 0xC601C
/-- CCH_SNOOPS_OUT (R445). -/
def Reg.cchSnoopsOut : Nat := 0xC6020
/-- PLN_ID (R471). -/
def Reg.plnId : Nat := 0x0
/-- PLN_STRAPS (R471). -/
def Reg.plnStraps : Nat := 0x4
/-- PLN_READY (R471). -/
def Reg.plnReady : Nat := 0x8
/-- PLN_ARM_STATUS (R471). -/
def Reg.plnArmStatus : Nat := 0xC
/-- PLN_CMD_DONE (R471). -/
def Reg.plnCmdDone : Nat := 0x10
/-- PLN_NOTICES (R471). -/
def Reg.plnNotices : Nat := 0x14
/-- PLN_ERR_HEAD (R471). -/
def Reg.plnErrHead : Nat := 0x18
/-- PLN_TASK_LAUNCH (R502). -/
def Reg.plnTaskLaunch : Nat := 0x3000
/-- PLN_SCHED_STATUS (R502). -/
def Reg.plnSchedStatus : Nat := 0x3008
/-- PLN_CTX_ACTIVE (R502). -/
def Reg.plnCtxActive : Nat := 0x300C
/-- PLN_PREEMPTS (R502). -/
def Reg.plnPreempts : Nat := 0x3010
/-- PLN_TASKS_STARTED (R502). -/
def Reg.plnTasksStarted : Nat := 0x3014
/-- PLN_PART_STATE (R502). -/
def Reg.plnPartState (p : Nat) : Nat := 0x4000 + 16 * p
/-- PLN_PART_CYCLE_LO (R502). -/
def Reg.plnPartCycleLo (p : Nat) : Nat := 0x4004 + 16 * p
/-- PLN_PART_CYCLE_HI (R502). -/
def Reg.plnPartCycleHi (p : Nat) : Nat := 0x4008 + 16 * p
/-- PLN_PART_SLOT (R502). -/
def Reg.plnPartSlot (p : Nat) : Nat := 0x400C + 16 * p
/-- WMK_STATUS (R524). -/
def Reg.wmkStatus : Nat := 0xC7000
/-- WMK_BOOT (R524). -/
def Reg.wmkBoot : Nat := 0xC7004
/-- WMK_FUSES (R524). -/
def Reg.wmkFuses : Nat := 0xC7008
/-- WMK_ENTROPY (R524). -/
def Reg.wmkEntropy : Nat := 0xC700C
/-- WMK_KEYS_LIVE (R524). -/
def Reg.wmkKeysLive : Nat := 0xC7010
/-- WMK_REPORTS (R524). -/
def Reg.wmkReports : Nat := 0xC7014
/-- WMK_LINK_KEYS (R524). -/
def Reg.wmkLinkKeys : Nat := 0xC7018
/-- WMK_MR (R524). -/
def Reg.wmkMr (m w : Nat) : Nat := 0xC7100 + 32 * m + 4 * w
/-- PLN_BOOT_PHASE (R546). -/
def Reg.plnBootPhase : Nat := 0x5000
/-- PLN_BOOT_CTRL (R546). -/
def Reg.plnBootCtrl : Nat := 0x5004
/-- PLN_BOOT_STATUS (R546). -/
def Reg.plnBootStatus : Nat := 0x5008
/-- PLN_BOOT_TIME (R546). -/
def Reg.plnBootTime : Nat := 0x500C
/-- PLN_TOPO_LINKS (R546). -/
def Reg.plnTopoLinks : Nat := 0x5010
/-- PLN_TOPO_CHECKS (R546). -/
def Reg.plnTopoChecks : Nat := 0x5014
/-- PLN_PROOF (R546). -/
def Reg.plnProof : Nat := 0x5018
/-- PLN_MEMTEST_ROWS (R546). -/
def Reg.plnMemtestRows (s : Nat) : Nat := 0x5100 + 4 * s
/-- THM_STATUS (R573). -/
def Reg.thmStatus : Nat := 0xC8000
/-- THM_JUNC_HI (R573). -/
def Reg.thmJuncHi : Nat := 0xC8004
/-- THM_JUNC_LO (R573). -/
def Reg.thmJuncLo : Nat := 0xC8008
/-- THM_JUNC_MAX (R573). -/
def Reg.thmJuncMax : Nat := 0xC800C
/-- THM_COOLANT (R573). -/
def Reg.thmCoolant : Nat := 0xC8010
/-- THM_PWR_LIMIT (R573). -/
def Reg.thmPwrLimit : Nat := 0xC8014
/-- THM_PWR_INPUT (R573). -/
def Reg.thmPwrInput : Nat := 0xC8018
/-- PLN_ALERT_CAUSE (R573). -/
def Reg.plnAlertCause : Nat := 0xC801C
/-- CLK_STATUS (R573). -/
def Reg.clkStatus : Nat := 0xC8020
/-- THM_QUIRE (R573). -/
def Reg.thmQuire (q : Nat) : Nat := 0xC8100 + 4 * q
/-- THM_CEIL (R573). -/
def Reg.thmCeil (q : Nat) : Nat := 0xC8300 + 4 * q
/-- PLN_ERR_SUMMARY (R590). -/
def Reg.plnErrSummary : Nat := 0x6000
/-- PLN_ERR_STATUS (R590). -/
def Reg.plnErrStatus : Nat := 0x6004
/-- PLN_ERR_SEQ (R590). -/
def Reg.plnErrSeq : Nat := 0x6008
/-- PLN_INTERRUPTS (R590). -/
def Reg.plnInterrupts : Nat := 0x600C
/-- PLN_RETIREMENTS (R590). -/
def Reg.plnRetirements : Nat := 0x6010
/-- PLN_TRANSIENTS (R590). -/
def Reg.plnTransients : Nat := 0x6014
/-- DBL_NOTIFY_LO (R437). -/
def Reg.dblNotifyLo (m : Nat) : Nat := 0x1100010 + 64 * m
/-- DBL_NOTIFY_HI (R437). -/
def Reg.dblNotifyHi (m : Nat) : Nat := 0x1100014 + 64 * m
/-- DBL_NOTIFY_DATA (R437). -/
def Reg.dblNotifyData (m : Nat) : Nat := 0x1100018 + 64 * m
/-- DBL_NOTIFY_CTL (R437). -/
def Reg.dblNotifyCtl (m : Nat) : Nat := 0x110001C + 64 * m

/-- The registers of chapter 02. -/
def regRows02 : List RegRow := [
  ⟨0x2000, 0, 1, .ro, 0x0, 0x0, .none⟩,
  ⟨0x2010, 4, 8, .ro, 0x0, 0x0, .none⟩,
  ⟨0x2040, 4, 128, .ro, 0x0, 0x0, .none⟩,
  ⟨0x2240, 4, 8, .w1c, 0x3FF, 0x0, .none⟩]

/-- The registers of chapter 03. -/
def regRows03 : List RegRow := [
  ⟨0x2260, 4, 4, .ro, 0x0, 0x0, .none⟩,
  ⟨0x80000, 16, 4096, .w1c, 0x3007F, 0x0, .none⟩,
  ⟨0x80004, 16, 4096, .w1c, 0x3007F, 0x0, .none⟩,
  ⟨0x80008, 16, 4096, .w1c, 0x1007F, 0x0, .none⟩,
  ⟨0x8000C, 16, 4096, .w1c, 0x1007F, 0x0, .none⟩]

/-- The registers of chapter 04. -/
def regRows04 : List RegRow := [
  ⟨0x90000, 16, 4096, .ro, 0x0, 0x0, .none⟩,
  ⟨0x90004, 16, 4096, .ro, 0x0, 0x0, .none⟩,
  ⟨0x90008, 16, 4096, .ro, 0x0, 0x0, .none⟩]

/-- The registers of chapter 05. -/
def regRows05 : List RegRow := [
  ⟨0xA0000, 32, 4096, .rwl, 0x1F, 0x0, .spd⟩,
  ⟨0xA0004, 32, 4096, .w1c, 0xFF, 0x0, .none⟩,
  ⟨0xA0008, 32, 4096, .rw, 0xFFFFFF, 0xFFFFFF, .none⟩,
  ⟨0xA000C, 32, 4096, .ro, 0x0, 0xAAAAAAAA, .none⟩,
  ⟨0xA0010, 32, 4096, .ro, 0x0, 0xAAAA, .none⟩,
  ⟨0xA0014, 32, 4096, .ro, 0x0, 0x0, .none⟩,
  ⟨0xA0018, 32, 4096, .ro, 0x0, 0x0, .none⟩,
  ⟨0xA001C, 32, 4096, .ro, 0x0, 0x0, .none⟩,
  ⟨0xC0000, 32, 128, .rw, 0xFFFFFFFF, 0xFFFFFFFF, .none⟩,
  ⟨0xC0004, 32, 128, .ro, 0x0, 0xAAAAAAAA, .none⟩,
  ⟨0xC0008, 32, 128, .ro, 0x0, 0xAAAAAAAA, .none⟩,
  ⟨0xC000C, 32, 128, .w1c, 0xFF, 0x0, .none⟩]

/-- The registers of chapter 06. -/
def regRows06 : List RegRow := [
  ⟨0xD0000, 16, 4096, .rwl, 0x7, 0x5, .dck⟩,
  ⟨0xD0004, 16, 4096, .w1c, 0x1F, 0x0, .none⟩,
  ⟨0xD0008, 16, 4096, .ro, 0x0, 0x0, .none⟩,
  ⟨0xD000C, 16, 4096, .ro, 0x0, 0x0, .none⟩,
  ⟨0xE0000, 16, 2048, .ro, 0x0, 0x0, .none⟩,
  ⟨0xE0004, 16, 2048, .ro, 0x0, 0x0, .none⟩,
  ⟨0xE0008, 16, 2048, .ro, 0x0, 0x0, .none⟩]

/-- The registers of chapter 07. -/
def regRows07 : List RegRow := [
  ⟨0xF0000, 16, 4096, .ro, 0x0, 0x0, .none⟩,
  ⟨0xF0004, 16, 4096, .ro, 0x0, 0x0, .none⟩,
  ⟨0xF0008, 16, 4096, .ro, 0x0, 0x0, .none⟩]

/-- The registers of chapter 08. -/
def regRows08 : List RegRow := [
  ⟨0x10000, 16, 4096, .ro, 0x0, 0x0, .none⟩,
  ⟨0x10004, 16, 4096, .ro, 0x0, 0x0, .none⟩,
  ⟨0x10008, 16, 4096, .ro, 0x0, 0x0, .none⟩,
  ⟨0x20000, 16, 128, .w1c, 0x7, 0x0, .none⟩,
  ⟨0x20004, 16, 128, .ro, 0x0, 0x0, .none⟩]

/-- The registers of chapter 09. -/
def regRows09 : List RegRow := [
  ⟨0x30000, 16, 4096, .ro, 0x0, 0x0, .none⟩,
  ⟨0x30004, 16, 4096, .ro, 0x0, 0x0, .none⟩,
  ⟨0x30008, 16, 4096, .ro, 0x0, 0x0, .none⟩,
  ⟨0x40000, 0, 1, .rwl, 0xFFFFFFFF, 0x0, .str⟩,
  ⟨0x40004, 0, 1, .rwl, 0xFFFF, 0x0, .str⟩,
  ⟨0x40008, 0, 1, .rwl, 0x3F, 0x0, .str⟩,
  ⟨0x4000C, 0, 1, .w1c, 0x7, 0x0, .none⟩,
  ⟨0x40010, 0, 1, .ro, 0x0, 0x0, .none⟩,
  ⟨0x40014, 0, 1, .ro, 0x0, 0x0, .none⟩,
  ⟨0x40018, 0, 1, .ro, 0x0, 0x0, .none⟩]

/-- The registers of chapter 10. -/
def regRows10 : List RegRow := [
  ⟨0x50000, 0, 1, .rwl, 0xFFFF3, 0x100, .vat⟩,
  ⟨0x50004, 0, 1, .w1c, 0x1FF, 0x0, .none⟩,
  ⟨0x50008, 0, 1, .ro, 0x0, 0x0, .none⟩,
  ⟨0x5000C, 0, 1, .ro, 0x0, 0x0, .none⟩,
  ⟨0x50010, 0, 1, .rwl, 0xFFFFFFFF, 0x0, .vat⟩,
  ⟨0x50014, 0, 1, .rwl, 0xFFFF, 0x0, .vat⟩,
  ⟨0x50018, 0, 1, .rwl, 0xFFFFF, 0x0, .vat⟩,
  ⟨0x5001C, 0, 1, .ro, 0x0, 0x0, .none⟩,
  ⟨0x50020, 0, 1, .ro, 0x0, 0x0, .none⟩,
  ⟨0x50024, 0, 1, .ro, 0x0, 0x0, .none⟩,
  ⟨0x50028, 0, 1, .ro, 0x0, 0x0, .none⟩,
  ⟨0x5002C, 0, 1, .ro, 0x0, 0x0, .none⟩,
  ⟨0x50030, 0, 1, .ro, 0x0, 0x0, .none⟩,
  ⟨0x50034, 0, 1, .ro, 0x0, 0x0, .none⟩,
  ⟨0x50100, 16, 8, .rwl, 0xFFFFF, 0x0, .vat⟩,
  ⟨0x50104, 16, 8, .rwl, 0x1FFFF, 0x0, .vat⟩,
  ⟨0x50108, 16, 8, .ro, 0x0, 0x0, .none⟩,
  ⟨0x5010C, 16, 8, .rw, 0x1FFFF, 0x200, .none⟩]

/-- The registers of chapter 11. -/
def regRows11 : List RegRow := [
  ⟨0x60000, 0, 1, .w1c, 0x3F, 0x0, .none⟩,
  ⟨0x60004, 0, 1, .ro, 0x0, 0x0, .none⟩,
  ⟨0x60008, 0, 1, .ro, 0x0, 0x0, .none⟩,
  ⟨0x6000C, 0, 1, .ro, 0x0, 0x0, .none⟩,
  ⟨0x60010, 0, 1, .ro, 0x0, 0x0, .none⟩,
  ⟨0x60014, 0, 1, .ro, 0x0, 0x0, .none⟩,
  ⟨0x60100, 16, 8, .ro, 0x0, 0x0, .none⟩,
  ⟨0x60104, 16, 8, .w1c, 0x3, 0x0, .none⟩,
  ⟨0x60108, 16, 8, .ro, 0x0, 0x0, .none⟩]

/-- The registers of chapter 12. -/
def regRows12 : List RegRow := [
  ⟨0x70000, 0, 1, .rwl, 0x7, 0x7, .cal⟩,
  ⟨0x70004, 0, 1, .ro, 0x0, 0x0, .none⟩,
  ⟨0x70010, 4, 4, .ro, 0x0, 0x0, .none⟩,
  ⟨0x70020, 4, 4, .ro, 0x0, 0x0, .none⟩,
  ⟨0x70030, 0, 1, .ro, 0x0, 0x0, .none⟩,
  ⟨0x70034, 0, 1, .ro, 0x0, 0x0, .none⟩,
  ⟨0x70038, 0, 1, .ro, 0x0, 0x0, .none⟩,
  ⟨0x7003C, 0, 1, .ro, 0x0, 0x0, .none⟩,
  ⟨0x70100, 8, 16, .rwl, 0xFFFFF, 0x0, .cal⟩,
  ⟨0x70104, 8, 16, .rwl, 0xFFFFF, 0x0, .cal⟩,
  ⟨0x70200, 4, 24, .w1c, 0x1FF, 0x0, .none⟩]

/-- The registers of chapter 13. -/
def regRows13 : List RegRow := [
  ⟨0xC4000, 64, 24, .w1c, 0x1FFF, 0x0, .none⟩,
  ⟨0xC4004, 64, 24, .ro, 0x0, 0x0, .none⟩,
  ⟨0xC4008, 64, 24, .ro, 0x0, 0x0, .none⟩,
  ⟨0xC400C, 64, 24, .ro, 0x0, 0x0, .none⟩,
  ⟨0xC4010, 64, 24, .ro, 0x0, 0x0, .none⟩,
  ⟨0xC4014, 64, 24, .ro, 0x0, 0x0, .none⟩,
  ⟨0xC4018, 64, 24, .ro, 0x0, 0x0, .none⟩,
  ⟨0xC401C, 64, 24, .ro, 0x0, 0x0, .none⟩,
  ⟨0xC4020, 64, 24, .ro, 0x0, 0x0, .none⟩,
  ⟨0xC4024, 64, 24, .ro, 0x0, 0x0, .none⟩,
  ⟨0xC4028, 64, 24, .ro, 0x0, 0x0, .none⟩,
  ⟨0xC5000, 0, 1, .rw, 0xFF, 0x58, .none⟩,
  ⟨0xC5004, 0, 1, .rw, 0xFF, 0x54, .none⟩,
  ⟨0xC5008, 0, 1, .rw, 0xFF, 0x18, .none⟩]

/-- The registers of chapter 14. -/
def regRows14 : List RegRow := [
  ⟨0xCA000, 0, 1, .rwl, 0x7FF, 0x400, .chn⟩,
  ⟨0xCA004, 0, 1, .ro, 0x0, 0x0, .none⟩,
  ⟨0xCA008, 0, 1, .ro, 0x0, 0x0, .none⟩,
  ⟨0xCA00C, 0, 1, .w1c, 0xFF, 0x0, .none⟩,
  ⟨0xCA010, 0, 1, .rwl, 0xFFFFFFFF, 0x0, .chn⟩,
  ⟨0xCA014, 0, 1, .rwl, 0xFFFF, 0x0, .chn⟩,
  ⟨0xCA018, 0, 1, .rwl, 0xFFFFFFFF, 0x0, .chn⟩,
  ⟨0xCA01C, 0, 1, .rwl, 0xFFFF, 0x0, .chn⟩,
  ⟨0xCA020, 0, 1, .ro, 0x0, 0x0, .none⟩,
  ⟨0xCA024, 0, 1, .ro, 0x0, 0x0, .none⟩,
  ⟨0xCA100, 32, 32, .ro, 0x0, 0x0, .none⟩,
  ⟨0xCA104, 32, 32, .rw, 0x3, 0x1, .none⟩,
  ⟨0xCA108, 32, 32, .w1c, 0x7FF, 0x0, .none⟩,
  ⟨0xCA10C, 32, 32, .ro, 0x0, 0x0, .none⟩,
  ⟨0xCA110, 32, 32, .ro, 0x0, 0x0, .none⟩,
  ⟨0xCA114, 32, 32, .ro, 0x0, 0x0, .none⟩,
  ⟨0xCA118, 32, 32, .ro, 0x0, 0x0, .none⟩,
  ⟨0xCA11C, 32, 32, .ro, 0x0, 0x0, .none⟩,
  ⟨0xCB000, 16, 64, .rw, 0xFFFFF, 0x0, .none⟩,
  ⟨0xCB004, 16, 64, .rw, 0xFFFFF, 0x0, .none⟩,
  ⟨0xCB008, 16, 64, .rw, 0x3FFFF, 0x0, .none⟩]

/-- The registers of chapter 15. -/
def regRows15 : List RegRow := [
  ⟨0xC6000, 0, 1, .rwl, 0x1, 0x1, .cch⟩,
  ⟨0xC6004, 0, 1, .w1c, 0x7FF, 0x0, .none⟩,
  ⟨0xC6008, 0, 1, .ro, 0x0, 0x0, .none⟩,
  ⟨0xC600C, 0, 1, .ro, 0x0, 0x0, .none⟩,
  ⟨0xC6010, 0, 1, .ro, 0x0, 0x0, .none⟩,
  ⟨0xC6014, 0, 1, .ro, 0x0, 0x0, .none⟩,
  ⟨0xC6018, 0, 1, .ro, 0x0, 0x0, .none⟩,
  ⟨0xC601C, 0, 1, .ro, 0x0, 0x0, .none⟩,
  ⟨0xC6020, 0, 1, .ro, 0x0, 0x0, .none⟩,
  ⟨0x1100010, 64, 256, .rw, 0xFFFFFFFF, 0x0, .none⟩,
  ⟨0x1100014, 64, 256, .rw, 0x7FFF, 0x0, .none⟩,
  ⟨0x1100018, 64, 256, .rw, 0xFFFFFFFF, 0x0, .none⟩,
  ⟨0x110001C, 64, 256, .rw, 0x3, 0x0, .none⟩]

/-- The registers of chapter 16. -/
def regRows16 : List RegRow := [
  ⟨0x0, 0, 1, .ro, 0x0, 0x40101A1, .none⟩,
  ⟨0x4, 0, 1, .ro, 0x0, 0x0, .none⟩,
  ⟨0x8, 0, 1, .ro, 0x0, 0x0, .none⟩,
  ⟨0xC, 0, 1, .w1c, 0x1F, 0x0, .none⟩,
  ⟨0x10, 0, 1, .ro, 0x0, 0x0, .none⟩,
  ⟨0x14, 0, 1, .ro, 0x0, 0x0, .none⟩,
  ⟨0x18, 0, 1, .ro, 0x0, 0x0, .none⟩]

/-- The registers of chapter 17. -/
def regRows17 : List RegRow := [
  ⟨0x3000, 0, 1, .wo, 0xFFFFFFFF, 0x0, .none⟩,
  ⟨0x3008, 0, 1, .w1c, 0x7F, 0x0, .none⟩,
  ⟨0x300C, 0, 1, .ro, 0x0, 0x0, .none⟩,
  ⟨0x3010, 0, 1, .ro, 0x0, 0x0, .none⟩,
  ⟨0x3014, 0, 1, .ro, 0x0, 0x0, .none⟩,
  ⟨0x4000, 16, 128, .ro, 0x0, 0x0, .none⟩,
  ⟨0x4004, 16, 128, .ro, 0x0, 0x0, .none⟩,
  ⟨0x4008, 16, 128, .ro, 0x0, 0x0, .none⟩,
  ⟨0x400C, 16, 128, .ro, 0x0, 0x0, .none⟩]

/-- The registers of chapter 18. -/
def regRows18 : List RegRow := [
  ⟨0xC7000, 0, 1, .w1c, 0xFF, 0x0, .none⟩,
  ⟨0xC7004, 0, 1, .ro, 0x0, 0x0, .none⟩,
  ⟨0xC7008, 0, 1, .ro, 0x0, 0x0, .none⟩,
  ⟨0xC700C, 0, 1, .ro, 0x0, 0x0, .none⟩,
  ⟨0xC7010, 0, 1, .ro, 0x0, 0x0, .none⟩,
  ⟨0xC7014, 0, 1, .ro, 0x0, 0x0, .none⟩,
  ⟨0xC7018, 0, 1, .ro, 0x0, 0x0, .none⟩,
  ⟨0xC7100, 4, 128, .ro, 0x0, 0x0, .none⟩]

/-- The registers of chapter 19. -/
def regRows19 : List RegRow := [
  ⟨0x5000, 0, 1, .ro, 0x0, 0x0, .none⟩,
  ⟨0x5004, 0, 1, .wo, 0x80FFFFFF, 0x0, .none⟩,
  ⟨0x5008, 0, 1, .w1c, 0x3F, 0x0, .none⟩,
  ⟨0x500C, 0, 1, .ro, 0x0, 0x0, .none⟩,
  ⟨0x5010, 0, 1, .ro, 0x0, 0x0, .none⟩,
  ⟨0x5014, 0, 1, .ro, 0x0, 0x0, .none⟩,
  ⟨0x5018, 0, 1, .ro, 0x0, 0x0, .none⟩,
  ⟨0x5100, 4, 24, .ro, 0x0, 0x0, .none⟩]

/-- The registers of chapter 20. -/
def regRows20 : List RegRow := [
  ⟨0xC8000, 0, 1, .w1c, 0x1F, 0x0, .none⟩,
  ⟨0xC8004, 0, 1, .rw, 0xFF, 0x64, .none⟩,
  ⟨0xC8008, 0, 1, .rw, 0xFF, 0x5F, .none⟩,
  ⟨0xC800C, 0, 1, .ro, 0x0, 0x0, .none⟩,
  ⟨0xC8010, 0, 1, .ro, 0x0, 0x0, .none⟩,
  ⟨0xC8014, 0, 1, .rw, 0xFFFF, 0xE10, .none⟩,
  ⟨0xC8018, 0, 1, .ro, 0x0, 0x0, .none⟩,
  ⟨0xC801C, 0, 1, .ro, 0x0, 0x0, .none⟩,
  ⟨0xC8020, 0, 1, .w1c, 0x3, 0x0, .none⟩,
  ⟨0xC8100, 4, 128, .ro, 0x0, 0x0, .none⟩,
  ⟨0xC8300, 4, 128, .rw, 0x3F, 0x30, .none⟩]

/-- The registers of chapter 21. -/
def regRows21 : List RegRow := [
  ⟨0x6000, 0, 1, .ro, 0x0, 0x0, .none⟩,
  ⟨0x6004, 0, 1, .w1c, 0xF, 0x0, .none⟩,
  ⟨0x6008, 0, 1, .ro, 0x0, 0x0, .none⟩,
  ⟨0x600C, 0, 1, .ro, 0x0, 0x0, .none⟩,
  ⟨0x6010, 0, 1, .ro, 0x0, 0x0, .none⟩,
  ⟨0x6014, 0, 1, .ro, 0x0, 0x0, .none⟩]

/-- Every register row. -/
def regTable : List RegRow :=
  regRows02 ++ regRows03 ++ regRows04 ++ regRows05 ++ regRows06 ++ regRows07 ++ regRows08 ++ regRows09 ++ regRows10 ++ regRows11 ++ regRows12 ++ regRows13 ++ regRows14 ++ regRows15 ++ regRows16 ++ regRows17 ++ regRows18 ++ regRows19 ++ regRows20 ++ regRows21

/-- The row covers offset `off`. -/
def RegRow.covers (r : RegRow) (off : Nat) : Bool :=
  if r.stride = 0 then off == r.base
  else decide (r.base ≤ off) && decide ((off - r.base) / r.stride < r.count) && (off - r.base) % r.stride == 0

/-- The register row at an offset of the control space. -/
def regRow (off : Nat) : Option RegRow := regTable.find? (·.covers off)

/-- The reset value of the register at an offset. -/
def regReset (off : Nat) : Word32 := match regRow off with
  | some r => BitVec.ofNat 32 r.reset
  | none => 0

end Sys2Proof.Machine
end

