-- ==== Sys2Proof/Machine/TypesCore.lean ====
section
/-! DEFINITION. The state of a core and its engines, and of a quire (chapters 04 to 09). -/

namespace Sys2Proof.Machine

/-- Power states of a bank (R158). -/
inductive BankSt where
  | on | draining | off | waking
  deriving DecidableEq, Repr, Inhabited

/-- A scratchpad or quire store bank (R144, R158). -/
structure Bank where
  st : BankSt
  /-- OFF: the ramp-down is still under way. WAKING: the ramp-up has ended and clearing runs. -/
  phase : Bool
  /-- A power-up recorded during DRAINING or the ramp-down. -/
  upRecorded : Bool
  /-- An uncorrectable error has been recorded since the last reset (R144). -/
  uncorr : Bool
  retired : Bool
  deriving DecidableEq, Repr, Inhabited

/-- A scratchpad slot entry (R145). -/
structure Slot where
  base : BitVec 13
  lines : BitVec 13
  readers : BitVec 4
  full : Bool
  defined : Bool
  remain : BitVec 4
  deriving DecidableEq, Repr, Inhabited

/-- A gather buffer entry (R151): line number in the scratchpad, valid bytes, data, last writer. -/
structure GatherEnt where
  line : Fin 6144
  mask : BitVec 64
  data : Line
  desc : Nat
  /-- Poison that came with the bytes written (R142): 0 none, else its origin. -/
  bad : Nat
  deriving DecidableEq, Repr, Inhabited

/-- A descriptor issued and not yet completed (R171): its words, its slots, and what it waits for. -/
structure InFlight where
  id : Nat
  eng : Engine
  /-- The 64 bytes, byte 0 lowest, as patched. -/
  word : Line
  walker : Nat
  cons : Option Nat
  prod : Option Nat
  /-- Remote packets or deliveries still outstanding. -/
  wait : Nat
  /-- The chain and the item of a COMMIT descriptor. -/
  commit : Option (Nat × Nat)
  /-- A LOAD whose last row is not yet written, a CHUNK not yet run, a MOVE whose data have not all arrived. -/
  pending : Bool
  /-- MOVE: the bytes that have arrived, in transfer order, the poison that came with them (R143), and where the rows
  go: a Vat page plus one and the offset in it, or 0 and a device address. -/
  buf : SMap Byte
  marks : SMap Nat
  dsts : List (Nat × Nat)
  /-- Vat pages that the transfer goes through (R304). -/
  pages : List Nat
  /-- CHUNK: its streams, for QUEUED (R268). -/
  strs : List Nat
  deriving DecidableEq, Repr, Inhabited

/-- A descriptor ready to issue: its index in the image and the level of the tile it is patched for (R176). -/
structure IssueEnt where
  idx : Nat
  level : Nat
  deriving DecidableEq, Repr, Inhabited

/-- A tile: the start and the extent in each dimension (R174). -/
structure Tile where
  s : List Nat
  e : List Nat
  deriving DecidableEq, Repr, Inhabited

/-- What is left to do in a walk (R174): visit the tile, or issue its EXIT descriptors. -/
inductive Visit where
  | enter (level : Nat) (tile : Tile)
  | leave (level : Nat) (tile : Tile)
  deriving DecidableEq, Repr, Inhabited

/-- What holds a walker (R199). -/
inductive Hold where
  | none
  | waitGe (counter : Nat) (onDone : Bool) (threshold : Nat)
  | barrier (partition : Bool) (cores : Nat)
  deriving DecidableEq, Repr, Inhabited

/-- An item of a DRAW nest whose commit is still open (R182). -/
structure OpenItem where
  nest : Nat
  item : Nat
  epoch : BitVec 16
  counter : Nat
  /-- COMMIT transfers still running, and whether the item's walk has ended. -/
  left : Nat
  walked : Bool
  deriving DecidableEq, Repr, Inhabited

/-- A walker (R174, R186). -/
structure Walker where
  nest : Nat
  ext : List Nat
  /-- Items drawn or shared out and not yet walked (R179, R181). -/
  items : List Nat
  /-- The item being walked. -/
  item : Option Nat
  /-- Epoch under which the items were drawn (R182). -/
  epoch : BitVec 16
  /-- No further item will be drawn. -/
  drained : Bool
  stack : List Visit
  issue : List IssueEnt
  /-- Tiles entered so far at levels 1, 2 and 3 (R176 ALT). -/
  ord1 : Nat
  ord2 : Nat
  ord3 : Nat
  /-- Enclosing tiles at levels 1, 2 and 3 (R176 REL). -/
  t1 : Tile
  t2 : Tile
  t3 : Tile
  /-- The extents make the walk run ZERO_RED_DESC only (R178). -/
  zeroRed : Bool
  hold : Hold
  /-- A stall notice has been posted for the present stall or hold (R150, R199). -/
  noticed : Bool
  deriving DecidableEq, Repr, Inhabited

/-- A set of array weights (R105, R108, R116): layout, format, codes and scale codes by k × 64 + n, and the LOAD that
filled it (R127). -/
structure WSet where
  layout : Nat
  fmt : Nat
  cells : SMap Nat
  scales : SMap Nat
  src : Line
  deriving DecidableEq, Repr, Inhabited

/-- An open MX block of an accumulator (R112): elements added so far, and its scale codes. -/
structure OpenBlk where
  cnt : Nat
  codes : List Nat
  deriving DecidableEq, Repr, Inhabited

/-- States of the shadow weights (R118). -/
inductive ShadowSt where
  | empty | filling | full | spent
  deriving DecidableEq, Repr, Inhabited

/-- The matrix arrays (chapter 04). -/
structure MmaSt where
  active : WSet
  shadow : WSet
  shadowSt : ShadowSt
  /-- Accumulator words, key (array × 128 + word) × 16 + column. -/
  acc : SMap Word32
  /-- Open MX blocks (R112), and pairs whose sum has overflowed (R101), by the key of their first word. -/
  opens : SMap OpenBlk
  pairOvf : SMap Bool
  /-- Entries whose row runs in RELIEF mode, key array × 128 + entry (R121). -/
  relief : SMap Bool
  deriving DecidableEq, Repr, Inhabited

/-- A row of the statistics file (R231). -/
structure StatRow where
  live : Bool
  m : Word32
  l : Word32
  o : SMap Word32
  deriving DecidableEq, Repr, Inhabited

/-- A stream slot of the state store (R268, R269): stream number plus one, and when it was last used. -/
structure StrSlot where
  stream : Nat
  used : Nat
  loaded : Bool
  deriving DecidableEq, Repr, Inhabited

/-- A core (R50) and the work on it. -/
structure Core where
  /-- The partition and work slot it runs, plus one; 0 for none (R481). -/
  part : Nat
  slot : Nat
  ctx : Nat
  /-- The next descriptor outside nests, and whether the walk has ended. -/
  pos : Nat
  ended : Bool
  walkers : List Walker
  /-- What holds the walk outside nests (R199), and whether its stall has been noticed. -/
  hold : Hold
  noticed : Bool
  /-- First nest of the chain under way. -/
  nest : Nat
  /-- Highest LAYER of the nests entered, plus one (R191). -/
  layer : Nat
  inflight : List InFlight
  nextId : Nat
  /-- A preemption has been requested; the cheap point reached: live list plus one (R194). -/
  preempt : Bool
  cheapAt : Nat
  spilled : Bool
  openItems : List OpenItem
  /-- Items to walk again on resumption (R183), with the first nest of their chain. -/
  replay : List (Nat × Nat)
  slots : SMap Slot
  gather : List GatherEnt
  banks : SMap Bank
  mma : MmaSt
  stats : SMap StatRow
  /-- Core sampler generator (R215): key, counter, and word index. -/
  genKey : BitVec 64
  genCtr : BitVec 128
  genWord : Nat
  strSlots : SMap StrSlot
  clock : Nat
  /-- Progress notices in a row (R496). -/
  stalls : Nat
  withdrawn : Bool
  /-- Lines found uncorrectable whose test waits for the teardown (R144). -/
  toTest : List Nat
  stateUncorr : Bool
  deriving DecidableEq, Repr, Inhabited

/-- A work counter (R180). -/
structure Counter where
  value : Word32
  done : Word32
  epoch : BitVec 16
  deriving DecidableEq, Repr, Inhabited

/-- A delivery on its way into scratchpads of the quire: a multicast (R184), or a write from another core
(R148). -/
structure Delivery where
  remote : Bool
  /-- Positions of the quire that it goes to. -/
  mask : BitVec 32
  dst : Nat
  stride : Nat
  rowBytes : Nat
  /-- The bytes, each with its poison. -/
  data : List (Byte × Nat)
  prod : Option Nat
  /-- The core that fetched it, and its descriptor. -/
  leader : Nat
  desc : Nat
  deriving DecidableEq, Repr, Inhabited

/-- A landed or finalised part of a combine record (R244): record offset and part. -/
structure CombEvent where
  record : Nat
  part : Nat
  final : Bool
  deriving DecidableEq, Repr, Inhabited

/-- A quire (R50 to R55). -/
structure Quire where
  banks : SMap Bank
  ctrs : SMap Counter
  /-- Layers started, plus one; entries issued, landed and failed (R191 to R193). -/
  started : Nat
  issued : List Nat
  landed : List Nat
  layerCtx : Nat
  deliveries : List Delivery
  /-- Parts landed and not yet merged, in landing order, and records being finalised (R244). -/
  comb : List CombEvent
  toTest : List Nat
  deriving DecidableEq, Repr, Inhabited

/-- A claim on a stream (R269): stream, core, slot, the descriptor it serves, and whether another core held the stream. -/
structure Claim where
  stream : Nat
  core : Nat
  slot : Nat
  desc : Nat
  ctx : Nat
  moved : Bool
  deriving DecidableEq, Repr, Inhabited

end Sys2Proof.Machine
end

