-- ==== Sys2Proof/Machine/TypesCtl.lean ====
section
/-! DEFINITION. The state of the package, the module, the Watermark, the links, the mailboxes, the
partitions and contexts, and the error record (chapters 02, 14 to 21). -/

namespace Sys2Proof.Machine

/-- Package state (R63 to R71): what backs each quire, spare pools, bridges, local ports, impairments. -/
structure PkgSt where
  /-- The defect map has been applied (R68). -/
  mapped : Bool
  /-- Per logical quire: 0 not assigned, 1 home, 2 west spare, 3 east spare, 4 vacant (R64). -/
  backing : SMap (BitVec 3)
  /-- Good sheet and press cores left in each logical quire's pool (R64, R65). -/
  sheetSpare : SMap (BitVec 2)
  pressSpare : SMap (BitVec 1)
  /-- The west and the east spare of each die is usable and free. -/
  westFree : BitVec 8
  eastFree : BitVec 8
  /-- Failed bridges, bit die × 3 + side (R63, R69). -/
  bridgeFailed : BitVec 24
  /-- Replays of the failing packet, per bridge (R584). -/
  bridgeSame : SMap (BitVec 8)
  /-- The times of the replays within the last millisecond, per bridge (R584). -/
  bridgeBurst : SMap (List Nat)
  /-- Local ports closed by a partition reset (R71). -/
  portClosed : BitVec 128
  /-- Impaired quires (R585). -/
  impaired : BitVec 128
  /-- Units whose proof run has passed (R541): core c at c, quire q at 4096 + q. -/
  proofOk : SMap Bool
  deriving DecidableEq, Repr

/-- Module state (R547 to R564): supplies, pins, the power governor, sensors, the management island. -/
structure ModSt where
  auxOk : Bool
  auxDv : BitVec 10
  mainDv : BitVec 10
  converters : Bool
  /-- THERM_TRIP_N is asserted (R558). -/
  tripped : Bool
  /-- The module is held in, or waits in, module reset (R556, R564). -/
  inReset : Bool
  /-- Straps as sampled (R559). -/
  straps : BitVec 10
  /-- Input power samples of the last millisecond, newest first (R551). -/
  samples : List (BitVec 16)
  /-- Power clock, 25 MHz units (R551). -/
  powerClock : BitVec 6
  /-- The last six junction readings per quire, newest first (R560). -/
  junc : SMap (List (BitVec 8))
  /-- Junction limit per quire, in 25 MHz steps below 1.2 GHz (R560). -/
  juncDrop : SMap (BitVec 6)
  /-- Quires in junction emergency (R560). -/
  juncEmerg : BitVec 128
  inlet : BitVec 8
  outlet : BitVec 8
  /-- Power limit held by effecter 10 while main is off (R563, R572). -/
  effecter : Option (BitVec 16)
  /-- The event receiver of PLDM (R563). -/
  receiver : Option (BitVec 8)
  /-- Sensors that were past a threshold when last judged (R563). -/
  crossed : List Nat
  deriving DecidableEq, Repr

/-- The entropy source (R519). -/
inductive EntropySt where
  | healthy | restarting | failed
  deriving DecidableEq, Repr, Inhabited

/-- An applied overlay (R469): its mode, its image digest and its register entries. -/
structure Overlay where
  mode : BitVec 4
  digest : BitVec 256
  entries : List (Nat × Word32)
  deriving DecidableEq, Repr, Inhabited

/-- Watermark and boot state (R503 to R546). -/
structure WmkSt where
  /-- MR0 to MR15 (R514). -/
  mr : SMap (BitVec 256)
  entropy : EntropySt
  /-- A firmware image has been accepted, over flash or the boot window; its SVN, slot and bank (R508). -/
  fwSvn : BitVec 7
  fwSlot : BitVec 1
  fwBank : BitVec 1
  /-- The staged bank was marked empty, or holds a verified image (R511, R512). -/
  stagedOk : Bool
  /-- The boot window of R544 is open. -/
  bootWindow : Bool
  /-- The base as applied: register entries in order, and the expected topology table (R467, R534). -/
  base : List (Nat × Word32)
  topo : List Byte
  /-- Overlays in the order they were applied (R469). -/
  overlays : List Overlay
  /-- The overlay slots of boot flash as they stood at bring-up (R512). -/
  ovlCopy : SMap Byte
  /-- The device certificate does not carry the identity key (R517). -/
  certBad : Bool
  /-- Links accepted by TOPOLOGY_ACCEPT, and its die and self acceptance (R537). -/
  accLinks : BitVec 32
  accDies : Bool
  deriving DecidableEq, Repr

/-- Fuses and boot flash: what no reset clears (R504, R505). -/
structure NvSt where
  svnMin : BitVec 7
  fwRevoked : BitVec 2
  ownerRevoked : BitVec 4
  flash : SMap Byte
  /-- Bytes of the repair log area in use (R372). -/
  logLen : Nat
  deriving DecidableEq, Repr

/-- Link training states (R401), coded as CHN_LINK_STATEn.STATE. -/
inductive LinkSt where
  | off | detect | equalize | align | exchange | held | up | degraded | retrain | down | draining
  deriving DecidableEq, Repr, Inhabited

/-- Progress of a link key exchange (R521, R522). -/
inductive KeySt where
  | none | certWait | initWait | respWait | done | failed
  deriving DecidableEq, Repr, Inhabited

/-- A frame kept for replay (R399): its number and the packets that end in it. -/
structure TxFrame where
  fseq : BitVec 12
  chn : List ChnPkt
  cch : List CchPkt
  deriving DecidableEq, Repr, Inhabited

/-- Flits counted per virtual channel: request, response, and expert or snoop (R397, R427). -/
structure VcCount where
  req : Nat
  rsp : Nat
  exp : Nat
  deriving DecidableEq, Repr, Inhabited

/-- One link (R390 to R416, R425 to R442). -/
structure Link where
  st : LinkSt
  /-- Lane groups in use, trained good, and retired. -/
  groups : BitVec 8
  good : BitVec 8
  retired : BitVec 8
  peerDev : BitVec 14
  peerLink : BitVec 5
  peerRole : BitVec 2
  peerEpoch : BitVec 16
  peerEnc : Bool
  /-- Encryption in force, judged at EXCHANGE (R416). -/
  enc : Bool
  /-- The two ends differ in encryption (R416). -/
  encDiffers : Bool
  /-- The pointing pass or the manager has accepted the link (R401). -/
  accepted : Bool
  /-- An enable recorded while DRAINING, a disable recorded while in RETRAIN (R401, R421). -/
  enableRec : Bool
  disableRec : Bool
  /-- Next FSEQ to send, last FSEQ acknowledged by the peer, next FSEQ expected (R392, R399). -/
  txNext : BitVec 12
  rxNext : BitVec 12
  retry : List TxFrame
  /-- The receiver has asked for a replay and waits for the expected FSEQ (R399). -/
  nakSent : Bool
  /-- Credits held toward the peer, and credits waiting to be returned to it (R397). -/
  credits : VcCount
  owed : VcCount
  /-- Flits in the receive buffers (R397). -/
  rxHeld : VcCount
  /-- Replays of the oldest frame in a row, and the frames discarded in the last millisecond: the time of each and the
  lane groups of its uncorrectable codewords (R400). -/
  replays : Nat
  discards : List (Nat × List Nat)
  /-- Packets held under R407, oldest first. -/
  held : List ChnPkt
  /-- A held packet waits until the frames that the link holds are acknowledged (R407). -/
  waitAck : Bool
  /-- EXPD packets that wait for inbox space (R414). -/
  expHeld : List ChnPkt
  /-- Packets sent under one key in this direction (R416). -/
  gcmTx : BitVec 64
  key : KeySt
  /-- The messages of the key exchange so far, in order (R521). -/
  transcript : List Byte
  /-- The peer's public key, and the randomness of this end's encapsulation key. -/
  peerKey : List Byte
  keyRand : Nat
  /-- Link keys of the two directions, as the Watermark derived them (R521). -/
  keyTx : BitVec 256
  keyRx : BitVec 256
  /-- Width code before the retrain, for the ring entry (R581). -/
  oldWidth : Nat
  deriving DecidableEq, Repr, Inhabited

/-- What a packet of a remote transfer was for (R395, R410): the issuing descriptor, or no descriptor. -/
structure Xfer where
  tag : BitVec 16
  link : Nat
  write : Bool
  ctx : Nat
  core : Nat
  desc : Nat
  /-- Where read data are delivered. -/
  dest : Nat
  len : Nat
  deriving DecidableEq, Repr, Inhabited

/-- Chain layer state of the device (R405 to R420). -/
structure ChainSt where
  heartbeat : BitVec 16
  role : BitVec 2
  mgrSlot : BitVec 4
  mgrValid : Bool
  epoch : BitVec 16
  /-- The manager's last heartbeat and when it advanced (R418). -/
  mgrBeat : BitVec 16
  mgrBeatAt : Nat
  /-- This device observes silence (R418). -/
  silent : Bool
  /-- SILENCE messages held: sender slot and time (R419). -/
  silences : List (Nat × Nat)
  xfers : List Xfer
  nextTag : BitVec 16
  deriving DecidableEq, Repr

/-- What a device request to the companion was for (R430, R438 to R442). -/
inductive CchUse where
  | dmv (ctx core desc dest len : Nat)
  | dmvWrite (ctx core desc : Nat)
  | vatExport (page : Nat)
  | vatImport (page off : Nat)
  | notify (box : Nat)
  | posted (ctx : Nat)
  deriving DecidableEq, Repr, Inhabited

/-- A device request to the companion that waits for its response (R428, R430). -/
structure CchReq where
  tag : BitVec 16
  addr : Nat
  use : CchUse
  deriving DecidableEq, Repr, Inhabited

/-- A directory snoop that waits for its answer (R435): line index in the mailbox region. -/
structure Snoop where
  tag : BitVec 16
  line : Nat
  inv : Bool
  late : Bool
  deriving DecidableEq, Repr, Inhabited

/-- Couch link layer state of the device (R425 to R446). -/
structure CouchSt where
  /-- Companion lines held in S by the Couch cache (R431). -/
  cache : List Nat
  /-- The companion's copy of each mailbox line: 0 I, 1 S, 2 M (R435). -/
  dir : SMap (BitVec 2)
  snoops : List Snoop
  reqs : List CchReq
  nextTag : BitVec 16
  deriving DecidableEq, Repr

/-- A command that has started and is answered later (R451): its entry and what it still waits for. -/
structure InProg where
  sn : Nat
  entry : Line
  /-- Units still awaited, and the bitmap of those done (R463). -/
  waits : List Nat
  bits : BitVec 256
  aux : Nat
  deriving DecidableEq, Repr, Inhabited

/-- One mailbox (R437, R449 to R456). -/
structure Mailbox where
  grantee : Nat
  cmdRead : BitVec 6
  /-- Commands covered by the doorbell and not yet started (R438). -/
  covered : BitVec 6
  rspWrite : BitVec 6
  rspRead : BitVec 6
  notifyPending : Bool
  inProg : List InProg
  /-- Response entries that wait for a line the companion still holds (R435). -/
  outbox : List Line
  notices : List Line
  /-- A revoke waits for the commands in progress (R472): the answering mailbox and serial number. -/
  revoking : Option (Nat × Nat)
  nextSn : Nat
  deriving DecidableEq, Repr, Inhabited

/-- States of a partition (R475). -/
inductive PartSt where
  | free | ready | resetting | destroying
  deriving DecidableEq, Repr, Inhabited

/-- Where a piece of work came from (R481). -/
inductive WorkKind where
  | launch | root (group : Nat) | rebuild (page : Nat) | step
  deriving DecidableEq, Repr, Inhabited

/-- How far a piece of work has come (R485 to R495). -/
inductive WorkSt where
  | waiting | running | preempting | preempted
  deriving DecidableEq, Repr, Inhabited

/-- A task or a step walk (R481). -/
structure Work where
  kind : WorkKind
  st : WorkSt
  ctx : Nat
  /-- Quires asked for while waiting; the quires held, as a mask, once started. -/
  want : Nat
  quires : BitVec 128
  /-- Launch order, start order (R486, R494). -/
  order : Nat
  started : Nat
  high : Bool
  /-- Launch block address, argument bytes and launch count (R482, R483). -/
  block : Nat
  args : List Byte
  taskNo : BitVec 32
  handle : BitVec 16
  /-- Held by PREEMPT until RESUME (R491). -/
  held : Bool
  /-- Plinth cycle of the preemption request under way (R491). -/
  asked : Nat
  /-- Save space: first frame and frames (R493). -/
  saveAt : Nat
  saveFrames : Nat
  /-- The PREEMPT command that waits for this work: mailbox and serial number. -/
  waiter : Option (Nat × Nat)
  deriving DecidableEq, Repr, Inhabited

/-- A loaded program (R459, R460). -/
structure Program where
  handle : BitVec 16
  isStep : Bool
  ctx : Nat
  bytes : Nat
  kvgeom : BitVec 128
  scoreOff : BitVec 22
  stCG : BitVec 5
  stRows : BitVec 4
  stRenorm : BitVec 6
  stOff : BitVec 21
  /-- For a step program, the partition of its rebuild program; for a rebuild program, of its step program. -/
  rebuildPart : Option Nat
  stepPart : Option Nat
  /-- Save frames reserved for a walk of the whole partition (R493). -/
  saveAt : Nat
  saveFrames : Nat
  deriving DecidableEq, Repr, Inhabited

/-- A partition (R473 to R502) and its step roster (R33 to R38). -/
structure Part where
  st : PartSt
  quires : BitVec 128
  cycle : BitVec 64
  cycleRem : Nat
  /-- Cycle table: duration and context per slot; the table that replaces it; the slot in force. -/
  table : List (BitVec 32 × BitVec 12)
  tableNext : List (BitVec 32 × BitVec 12)
  slot : Nat
  /-- The cycle counter when the slot began (R490). -/
  slotAt : BitVec 64
  waiting : List Work
  /-- Running and preempted work: task slots 0 to 15, the step walk at 16. -/
  works : SMap Work
  program : Option Program
  loadCount : BitVec 9
  /-- A recorded create (R500): quires, mailbox and serial number. -/
  recorded : Option (BitVec 128)
  destroyers : List (Nat × Nat)
  resetters : List (Nat × Nat)
  torn : Nat
  /-- Contexts whose teardown a reset waits for. -/
  tearing : List Nat
  /-- Partition step number, roster, and the groups whose boundary work is still to come (R33 to R38). -/
  step : BitVec 64
  roster : List Nat
  boundaries : List Nat
  /-- Groups of the boundary under way whose software forks are to be handed out (R41): the branches kept from SCORED,
  and how many of the group's requests take part. -/
  forking : List (Nat × List Nat × Nat)
  deriving DecidableEq, Repr, Inhabited

/-- States of a context (R477). -/
inductive CtxSt where
  | free | active | tearing | faulted
  deriving DecidableEq, Repr, Inhabited

/-- A grant run (R480). -/
structure Grant where
  first : Nat
  frames : Nat
  read : Bool
  write : Bool
  deriving DecidableEq, Repr, Inhabited

/-- The context record (R577). -/
structure CtxRec where
  mma : Word32
  vec : Word32
  att : Word32
  sta : Word32
  faults : BitVec 16
  lastFault : BitVec 16
  lastCore : BitVec 12
  notices : Word32
  deriving DecidableEq, Repr, Inhabited

/-- What a CONTEXT_CREATE asks for (R476). -/
structure CtxParams where
  partitions : BitVec 128
  rebuild : BitVec 7
  rebuildEn : Bool
  flush : Bool
  high : Bool
  stallAction : Bool
  noticeMb : BitVec 8
  progressCount : Word32
  samplerKey : BitVec 64
  saveFirst : BitVec 20
  saveFrames : BitVec 11
  deriving DecidableEq, Repr, Inhabited

/-- A context (R476 to R480). -/
structure Ctx where
  st : CtxSt
  par : CtxParams
  grants : List Grant
  /-- Vat reservation R_c (R303, R315). -/
  reserve : BitVec 20
  record : CtxRec
  /-- TEARING: entered by a fault and not by CONTEXT_DESTROY (R477), and the code of what began it. -/
  byFault : Bool
  tearCode : BitVec 16
  /-- CONTEXT_DESTROY commands recorded or waiting (R477). -/
  destroyers : List (Nat × Nat)
  /-- A CONTEXT_CREATE recorded under R500. -/
  recorded : Option CtxParams
  /-- Grant runs whose revoke is waited for. -/
  keyLive : Bool
  deriving DecidableEq, Repr, Inhabited

/-- Classes of an error ring entry (R580). -/
inductive ErrClass where
  | transient | permanent | fault | event
  deriving DecidableEq, Repr, Inhabited

/-- An entry of the error ring (R580). -/
structure ErrEntry where
  held : Bool
  seq : Word32
  kind : BitVec 16
  cls : ErrClass
  interrupting : Bool
  retiredUnit : Bool
  unitType : BitVec 4
  unit : Word32
  ctx : BitVec 12
  rep : BitVec 16
  time : BitVec 64
  fault : BitVec 16
  /-- Bytes 28 to 47, byte 28 lowest. -/
  detail : BitVec 160
  lastTime : BitVec 64
  /-- Returned by an ERROR_READ on mailbox 0 (R578). -/
  returned : Bool
  deriving DecidableEq, Repr, Inhabited

/-- A CONTEXT_CREATE that waits for the entropy source (R519). -/
structure CreateWait where
  box : Nat
  sn : Nat
  ctx : Nat
  par : CtxParams
  deriving DecidableEq, Repr, Inhabited

/-- Armature state (R448 to R502, R574 to R591). -/
structure ArmSt where
  boxes : SMap Mailbox
  parts : SMap Part
  ctxs : SMap Ctx
  ring : SMap ErrEntry
  seq : Nat
  launches : Word32
  /-- Orders launches and starts. -/
  ticket : Nat
  /-- The device refuses new work until the next module reset (R63, R554, R588). -/
  refuse : Bool
  creates : List CreateWait
  reports : List (Nat × Nat)
  /-- Poison origins whose first context fault has been taken (R588): line numbers. -/
  poisonSeen : List Nat
  deriving DecidableEq, Repr

/-- What leaves the block: packets on each chain link, packets to the companion, and management answers,
newest last (DESIGN CHOICE, log 72). -/
structure OutSt where
  chn : List (Nat × ChnPkt)
  cch : List CchPkt
  ctrl : List (Nat × CtrlFlit)
  smbus : List (List Byte)
  deriving DecidableEq, Repr

end Sys2Proof.Machine
end

