-- ==== Sys2Proof/Machine/TypesRoll.lean ====
section
/-! DEFINITION. The state of rollout groups, branches and the Trim unit, of the Vat, of the Calender and
of the stacks (chapters 01, 10 to 13). -/

namespace Sys2Proof.Machine

/-- States of a rollout group (R27). -/
inductive GroupSt where
  | free | forming | running | ending
  deriving DecidableEq, Repr, Inhabited

/-- A BRANCH_FORK command that waits for the group's next boundary (R41): its mailbox, serial number, and
the parents in request order. -/
structure ForkReq where
  box : Nat
  sn : Nat
  parents : List Nat
  deriving DecidableEq, Repr, Inhabited

/-- A rollout group (R23 to R32). -/
structure Group where
  st : GroupSt
  part : Nat
  ctx : Nat
  box : Nat
  rootProg : BitVec 16
  inputs : Nat
  frames : Nat
  stream : Nat
  w0 : Nat
  seqAddr : Nat
  seqCount : Nat
  seqLen : Nat
  horizon : Nat
  record : Bool
  ring : Nat
  ringLog : Nat
  result : Nat
  /-- The policy record in force (R324, R325). -/
  policy : Line
  /-- Branch identifier of the root. -/
  root : Nat
  /-- Branch table entries reserved for initial branches that do not exist yet (R24). -/
  reserved : Nat
  boundaries : Word32
  forks : Word32
  policyForks : Word32
  pruned : Word32
  status : BitVec 16
  /-- The record ring's write index (R44), and how many roster closes in a row skipped the group (R46). -/
  recIdx : Word32
  skips : Nat
  requests : List ForkReq
  /-- The best branch, taken when the group entered ENDING (R28): identifier, SCORE, FIRST_ACTION, DEPTH. -/
  best : Nat
  bestScore : Word32
  bestAction : Word32
  bestDepth : BitVec 16
  /-- The root task has ended (R25). -/
  formed : Bool
  /-- A close command waits for stage 4 of the boundary under way (R42). -/
  closing : Bool
  deriving DecidableEq, Repr, Inhabited

/-- Branch states (R30), coded 0 to 7 in this order. -/
inductive BrSt where
  | free | root | forking | ready | rostered | scored | finished | releasing
  deriving DecidableEq, Repr, Inhabited

/-- What asked for a fork (R26, R330, R41): for a command, its mailbox, its serial number and the place in its list. -/
inductive ForkFrom where
  | initial
  | policy
  | command (box sn idx : Nat)
  deriving DecidableEq, Repr, Inhabited

/-- A branch table entry (R21), and what the device keeps beside it. -/
structure Branch where
  st : BrSt
  group : BitVec 12
  depth : BitVec 16
  seqIndex : BitVec 16
  seqMode : Bool
  score : Word32
  stream : BitVec 24
  pageList : BitVec 19
  pageCount : BitVec 12
  tailFill : BitVec 16
  readySince : Word32
  firstAction : Word32
  /-- Lookahead pages of the step under way (R295). -/
  la : Nat
  /-- Roster closes in a row that skipped the branch (R314). -/
  skips : Nat
  /-- FORKING: the copies still to complete, as (source page, target page) (R298). -/
  copies : List (Nat × Nat)
  /-- FORKING: source pages whose copy still waits for a frame (R303). -/
  need : List Nat
  /-- FORKING: the parent, and what asked for the fork. -/
  parent : Nat
  origin : ForkFrom
  /-- The partition of its group. -/
  part : Nat
  /-- RELEASING: the roster close or idling of R20 has passed. -/
  closed : Bool
  deriving DecidableEq, Repr, Inhabited

/-- A score store entry (R322). -/
structure ScoreEnt where
  score : Word32
  keepP : Word32
  group : BitVec 12
  live : Bool
  finished : Bool
  deriving DecidableEq, Repr, Inhabited

/-- A change of a reference count that a controller has accepted and not yet applied (R287, R292): the
page, up or down, and the branch whose list it serves, plus one. -/
structure RefOp where
  page : Nat
  up : Bool
  branch : Nat
  deriving DecidableEq, Repr, Inhabited

/-- States of a Vat page (R289), coded 0 to 9 in this order. -/
inductive PageSt where
  | free | live | copying | dropped | rebuilding | exporting | exported | importing | retired | moving
  deriving DecidableEq, Repr, Inhabited

/-- A Vat map entry (R288), and the transfer under way on it. -/
structure VatEnt where
  st : PageSt
  /-- Frame number, swap slot or failing frame. -/
  frame : BitVec 20
  cls : BitVec 2
  pin : Bool
  held : Bool
  comp : Bool
  dtslot : BitVec 2
  srcValid : Bool
  refcnt : BitVec 16
  age : BitVec 16
  owner : BitVec 12
  srcPage : BitVec 19
  kidx : BitVec 12
  layer : BitVec 10
  lastDie : BitVec 3
  /-- MOVING: the new frame. IMPORTING: the swap slot read. EXPORTING: the swap slot written. -/
  other : Nat
  /-- Contexts stalled on the page (R312). -/
  waiters : List Nat
  /-- Transfers through the page in flight (R304). -/
  busy : Nat
  /-- IMPORTING: the data that arrived were poisoned (R312). -/
  bad : Bool
  deriving DecidableEq, Repr, Inhabited

/-- A rebuild (R308): the page, its working list and its scratch page. -/
structure Rebuild where
  page : Nat
  work : Nat
  scratch : Nat
  /-- The rebuild's task has ended. -/
  walked : Bool
  deriving DecidableEq, Repr, Inhabited

/-- The Vat (chapter 10). -/
structure VatSt where
  map : SMap VatEnt
  /-- Frame to page number plus one (R287). -/
  bound : SMap Nat
  /-- Frames that have left the Vat's usable frames: retired and withdrawn (R313, R377). -/
  gone : List Nat
  tick : Word32
  hand : SMap Nat
  /-- Swap slot to page number plus one. -/
  swap : SMap Nat
  /-- Poisoned blocks per swap slot (R357). -/
  swapPoison : SMap (BitVec 512)
  refq : List RefOp
  /-- Rebuilds queued per rebuild partition, and the one under way. -/
  queue : SMap (List Nat)
  active : SMap (Option Rebuild)
  /-- Frames to retire whose page is in a transitional state, or that found no new frame (R313). -/
  toRetire : List Nat
  deriving DecidableEq, Repr

/-- Codes of a stored block (R340). -/
inductive BlockCode where
  | zero | raw | zrun | table
  deriving DecidableEq, Repr, Inhabited

/-- An index entry (R340) and the block header of a coded block (R347). -/
structure IndexEnt where
  code : BlockCode
  units : BitVec 3
  length : BitVec 12
  poison : Bool
  sealed : Bool
  /-- SLOT and VER of the block header. -/
  slot : BitVec 2
  ver : BitVec 8
  deriving DecidableEq, Repr, Inhabited

/-- A frame record (R339): its header and the index entries that are not ZERO. -/
structure FrameRec where
  keyCtx : BitVec 12
  dtslot : BitVec 2
  recode : Bool
  blocks : SMap IndexEnt
  deriving DecidableEq, Repr, Inhabited

/-- A write gather entry (R343): block number and the mask of the bytes written. -/
structure GatherBlk where
  block : Nat
  mask : BitVec 4096
  /-- Some of the bytes written were poisoned. -/
  bad : Bool
  deriving DecidableEq, Repr, Inhabited

/-- States of a decode table slot (R350), coded 0 to 3 in this order. -/
inductive TableSt where
  | free | loading | current | retiring
  deriving DecidableEq, Repr, Inhabited

/-- A decode table slot: its state, version and the 136 bytes of code lengths (R349). -/
structure TableSlot where
  st : TableSt
  version : Word32
  lengths : List Byte
  /-- The load that fills it: mailbox and serial number. -/
  load : Option (Nat × Nat)
  deriving DecidableEq, Repr, Inhabited

/-- A load that waits for a slot (R352). -/
structure TableWait where
  box : Nat
  sn : Nat
  version : Word32
  lengths : List Byte
  deriving DecidableEq, Repr, Inhabited

/-- The Calender (chapter 12). -/
structure CalSt where
  recs : SMap FrameRec
  /-- Write gather per stack, oldest first; seal queue per stack. -/
  gather : SMap (List GatherBlk)
  sealQ : SMap (List Nat)
  slots : SMap TableSlot
  wait : Option TableWait
  deriving DecidableEq, Repr

/-- States of a data row (R373). -/
inductive RowSt where
  | normal | soft | hard | remapped | retired
  deriving DecidableEq, Repr, Inhabited

/-- A remap table entry (R375). -/
structure RemapEnt where
  valid : Bool
  pc : BitVec 5
  bank : BitVec 6
  row : BitVec 16
  prot : Bool
  spare : BitVec 12
  moves : BitVec 4
  deriving DecidableEq, Repr, Inhabited

/-- States of a pseudo-channel (R379). -/
inductive PcSt where
  | active | evacuating | copying | retired
  deriving DecidableEq, Repr, Inhabited

/-- A pseudo-channel (R369, R376, R379): its state, frames retired on it, the times of its parity errors in the last millisecond, and
reissues of the failing command. -/
structure Pc where
  st : PcSt
  frames : Nat
  errs : List Nat
  reissues : Nat
  /-- A command waits for its reissue (R369). -/
  waiting : Bool
  /-- Retirement under R376 is due. -/
  due : Bool
  deriving DecidableEq, Repr, Inhabited

/-- How far a stack has come in bring-up (R530 to R533). -/
inductive TrainSt where
  | idle | testing (rests : Nat) | done
  deriving DecidableEq, Repr, Inhabited

/-- A stack and its controller (chapter 13). -/
structure Stack where
  train : TrainSt
  /-- Row states, keyed (pseudo-channel × 64 + bank) × 65,536 + row. -/
  rows : SMap RowSt
  /-- Repair resources used per bank, keyed pseudo-channel × 64 + bank (R372). -/
  used : SMap (BitVec 3)
  remap : SMap RemapEnt
  /-- Reserve rows used or failed, per bank (R375). -/
  reserve : SMap (List Nat)
  /-- Correction counts: row, count, time of the last counted; most recent first (R369). -/
  corr : List (Nat × Nat × Nat)
  pcs : SMap Pc
  /-- Pseudo-channels in order of retirement. -/
  order : List Nat
  /-- Frames in stack withdrawn for them, 1,280 for each, in that order (R377). -/
  withdrawn : List Nat
  /-- The unit that the patrol scrub reads next (R371). -/
  scrubUnit : Nat
  tempFails : Nat
  /-- Stack limit in 25 MHz steps below 1.2 GHz (R383). -/
  drop : BitVec 6
  emergency : Bool
  /-- When readings of 97 °C or above began. -/
  hotSince : Option Nat
  /-- Banks under soft repair: bank key and row (R374). -/
  repairing : List (Nat × Nat)
  /-- Failed rows of the memory test. -/
  testRows : List Nat
  deriving DecidableEq, Repr, Inhabited

/-- Kinds of a repair log entry (R372). -/
inductive LogKind where
  | soft | remap | frame | pc
  deriving DecidableEq, Repr, Inhabited

/-- A repair log entry that waits to be appended (R372). -/
structure LogEnt where
  kind : LogKind
  stack : Nat
  pc : Nat
  bank : Nat
  row : Nat
  spare : Nat
  deriving DecidableEq, Repr, Inhabited

/-- The stacks (chapter 13). -/
structure StackSt where
  ctls : SMap Stack
  logQ : List LogEnt
  deriving DecidableEq, Repr

/-- Rollouts and the Trim unit (chapters 01 and 11). -/
structure RollSt where
  groups : SMap Group
  branches : SMap Branch
  scores : SMap ScoreEnt
  deriving DecidableEq, Repr

end Sys2Proof.Machine
end

