-- ==== Sys2Proof/Machine/State.lean ====
section
/-! DEFINITION. The whole state of the block, why a command can stop, and the state after reset. -/

namespace Sys2Proof.Machine

/-- The state of the block. -/
structure State where
  /-- Commands that wait, first in, first out. -/
  pending : List Instr
  /-- Plinth cycles since bring-up started (R580 TIME). -/
  now : Nat
  /-- The model's own counter that feeds the free values (DESIGN CHOICE, log 5). -/
  fresh : Nat
  /-- Memory over the device address map (R73). -/
  mem : SMap Byte
  /-- Poisoned 64-byte lines, by device address div 64 (R142): 0 clean, 1 poisoned from outside the device,
  otherwise 2 + the line where the poison arose (R588). -/
  poison : SMap Nat
  /-- Rectified tags of scratchpad lines, by device address div 64 (R224). -/
  rect : SMap Bool
  /-- Registers of the control space, by offset: the value XOR the reset value. -/
  regs : SMap Word32
  pkg : PkgSt
  mod : ModSt
  wmk : WmkSt
  nv : NvSt
  links : SMap Link
  chain : ChainSt
  couch : CouchSt
  arm : ArmSt
  out : OutSt
  cores : SMap Core
  /-- What the cores of preempted work have spilled of their walks (R194): key (partition × 17 + slot) × 4,096 +
  core. -/
  saved : SMap Core
  quires : SMap Quire
  claims : List Claim
  /-- Streams opened or imported and not yet written by a CHUNK: their first write renormalises (R263). -/
  strFresh : SMap Bool
  roll : RollSt
  vat : VatSt
  cal : CalSt
  stk : StackSt
  deriving DecidableEq, Repr

/-- Why a command stops with a fault. -/
inductive Fault where
  /-- Raised by every command whose operands do not fit (WellFormed): no such command can reach the
  block. Safe: nothing follows from a run that stops. -/
  | illFormed
  deriving DecidableEq, Repr

/-- Why a command is refused. -/
inductive Refusal where
  /-- Raised by a command that has no meaning yet. Safe. -/
  | notModelled (mnemonic : String)
  deriving DecidableEq, Repr

/-- The package at reset: no position assigned yet (R68), no bridge failed, every port open
(DESIGN CHOICE, log 6). -/
def PkgSt.reset : PkgSt :=
  { mapped := false, backing := ⟨[]⟩, sheetSpare := ⟨[]⟩, pressSpare := ⟨[]⟩, westFree := 0, eastFree := 0,
    bridgeFailed := 0, bridgeSame := ⟨[]⟩, bridgeBurst := ⟨[]⟩, portClosed := 0, impaired := 0,
    proofOk := ⟨[]⟩ }

/-- The module at reset: supplies off (DESIGN CHOICE, log 9), every limit at 1.2 GHz (R572)
(DESIGN CHOICE, log 6). -/
def ModSt.reset : ModSt :=
  { auxOk := false, auxDv := 0, mainDv := 0, converters := false, tripped := false, inReset := true,
    straps := 0, samples := [], powerClock := 48, junc := ⟨[]⟩, juncDrop := ⟨[]⟩, juncEmerg := 0,
    inlet := 0, outlet := 0, effecter := none, receiver := none, crossed := [] }

/-- The Watermark at reset: every measurement register zero (R514) (DESIGN CHOICE, log 6). -/
def WmkSt.reset : WmkSt :=
  { mr := ⟨[]⟩, entropy := .healthy, fwSvn := 0, fwSlot := 0, fwBank := 0, stagedOk := false,
    bootWindow := false, base := [], topo := [], overlays := [], ovlCopy := ⟨[]⟩, certBad := false,
    accLinks := 0, accDies := false }

/-- Fuses and boot flash before any burn (DESIGN CHOICE, log 8). -/
def NvSt.reset : NvSt :=
  { svnMin := 0, fwRevoked := 0, ownerRevoked := 0, flash := ⟨[]⟩, logLen := 0 }

/-- The chain layer at reset: worker role, no manager followed. -/
def ChainSt.reset : ChainSt :=
  { heartbeat := 0, role := 0, mgrSlot := 0, mgrValid := false, epoch := 0, mgrBeat := 0, mgrBeatAt := 0,
    silent := false, silences := [], xfers := [], nextTag := 0 }

/-- The Couch link layer at reset: an empty cache and an empty directory. -/
def CouchSt.reset : CouchSt := { cache := [], dir := ⟨[]⟩, snoops := [], reqs := [], nextTag := 0 }

/-- The Armature at reset: no partition, no context, an empty error ring (R578). -/
def ArmSt.reset : ArmSt :=
  { boxes := ⟨[]⟩, parts := ⟨[]⟩, ctxs := ⟨[]⟩, ring := ⟨[]⟩, seq := 0, launches := 0, ticket := 0,
    refuse := false, creates := [], reports := [], poisonSeen := [] }

/-- Rollouts at reset. -/
def RollSt.reset : RollSt := { groups := ⟨[]⟩, branches := ⟨[]⟩, scores := ⟨[]⟩ }

/-- The Vat at reset: every page FREE. -/
def VatSt.reset : VatSt :=
  { map := ⟨[]⟩, bound := ⟨[]⟩, gone := [], tick := 0, hand := ⟨[]⟩, swap := ⟨[]⟩, swapPoison := ⟨[]⟩,
    refq := [], queue := ⟨[]⟩, active := ⟨[]⟩, toRetire := [] }

/-- The Calender at reset: every slot FREE (R350). -/
def CalSt.reset : CalSt := { recs := ⟨[]⟩, gather := ⟨[]⟩, sealQ := ⟨[]⟩, slots := ⟨[]⟩, wait := none }

/-- The stacks at reset. -/
def StackSt.reset : StackSt := { ctls := ⟨[]⟩, logQ := [] }

/-- The block right after reset: every register at its reset value, memory with nothing listed
(DESIGN CHOICE, log 6; DESIGN CHOICE, log 28). -/
def State.reset : State :=
  { pending := [], now := 0, fresh := 0, mem := ⟨[]⟩, poison := ⟨[]⟩, rect := ⟨[]⟩, regs := ⟨[]⟩,
    pkg := PkgSt.reset, mod := ModSt.reset, wmk := WmkSt.reset, nv := NvSt.reset, links := ⟨[]⟩,
    chain := ChainSt.reset, couch := CouchSt.reset, arm := ArmSt.reset,
    out := { chn := [], cch := [], ctrl := [], smbus := [] },
    cores := ⟨[]⟩, saved := ⟨[]⟩, quires := ⟨[]⟩, claims := [], strFresh := ⟨[]⟩, roll := RollSt.reset, vat := VatSt.reset,
    cal := CalSt.reset, stk := StackSt.reset }

end Sys2Proof.Machine
end

