-- ==== Sys2Proof/Machine/Ops.lean ====
section
/-! DEFINITION. The operations that every family shares: registers (R10 to R13), bytes and lines of memory
(R73), free values, the error ring (R578 to R581), notices and responses (R451 to R456). -/

namespace Sys2Proof.Machine

/-! Registers -/

/-- The stored value of the register at an offset. -/
def State.rget (s : State) (off : Nat) : Word32 := s.regs.get off ^^^ regReset off

/-- Store a register. -/
def State.rset (s : State) (off : Nat) (v : Word32) : State :=
  { s with regs := s.regs.set off (v ^^^ regReset off) }

/-- The value of a register as a number. -/
def State.rnat (s : State) (off : Nat) : Nat := (s.rget off).toNat

/-- Set bits of a sticky or status register (R11: a set by hardware stands). -/
def State.ror (s : State) (off bits : Nat) : State := s.rset off (s.rget off ||| BitVec.ofNat 32 bits)

/-- Clear bits of a register. -/
def State.rclr (s : State) (off bits : Nat) : State := s.rset off (s.rget off &&& ~~~(BitVec.ofNat 32 bits))

/-- Raise a counter; it wraps at 2^32. -/
def State.radd (s : State) (off n : Nat) : State := s.rset off (s.rget off + BitVec.ofNat 32 n)

/-- A field of a register. -/
def State.rfld (s : State) (off lo n : Nat) : Nat := fld (s.rnat off) lo n

/-- Replace a field of a register. -/
def State.rsetFld (s : State) (off lo n v : Nat) : State :=
  s.rset off (BitVec.ofNat 32 (setFld (s.rnat off) lo n v))

/-- Bit `i` of a register. -/
def State.rbit (s : State) (off i : Nat) : Bool := bit (s.rnat off) i

/-- Set or clear bit `i` of a register. -/
def State.rput (s : State) (off i : Nat) (b : Bool) : State := s.rsetFld off i 1 (b2n b)

/-! Free values -/

/-- Take a free value and advance the counter (DESIGN CHOICE, log 5). -/
def State.draw (s : State) : BitVec 64 × State := (Config.free s.fresh, { s with fresh := s.fresh + 1 })

/-! The device address map (R73) -/

/-- First address past stacked memory. -/
def stackedTop : Nat := 0x1E000000000
/-- Bytes of one stack. -/
def stackBytes : Nat := 0x1400000000
def qsrBase : Nat := 0x400000000000
def spdBase : Nat := 0x410000000000
def stsBase : Nat := 0x420000000000
def csBase : Nat := 0x430000000000
def compBase : Nat := 0x800000000000

/-- Address of a byte of a quire store, a scratchpad, a state store, the control space. -/
def qsrAddr (q off : Nat) : Nat := qsrBase + q * 0x400000 + off
def spdAddr (c off : Nat) : Nat := spdBase + c * 0x80000 + off
def stsAddr (c off : Nat) : Nat := stsBase + c * 0x20000 + off
def csAddr (off : Nat) : Nat := csBase + off

/-- The regions of the device address map. -/
inductive Region where
  | stacked (stack : Nat)
  | qsr (q off : Nat)
  | spd (c off : Nat)
  | sts (c off : Nat)
  | control (off : Nat)
  | companion (off : Nat)
  | unmapped
  deriving DecidableEq, Repr

/-- Where an address lies (R73, R74). -/
def region (a : Nat) : Region :=
  if a < stackedTop then .stacked (a / stackBytes)
  else if qsrBase ≤ a ∧ a < qsrBase + 0x20000000 then .qsr ((a - qsrBase) / 0x400000) ((a - qsrBase) % 0x400000)
  else if spdBase ≤ a ∧ a < spdBase + 0x80000000 then
    if (a - spdBase) % 0x80000 < 0x60000 then .spd ((a - spdBase) / 0x80000) ((a - spdBase) % 0x80000)
    else .unmapped
  else if stsBase ≤ a ∧ a < stsBase + 0x20000000 then .sts ((a - stsBase) / 0x20000) ((a - stsBase) % 0x20000)
  else if csBase ≤ a ∧ a < csBase + 0x4000000 then .control (a - csBase)
  else if compBase ≤ a ∧ a < 0x1000000000000 then .companion (a - compBase)
  else .unmapped

/-- The frame number of a stacked address (R285). -/
def frameOf (a : Nat) : Nat := a / 0x200000

/-- The die that holds a frame: 122,880 frames each (R74). -/
def frameDie (f : Nat) : Nat := f / 122880

/-- The stack that holds a frame: 40,960 frames each (R74). -/
def frameStack (f : Nat) : Nat := f / 40960

/-! Bytes and lines -/

/-- The bytes at an address (DESIGN CHOICE, log 2). -/
def State.rd (s : State) (a n : Nat) : List Byte := (List.range n).map fun i => s.mem.get (a + i)

/-- The little-endian number at an address (R7). -/
def State.rdN (s : State) (a n : Nat) : Nat := leNat (s.rd a n)

/-- Write bytes one after another. -/
def memWrite (m : SMap Byte) : Nat → List Byte → SMap Byte
  | _, [] => m
  | a, b :: r => memWrite (m.set a b) (a + 1) r

/-- Write bytes at an address. -/
def State.wr (s : State) (a : Nat) (bs : List Byte) : State := { s with mem := memWrite s.mem a bs }

/-- Write a little-endian number of `n` bytes (R7). -/
def State.wrN (s : State) (a n v : Nat) : State := s.wr a (leBytes n v)

/-- Clear a range of memory to zero. -/
def State.zero (s : State) (a n : Nat) : State := { s with mem := s.mem.clear a (a + n) }

/-- The lines that a range touches, by address div 64. -/
def linesOf (a n : Nat) : List Nat :=
  if n = 0 then [] else (List.range ((a + n - 1) / 64 - a / 64 + 1)).map (a / 64 + ·)

/-- Mark or clear the poison of a line (R142, R588). -/
def State.setPoison (s : State) (line v : Nat) : State := { s with poison := s.poison.set line v }

/-! Units -/

def State.core (s : State) (c : Nat) : Core := s.cores.get c
def State.modCore (s : State) (c : Nat) (f : Core → Core) : State := { s with cores := s.cores.mod c f }
def State.quire (s : State) (q : Nat) : Quire := s.quires.get q
def State.modQuire (s : State) (q : Nat) (f : Quire → Quire) : State := { s with quires := s.quires.mod q f }
def State.link (s : State) (n : Nat) : Link := s.links.get n
def State.modLink (s : State) (n : Nat) (f : Link → Link) : State := { s with links := s.links.mod n f }
def State.box (s : State) (m : Nat) : Mailbox := s.arm.boxes.get m
def State.modBox (s : State) (m : Nat) (f : Mailbox → Mailbox) : State :=
  { s with arm := { s.arm with boxes := s.arm.boxes.mod m f } }
def State.part (s : State) (p : Nat) : Part := s.arm.parts.get p
def State.modPart (s : State) (p : Nat) (f : Part → Part) : State :=
  { s with arm := { s.arm with parts := s.arm.parts.mod p f } }
def State.ctx (s : State) (x : Nat) : Ctx := s.arm.ctxs.get x
def State.modCtx (s : State) (x : Nat) (f : Ctx → Ctx) : State :=
  { s with arm := { s.arm with ctxs := s.arm.ctxs.mod x f } }
def State.group (s : State) (g : Nat) : Group := s.roll.groups.get g
def State.modGroup (s : State) (g : Nat) (f : Group → Group) : State :=
  { s with roll := { s.roll with groups := s.roll.groups.mod g f } }
def State.branch (s : State) (b : Nat) : Branch := s.roll.branches.get b
def State.modBranch (s : State) (b : Nat) (f : Branch → Branch) : State :=
  { s with roll := { s.roll with branches := s.roll.branches.mod b f } }
def State.page (s : State) (p : Nat) : VatEnt := s.vat.map.get p
def State.modPage (s : State) (p : Nat) (f : VatEnt → VatEnt) : State :=
  { s with vat := { s.vat with map := s.vat.map.mod p f } }
def State.frec (s : State) (f : Nat) : FrameRec := s.cal.recs.get f
def State.modFrec (s : State) (n : Nat) (f : FrameRec → FrameRec) : State :=
  { s with cal := { s.cal with recs := s.cal.recs.mod n f } }
def State.stack (s : State) (k : Nat) : Stack := s.stk.ctls.get k
def State.modStack (s : State) (k : Nat) (f : Stack → Stack) : State :=
  { s with stk := { s.stk with ctls := s.stk.ctls.mod k f } }

/-! Lines built from fields -/

/-- A 64-byte entry from (byte offset, bytes, value) triples (DESIGN CHOICE, log 71). -/
def mkLine (fs : List (Nat × Nat × Nat)) : Line :=
  BitVec.ofNat 512 (fs.foldl (fun acc f => acc + at_ (8 * f.1) (8 * f.2.1) f.2.2) 0)

/-- `n` bytes of an entry from byte `off`. -/
def lineN (l : Line) (off n : Nat) : Nat := fld l.toNat (8 * off) (8 * n)

/-- The 64 bytes of an entry. -/
def lineBytes (l : Line) : List Byte := leBytes 64 l.toNat

/-! The error ring (R578 to R581) -/

/-- What an event says of itself. -/
structure Event where
  kind : Nat
  cls : ErrClass
  unitType : Nat
  unit : Nat
  ctx : Nat := 0
  fault : Nat := 0
  detail : Nat := 0
  interrupting : Bool := false
  retired : Bool := false

/-- The last entry for a kind and a unit that is still held, by index. -/
def lastEntry (ring : SMap ErrEntry) (e : Event) : Option (Nat × ErrEntry) :=
  ring.cells.foldl (fun best c =>
    if c.2.held && c.2.kind.toNat == e.kind && c.2.unitType.toNat == e.unitType && c.2.unit.toNat == e.unit then
      match best with
      | some b => if b.2.seq.toNat < c.2.seq.toNat then some c else best
      | none => some c
    else best) none

/-- Bits of an error entry's DETAIL from (byte 28 to 47, bytes, value) triples (DESIGN CHOICE, log 71). -/
def detailOf (fs : List (Nat × Nat × Nat)) : Nat :=
  fs.foldl (fun acc f => acc + at_ (8 * (f.1 - 28)) (8 * f.2.1) f.2.2) 0

/-- Append an event to the ring, or fold it (R578, R579). Answers the index and whether an entry was made. -/
def ringPut (s : State) (e : Event) : State × Option Nat :=
  let folded := if e.interrupting then none else
    match lastEntry s.arm.ring e with
    | some b => if s.now ≤ b.2.lastTime.toNat + 1000000 then some b else none
    | none => none
  match folded with
  | some (i, ent) =>
    let rep := if ent.rep = 0xFFFF then ent.rep else ent.rep + 1
    ({ s with arm := { s.arm with
        ring := s.arm.ring.set i { ent with rep := rep, lastTime := BitVec.ofNat 64 s.now } } }, none)
  | none =>
    let i := s.arm.seq % 4096
    let old := s.arm.ring.get i
    let ent : ErrEntry :=
      { held := true, seq := BitVec.ofNat 32 s.arm.seq, kind := BitVec.ofNat 16 e.kind, cls := e.cls,
        interrupting := e.interrupting, retiredUnit := e.retired, unitType := BitVec.ofNat 4 e.unitType,
        unit := BitVec.ofNat 32 e.unit, ctx := BitVec.ofNat 12 e.ctx, rep := 0,
        time := BitVec.ofNat 64 s.now, fault := BitVec.ofNat 16 e.fault, detail := BitVec.ofNat 160 e.detail,
        lastTime := BitVec.ofNat 64 s.now, returned := false }
    let s1 : State := { s with arm := { s.arm with ring := s.arm.ring.set i ent, seq := s.arm.seq + 1 } }
    let s2 := (s1.rset Reg.plnErrSeq (BitVec.ofNat 32 (s.arm.seq + 1))).rset Reg.plnErrHead
      (BitVec.ofNat 32 ((s.arm.seq + 1) % 4096))
    let s3 := if old.held && !old.returned then s2.ror Reg.plnErrStatus 1 else s2
    let s4 := if e.interrupting then (s3.ror Reg.plnErrStatus 2).radd Reg.plnInterrupts 1 else s3
    let s5 := if e.retired then (s4.ror Reg.plnErrStatus 4).radd Reg.plnRetirements 1 else s4
    let s6 := if e.cls = .transient then s5.radd Reg.plnTransients 1 else s5
    (s6, some i)

/-! The Couch link, as far as responses and notices need it -/

/-- A packet to the companion. -/
def mkCch (typ : Nat) (space : Bool) (tag addr len : Nat) : CchPkt :=
  { typ := BitVec.ofNat 4 typ, space := space, tag := BitVec.ofNat 16 tag, addr := BitVec.ofNat 48 addr,
    len := BitVec.ofNat 13 len, status := 0, keepS := false, mask := 0, poison := 0, data := [] }

/-- A WR_PARTIAL of some bytes of one companion line: the line's bytes, zeros where BYTEMASK is clear (R428, R429)
(DEDUCED, log 34). -/
def partialPkt (a : Nat) (bs : List Byte) : CchPkt :=
  { mkCch 3 false 0 (a / 64 * 64) 64 with
    mask := BitVec.ofNat 64 ((2 ^ bs.length - 1) * 2 ^ (a % 64))
    data := List.replicate (a % 64) 0 ++ bs ++ List.replicate (64 - a % 64 - bs.length) 0 }

/-- Send a packet to the companion (DESIGN CHOICE, log 72). -/
def sendCch (s : State) (p : CchPkt) : State := { s with out := { s.out with cch := s.out.cch ++ [p] } }

/-- Send a request to the companion and remember what it is for (DEDUCED, log 34). -/
def requestCch (s : State) (p : CchPkt) (use : CchUse) : State :=
  let t := s.couch.nextTag
  sendCch { s with couch := { s.couch with
      reqs := s.couch.reqs ++ [{ tag := t, addr := p.addr.toNat, use := use }], nextTag := t + 1 } }
    { p with tag := t }

/-- Companion memory in bytes, as CCH_COMP_FRAMES gives it (R439). -/
def compLimit (s : State) : Nat := s.rnat Reg.cchCompFrames * 0x200000

/-- Control-space offset of a command entry and of a response entry (R436, R450). -/
def cmdOff (m i : Nat) : Nat := 0x100000 + m * 0x10000 + 64 * i
def rspOff (m i : Nat) : Nat := 0x101000 + m * 0x10000 + 64 * i

/-- Send a directory snoop for a mailbox line (R435) (DESIGN CHOICE, log 72). -/
def sendSnoop (s : State) (line : Nat) (inv : Bool) : State :=
  if s.couch.snoops.any (·.line == line) then s else
  let t := s.couch.nextTag
  sendCch { s.radd Reg.cchSnoopsOut 1 with couch := { s.couch with
      snoops := s.couch.snoops ++ [{ tag := t, line := line, inv := inv, late := false }], nextTag := t + 1 } }
    { mkCch (if inv then 8 else 9) true 0 (line * 64) 64 with tag := t }

/-- Drop lines from the Couch cache before a device write to companion memory (R431)
(DESIGN CHOICE, log 31). -/
def dropCached (s : State) (a n : Nat) : State :=
  { s with couch := { s.couch with cache := s.couch.cache.filter fun l => decide (l < a / 64) || decide (a + n ≤ 64 * l) } }

/-- Send the notify write of a mailbox, when it is due (R438) (DEDUCED, log 67). -/
def notify (s : State) (m : Nat) : State :=
  let ctl := s.rnat (Reg.dblNotifyCtl m)
  let a := s.rnat (Reg.dblNotifyLo m) + 0x100000000 * s.rnat (Reg.dblNotifyHi m)
  if !bit ctl 0 then s
  else if bit ctl 1 && (s.box m).notifyPending then s
  else if compLimit s ≤ a then s.ror Reg.cchStatus 0x400
  else
    let d := leBytes 4 (s.rnat (Reg.dblNotifyData m))
    let p := partialPkt a d
    let s1 := dropCached s a 4
    let s2 := s1.wr (compBase + a) d
    (requestCch s2 p (.notify m)).modBox m fun b => { b with notifyPending := true }

/-- Free entries of a response ring of 63 (R450). -/
def Mailbox.free (b : Mailbox) : Nat := 63 - ((b.rspWrite - b.rspRead).toNat + b.outbox.length)

/-- Write the waiting response entries of a mailbox, in order, up to the first whose line the companion
still holds (R435, R450). -/
def flushOutbox : Nat → State → Nat → State
  | 0, s, _ => s
  | n + 1, s, m =>
    match (s.box m).outbox with
    | [] => s
    | l :: r =>
      let off := rspOff m (s.box m).rspWrite.toNat
      if s.couch.dir.get (off / 64) ≠ 0 then sendSnoop s (off / 64) true
      else
        let s1 := s.wr (csAddr off) (lineBytes l)
        let s2 := s1.modBox m fun b => { b with outbox := r, rspWrite := b.rspWrite + 1 }
        flushOutbox n (notify s2 m) m

/-- Write a response entry at the response write index. -/
def writeRsp (s : State) (m : Nat) (l : Line) : State :=
  flushOutbox 64 (s.modBox m fun b => { b with outbox := b.outbox ++ [l] }) m

/-! Notices (R456) -/

/-- A notice entry (R454, R456) (DEDUCED, log 67). -/
def noticeLine (code status ctx : Nat) (result : List (Nat × Nat × Nat)) : Line :=
  mkLine ([(0, 2, code), (2, 2, 0xFFFF), (4, 2, status), (6, 2, ctx), (8, 1, 1)] ++ result)

/-- A queued notice may take a response entry: the free entries outnumber the commands in progress. -/
def Mailbox.roomForNotice (b : Mailbox) : Bool := decide (b.inProg.length < b.free)

/-- Post a notice, queue it, or drop it at 256 queued (R456) (DEDUCED, log 67). -/
def postNotice (s : State) (m : Nat) (l : Line) : State :=
  let b := s.box m
  if b.notices.isEmpty && b.roomForNotice then (writeRsp s m l).radd Reg.plnNotices 1
  else if b.notices.length < 256 then s.modBox m fun b => { b with notices := b.notices ++ [l] }
  else
    (ringPut (s.ror Reg.plnArmStatus 1)
      { kind := 3, cls := .event, unitType := 13, unit := lineN l 6 2, ctx := lineN l 6 2,
        detail := detailOf [(28, 1, m)] }).1

/-- Append an event to the ring and post its DEVICE_EVENT notice when it asks for one (R579)
(DESIGN CHOICE, log 71). -/
def ringAdd (s : State) (e : Event) : State :=
  match ringPut s e with
  | (s1, some i) =>
    if e.cls = .permanent || e.interrupting || e.kind == 0x37 then
      postNotice s1 0 (noticeLine 0xF004 0 e.ctx [(16, 2, i)])
    else s1
  | (s1, none) => s1

/-- The mailbox that a context's notices go to: its notice mailbox once granted to it, else mailbox 0 (R476). -/
def noticeBox (s : State) (x : Nat) : Nat :=
  let m := (s.ctx x).par.noticeMb.toNat
  if m ≠ 0 ∧ (s.box m).grantee = x then m else 0

/-- Post a STALL notice (R456) and make its ring entry (R581); for a context, count it in its record (R577). -/
def stallNotice (s : State) (source x : Nat) (core : Option Nat) (arg : Nat) : State :=
  let co := match core with | some c => c | none => 0xFFFF
  let box := if source = 6 then 0 else noticeBox s x
  let s1 := postNotice s box (noticeLine 0xF002 9 x [(16, 1, source), (20, 2, co), (22, 4, arg)])
  let s2 := if source = 6 then s1 else
    s1.modCtx x fun c => { c with record := { c.record with notices := c.record.notices + 1 } }
  ringAdd s2
    { kind := 2, cls := .event, unitType := if source ≤ 3 then 1 else if source ≤ 5 then 13 else 0,
      unit := if source ≤ 3 then co else if source ≤ 5 then x else 0, ctx := x,
      detail := detailOf [(28, 1, source)] }

/-! Responses (R451, R454, R455) -/

/-- Status codes (R455). -/
def stOk : Nat := 0
def stPartial : Nat := 1
def stBusy : Nat := 2
def stPendingEnable : Nat := 3
def stInvalid : Nat := 4
def stNoResource : Nat := 5
def stVatFull : Nat := 6
def stDenied : Nat := 7
def stFaulted : Nat := 8

/-- An answer: status, DETAIL and RESULT fields. -/
structure Ans where
  status : Nat
  detail : Nat := 0
  result : List (Nat × Nat × Nat) := []

/-- The response entry for a command entry. -/
def rspLine (e : Line) (a : Ans) : Line :=
  mkLine ([(0, 2, lineN e 0 2), (2, 2, lineN e 2 2), (4, 2, a.status), (6, 2, lineN e 6 2 % 4096), (12, 4, a.detail)]
    ++ a.result)

/-- Discard what a revoked mailbox has not started and take the grant back (R472). -/
def finishRevoke (s : State) (m : Nat) : State :=
  s.modBox m fun b =>
    { b with
      grantee := 0, cmdRead := 0, covered := 0, rspWrite := 0, rspRead := 0, notices := [], outbox := [],
      revoking := none, notifyPending := false }

/-- Answer a command that is in progress: one response entry, its counters and flags (R451, R471). -/
def respond (s : State) (m sn : Nat) (a : Ans) : State :=
  match (s.box m).inProg.find? (·.sn == sn) with
  | none => s
  | some ip =>
    let s1 := s.modBox m fun b => { b with inProg := b.inProg.filter (·.sn != sn) }
    let s2 := (writeRsp s1 m (rspLine ip.entry a)).radd Reg.plnCmdDone 1
    let s3 := if a.status = stInvalid then s2.ror Reg.plnArmStatus 2 else s2
    let s4 := if a.status = stDenied then s3.ror Reg.plnArmStatus 4 else s3
    match (s4.box m).revoking with
    | some (m0, sn0) =>
      if (s4.box m).inProg.isEmpty then
        let s5 := finishRevoke s4 m
        match (s5.box m0).inProg.find? (·.sn == sn0) with
        | none => s5
        | some ip0 =>
          let s6 := s5.modBox m0 fun b => { b with inProg := b.inProg.filter (·.sn != sn0) }
          (writeRsp s6 m0 (rspLine ip0.entry { status := stOk })).radd Reg.plnCmdDone 1
      else s4
    | none => s4

/-- The INVALID answer at a byte offset of the command entry, or of the parameter block (R592). -/
def invalidAt (off : Nat) : Ans := { status := stInvalid, detail := off }
def invalidBlk (off : Nat) : Ans := { status := stInvalid, detail := off + 0x1000 }
def invalidDev : Ans := { status := stInvalid, detail := 0xFFF }
/-- The answer for a poisoned area (R453, R498). -/
def paramPoison : Ans := { status := stFaulted, detail := 5 }

/-- Change a command in progress. -/
def modInProg (s : State) (m sn : Nat) (f : InProg → InProg) : State :=
  s.modBox m fun b => { b with inProg := b.inProg.map fun p => if p.sn == sn then f p else p }

end Sys2Proof.Machine
end

