-- ==== Sys2Proof/Machine/Cal.lean ====
section
/-! DEFINITION. The Calender (chapter 12): block codes, the frame record, the write gather, sealing, recode
and the decode table slots. Memory holds the decoded bytes of a block; the index entry says how they are
stored (DESIGN CHOICE, log 10). -/

namespace Sys2Proof.Machine

/-! Vat frames and coded frames -/

/-- The last frame of a stack (R285, R373). -/
def isLastFrame (f : Nat) : Bool := f % 40960 == 40959

/-- Frames of [lo, hi) that a count of Vat frames skips (R285): last frames, withheld and withdrawn frames. -/
def skippedFrames (s : State) (lo hi : Nat) : Nat :=
  (hi / 40960 - lo / 40960) +
    (s.vat.gone.filter fun f => decide (lo ≤ f) && decide (f < hi) && !isLastFrame f).length

/-- Frame `f` is a Vat frame (R285). -/
def isVatFrame (s : State) (f : Nat) : Bool :=
  let d := frameDie f
  let base := s.rnat (Reg.vatFrameBase d)
  decide (d < 8) && decide (base ≤ f) && frameDie base == d && !isLastFrame f && !s.vat.gone.contains f &&
    decide (f - base - skippedFrames s base f < s.rnat (Reg.vatFrameCount d))

/-- Frame `f` lies in coded window `w` (R341). -/
def inWindow (s : State) (f w : Nat) : Bool :=
  let b := s.rnat (Reg.calWindowBase w)
  decide (b ≤ f) && decide (f < b + s.rnat (Reg.calWindowCount w))

/-- ZRUN and TABLE may be written in frame `f` (R341). -/
def isCoded (s : State) (f : Nat) : Bool := isVatFrame s f || (List.range 16).any (inWindow s f)

/-! Coded lengths (R347, R348) -/

/-- The 64-byte groups of a block. -/
def chunks64 : Nat → List Byte → List (List Byte)
  | 0, _ => []
  | n + 1, l => l.take 64 :: chunks64 n (l.drop 64)

/-- The zero-run length of a block: 16 + 8n + m bytes (R347). -/
def zrunLen (block : List Byte) : Nat :=
  (chunks64 64 block).foldl (fun acc l =>
    let m := (l.filter (· != 0)).length
    if m = 0 then acc else acc + 8 + m) 16

/-- The code length of symbol `k` in a table's LENGTHS bytes (R349). -/
def symLen (lengths : List Byte) (k : Nat) : Nat :=
  let b := (lengths.getD (k / 2) 0).toNat
  if k % 2 = 0 then b % 16 else b / 16

/-- The bits of a run of `n` zero bytes: the longest run symbols present, then literals (R348). `k` counts
down over the run symbols. -/
def runBits (lengths : List Byte) : Nat → Nat → Option Nat
  | 0, n => if n = 0 then some 0 else if symLen lengths 0 = 0 then none else some (n * symLen lengths 0)
  | k + 1, n =>
    let len := symLen lengths (256 + k)
    let size := 2 ^ (k + 1)
    if len = 0 then runBits lengths k n
    else (runBits lengths k (n % size)).map (· + n / size * len)

/-- The bits of a block under a table, or none when it needs an absent symbol (R348). `z` zero bytes are held. -/
def tableBits (lengths : List Byte) : Nat → List Byte → Option Nat
  | z, [] => if z ≤ 1 then (if z = 0 then some 0 else if symLen lengths 0 = 0 then none else some (symLen lengths 0))
      else runBits lengths 12 z
  | z, b :: r =>
    if b = 0 then tableBits lengths (z + 1) r
    else
      let run := if z = 0 then some 0
        else if z = 1 then (if symLen lengths 0 = 0 then none else some (symLen lengths 0))
        else runBits lengths 12 z
      match run, symLen lengths b.toNat with
      | some x, l + 1 => (tableBits lengths 0 r).map (· + x + (l + 1))
      | _, _ => none

/-- The coded length in bytes of a TABLE block, header included (R347, R348). -/
def tableLen (lengths : List Byte) (block : List Byte) : Option Nat :=
  (tableBits lengths 0 block).map fun b => 8 + ceilDiv b 8

/-! Frame records -/

/-- Blocks of a frame with CODE TABLE (TBLOCKS) and with CODE ZRUN or TABLE (CBLOCKS) (R339). -/
def FrameRec.tblocks (r : FrameRec) : Nat := (r.blocks.cells.filter fun c => c.2.code = .table).length
def FrameRec.cblocks (r : FrameRec) : Nat :=
  (r.blocks.cells.filter fun c => c.2.code = .table || c.2.code = .zrun).length

/-- Copy COMP and DTSLOT of a frame into the Vat map entry of its page (R339). -/
def syncComp (s : State) (f : Nat) : State :=
  match s.vat.bound.get f with
  | 0 => s
  | p + 1 =>
    let r := s.frec f
    s.modPage p fun e => { e with comp := decide (r.cblocks ≠ 0), dtslot := r.dtslot }

/-- The index entry of a block, by block number (address div 4 KiB). -/
def blockEnt (s : State) (blk : Nat) : IndexEnt := (s.frec (blk / 512)).blocks.get (blk % 512)

/-- Change the index entry of a block. -/
def modBlock (s : State) (blk : Nat) (f : IndexEnt → IndexEnt) : State :=
  s.modFrec (blk / 512) fun r => { r with blocks := r.blocks.mod (blk % 512) f }

/-- QUEUED of a slot: blocks that name it, device-wide (R351). -/
def queuedOf (s : State) (slot : Nat) : Nat :=
  s.cal.recs.cells.foldl (fun n r =>
    n + (r.2.blocks.cells.filter fun c => c.2.code = .table && c.2.slot.toNat == slot).length) 0

/-- The CURRENT slot (R350). -/
def currentSlot (s : State) : Option Nat := (List.range 4).find? fun k => (s.cal.slots.get k).st = .current

/-- The slot that may code TABLE blocks of frame `f` (R351). -/
def slotFor (s : State) (f : Nat) : Option Nat :=
  let r := s.frec f
  match currentSlot s with
  | none => none
  | some k => if r.dtslot.toNat = k ∨ r.tblocks = 0 ∨ r.recode then some k else none

/-- Write the index entry of a block whose bytes are in memory, by the procedure of R344 (DEDUCED, log 63). -/
def codeBlock (s : State) (blk : Nat) (rectified : Bool) (poison : Bool) : State :=
  let f := blk / 512
  let bytes := s.rd (blk * 4096) 4096
  let coded := isCoded s f
  let z := ceilDiv (zrunLen bytes) 512
  let tab := if s.rbit Reg.calCtrl 0 then
      match slotFor s f with
      | some k => (tableLen (s.cal.slots.get k).lengths bytes).map fun l => (k, l)
      | none => none
    else none
  let t := match tab with | some (_, l) => ceilDiv l 512 | none => 9
  let zrun : IndexEnt := { code := .zrun, units := BitVec.ofNat 3 z, length := BitVec.ofNat 12 (zrunLen bytes),
                           poison := poison, sealed := false, slot := 0, ver := 0 }
  let plain (c : BlockCode) : IndexEnt :=
    { code := c, units := 0, length := 0, poison := poison, sealed := false, slot := 0, ver := 0 }
  if bytes.all (· == 0) then syncComp (modBlock s blk fun _ => plain .zero) f
  else if !coded then modBlock s blk fun _ => plain .raw
  else if rectified && decide (z ≤ 7) then
    syncComp (((modBlock s blk fun _ => zrun).radd Reg.calBlocksCoded 1).radd Reg.calUnitsSaved (8 - z)) f
  else if 7 < min z t then syncComp ((modBlock s blk fun _ => plain .raw).radd Reg.calBlocksRaw 1) f
  else if t < z then
    match tab with
    | some (k, l) =>
      let s1 := if (s.frec f).recode || (s.frec f).tblocks != 0 then s else
        s.modFrec f fun r => { r with dtslot := BitVec.ofNat 2 k }
      let ent : IndexEnt := { code := .table, units := BitVec.ofNat 3 t, length := BitVec.ofNat 12 l, poison := poison,
                              sealed := false, slot := BitVec.ofNat 2 k,
                              ver := (s.cal.slots.get k).version.setWidth 8 }
      syncComp (((modBlock s1 blk fun _ => ent).radd Reg.calBlocksCoded 1).radd Reg.calUnitsSaved (8 - t)) f
    | none => s
  else syncComp (((modBlock s blk fun _ => zrun).radd Reg.calBlocksCoded 1).radd Reg.calUnitsSaved (8 - z)) f

/-- A partial write has reached a block whose bytes are already merged in memory (R345). -/
def partialBlock (s : State) (blk : Nat) (poison : Bool) : State :=
  let e := blockEnt s blk
  let s1 := if e.poison then s.ror (Reg.calStatus (frameStack (blk / 512))) 0x20 else s
  let bad := e.poison || poison
  if e.code = .raw then modBlock s1 blk fun e => { e with sealed := false, poison := bad }
  else codeBlock s1 blk false bad

/-- Flush a write gather entry: a whole block when it is full, else a partial write (R343). -/
def flushEntry (s : State) (g : GatherBlk) : State :=
  if g.mask = BitVec.allOnes 4096 then codeBlock s g.block false g.bad else partialBlock s g.block g.bad

/-- The write gather of a stack. -/
def gatherOf (s : State) (k : Nat) : List GatherBlk := s.cal.gather.get k

/-- Replace the write gather of a stack. -/
def setGather (s : State) (k : Nat) (l : List GatherBlk) : State :=
  { s with cal := { s.cal with gather := s.cal.gather.set k l } }

/-- Flush the gather entry of a block, if there is one. -/
def flushBlock (s : State) (blk : Nat) : State :=
  let k := frameStack (blk / 512)
  match (gatherOf s k).find? (·.block == blk) with
  | some g => flushEntry (setGather s k ((gatherOf s k).filter (·.block != blk))) g
  | none => s

/-- Flush every gather entry of a frame. -/
def flushFrame (s : State) (f : Nat) : State :=
  ((gatherOf s (frameStack f)).filter fun g => g.block / 512 == f).foldl (fun s g => flushBlock s g.block) s

/-- Forget the gather entries of a frame (DEDUCED, log 25). -/
def dropGather (s : State) (f : Nat) : State :=
  setGather s (frameStack f) ((gatherOf s (frameStack f)).filter fun g => g.block / 512 != f)

/-- The mask of `n` bytes from byte `off` of a block. -/
def blockMask (off n : Nat) : BitVec 4096 := BitVec.ofNat 4096 ((2 ^ n - 1) * 2 ^ off)

/-- Merge a write into the write gather (R343): a full entry is coded, and a new block at 32 entries
flushes the oldest (DEDUCED, log 25). -/
def gatherWrite (s : State) (blk off n : Nat) (poison : Bool) : State :=
  let k := frameStack (blk / 512)
  let l := gatherOf s k
  match l.find? (·.block == blk) with
  | some g =>
    let g' : GatherBlk := { g with mask := g.mask ||| blockMask off n, bad := g.bad || poison }
    if g'.mask = BitVec.allOnes 4096 then
      flushEntry (setGather s k (l.filter (·.block != blk))) g'
    else setGather s k (l.map fun x => if x.block == blk then g' else x)
  | none =>
    let g : GatherBlk := { block := blk, mask := blockMask off n, bad := poison }
    if l.length < 32 then setGather s k (l ++ [g])
    else match l with
      | o :: r => setGather (flushEntry (setGather s k r) o) k (gatherOf (flushEntry (setGather s k r) o) k ++ [g])
      | [] => setGather s k [g]

/-- A write within one block of stacked memory (R343 to R345) (DEDUCED, log 25). -/
def calWriteBlock (s : State) (a : Nat) (bs : List Byte) (poison rectified : Bool) : State :=
  let blk := a / 4096
  let s1 := s.wr a bs
  let s2 := if poison then modBlock s1 blk fun e => { e with poison := true } else s1
  if bs.length = 4096 then
    codeBlock (if isCoded s (blk / 512) then setGather s1 (frameStack (blk / 512))
      ((gatherOf s1 (frameStack (blk / 512))).filter (·.block != blk)) else s1) blk rectified poison
  else if isCoded s (blk / 512) then gatherWrite s2 blk (a % 4096) bs.length poison
  else partialBlock s2 blk poison

/-- A write to stacked memory, block by block. `n` bounds the blocks. -/
def calWrite : Nat → State → Nat → List Byte → Bool → Bool → State
  | 0, s, _, _, _, _ => s
  | n + 1, s, a, bs, poison, rectified =>
    if bs.isEmpty then s else
    let here := 4096 - a % 4096
    calWrite n (calWriteBlock s a (bs.take here) poison rectified) (a + here) (bs.drop here) poison rectified

/-- Every block of the frame becomes ZERO, its bytes zero (R342, R358). -/
def zeroFrame (s : State) (f : Nat) : State :=
  let s1 := (dropGather s f).zero (f * 0x200000) 0x200000
  s1.modFrec f fun r => { r with blocks := ⟨[]⟩, recode := false }

/-- Set the context whose key encrypts a frame (R360). -/
def setKeyCtx (s : State) (f x : Nat) : State := s.modFrec f fun r => { r with keyCtx := BitVec.ofNat 12 x }

/-- Erase a frame: every block ZERO and KEY_CTX 0 (R358). -/
def eraseFrame (s : State) (f : Nat) : State := setKeyCtx (zeroFrame s f) f 0

/-- Copy one frame to another: stored units and the frame record, KEY_CTX apart (R356). -/
def copyFrame (s : State) (src dst : Nat) : State :=
  let s1 := dropGather (flushFrame s src) dst
  let r := s1.frec src
  let s2 : State := { s1 with mem := s1.mem.copyTo (src * 0x200000) 0x200000 (dst * 0x200000) }
  syncComp (s2.modFrec dst fun d => { d with blocks := r.blocks, dtslot := r.dtslot, recode := r.recode }) dst

/-- A line of stacked memory is delivered poisoned (R340, R355). -/
def blockPoisoned (s : State) (a : Nat) : Bool := (blockEnt s (a / 4096)).poison

/-! What the decoder checks (R355) -/

/-- A coded block is undecodable: its header disagrees with its index entry, or names a FREE slot or another
version (DEDUCED, log 32). -/
def undecodable (s : State) (e : IndexEnt) : Bool :=
  e.code = .table &&
    let t := s.cal.slots.get e.slot.toNat
    t.st = .free || decide (t.version.setWidth 8 ≠ e.ver)

/-- A read of a block that does not decode sets its flag, poisons it and makes the ring entry (R355). -/
def decodeCheck (s : State) (blk : Nat) : State :=
  if undecodable s (blockEnt s blk) then
    let k := frameStack (blk / 512)
    ringAdd (modBlock (s.ror (Reg.calStatus k) 4) blk fun e => { e with poison := true })
      { kind := 0x25, cls := .event, unitType := 7, unit := blk / 512,
        detail := detailOf [(28, 1, blk % 512), (29, 1, 2)] }
  else s

/-! Slots (R350 to R353) -/

/-- Change a decode table slot. -/
def modTable (s : State) (k : Nat) (f : TableSlot → TableSlot) : State :=
  { s with cal := { s.cal with slots := s.cal.slots.mod k f } }

/-- Publish the slot registers (R362) (DEDUCED, log 62). -/
def syncSlots (s : State) : State :=
  let code : TableSt → Nat := fun | .free => 0 | .loading => 1 | .current => 2 | .retiring => 3
  let v := (List.range 4).foldl (fun acc k => acc + at_ (2 * k) 2 (code (s.cal.slots.get k).st)) 0
  let s1 := s.rset Reg.calSlotState (BitVec.ofNat 32 (v + at_ 8 1 (b2n s.cal.wait.isSome)))
  (List.range 4).foldl (fun s k => (s.rset (Reg.calSlotVersion k)
    (if (s.cal.slots.get k).st = .free then 0 else (s.cal.slots.get k).version))) s1

/-- A waiting load takes a FREE slot (R350). -/
def takeWaiting (s : State) (k : Nat) : State :=
  match s.cal.wait with
  | some w =>
    modTable { s with cal := { s.cal with wait := none } } k fun _ =>
      { st := .loading, version := w.version, lengths := w.lengths, load := some (w.box, w.sn) }
  | none => s

/-- A slot becomes FREE and a waiting load takes it (R350). -/
def freeSlot (s : State) (k : Nat) : State :=
  takeWaiting (modTable s k fun _ => { st := .free, version := 0, lengths := [], load := none }) k

/-- A slot enters RETIRING and is judged at once (R350). -/
def retireSlot (s : State) (k : Nat) : State :=
  if queuedOf s k = 0 then freeSlot s k else modTable s k fun t => { t with st := .retiring }

/-- TABLE_LOAD_COMPLETE: a LOADING slot becomes CURRENT and its load is answered (R350). -/
def execTableLoadComplete (slot : Fin 4) (s : State) : Host.Outcome State Fault Refusal :=
  let k := slot.val
  let t := s.cal.slots.get k
  if t.st ≠ .loading then .next s else
  let s1 := match currentSlot s with
    | some c => retireSlot s c
    | none => s
  let s2 := syncSlots (modTable s1 k fun t => { t with st := .current, load := none })
  .next (match t.load with
    | some (m, sn) => respond s2 m sn { status := stOk, result := [(16, 1, k)] }
    | none => s2)

/-- TABLE_SLOT_FREE: a RETIRING slot whose QUEUED count is zero becomes FREE (R350). -/
def execTableSlotFree (slot : Fin 4) (s : State) : Host.Outcome State Fault Refusal :=
  if (s.cal.slots.get slot.val).st = .retiring ∧ queuedOf s slot.val = 0 then
    .next (syncSlots (freeSlot s slot.val))
  else .next s

/-- WRITE_GATHER_FLUSH: the gather entry of a block of stack `k` is flushed (R343). -/
def execWriteGatherFlush (stk : StackId) (block : BitVec 25) (s : State) : Host.Outcome State Fault Refusal :=
  if block.toNat < 20971520 then .next (flushBlock s (stk.val * 20971520 + block.toNat)) else .fault .illFormed

/-- Seal the RAW blocks of a frame that no seal has tried: a block is written back only when it is no longer RAW
(R346). -/
def sealFrame (s : State) (f : Nat) : State :=
  (s.frec f).blocks.keys.foldl (fun s i =>
    let blk := f * 512 + i
    let e := blockEnt s blk
    if e.code = .raw && !e.sealed then
      let s1 := codeBlock s blk false e.poison
      modBlock (if (blockEnt s1 blk).code = .raw then s else s1) blk fun e => { e with sealed := true }
    else s) s

/-- Queue a frame for sealing, or drop it at 4,096 (R346). -/
def queueSeal (s : State) (f : Nat) : State :=
  let k := frameStack f
  let q := s.cal.sealQ.get k
  if q.contains f then s
  else if q.length < 4096 then { s with cal := { s.cal with sealQ := s.cal.sealQ.set k (q ++ [f]) } }
  else s.ror (Reg.calStatus k) 0x40

/-- SEAL: the idle controller's sweeper seals the first frame of its queue (R346). -/
def execSeal (stk : StackId) (s : State) : Host.Outcome State Fault Refusal :=
  match s.cal.sealQ.get stk.val, s.rbit Reg.calCtrl 1 with
  | f :: r, true =>
    let s1 : State := { s with cal := { s.cal with sealQ := s.cal.sealQ.set stk.val r } }
    .next ((sealFrame (flushFrame s1 f) f).radd Reg.calSeals 1)
  | _, _ => .next s

/-- A frame of the stack whose DTSLOT is RETIRING and that has TABLE blocks of that slot (R353). -/
def recodeFrame (s : State) (k : Nat) : Option (Nat × Nat) :=
  s.cal.recs.cells.foldl (fun best c =>
    if best.isNone && frameStack c.1 == k then
      match c.2.blocks.cells.find? fun b =>
        b.2.code = .table && (s.cal.slots.get b.2.slot.toNat).st = .retiring with
      | some b => some (c.1, b.2.slot.toNat)
      | none => none
    else best) none

/-- RECODE: the idle sweeper recodes the TABLE blocks of one frame that name a RETIRING slot (R353). -/
def execRecode (stk : StackId) (s : State) : Host.Outcome State Fault Refusal :=
  match recodeFrame s stk.val, s.rbit Reg.calCtrl 2 with
  | some (f, old), true =>
    let s1 := s.modFrec f fun r =>
      { r with recode := true, dtslot := match currentSlot s with | some k => BitVec.ofNat 2 k | none => r.dtslot }
    let s2 := (s1.frec f).blocks.keys.foldl (fun s i =>
      let e := blockEnt s (f * 512 + i)
      if e.code = .table && e.slot.toNat == old then codeBlock s (f * 512 + i) false e.poison else s) s1
    .next (syncComp (s2.modFrec f fun r => { r with recode := false }) f)
  | _, _ => .next s

/-- The Calender is idle for RWL purposes: no load in progress or waiting, and the sweeper stopped (R362)
(DEDUCED, log 32). -/
def calIdle (s : State) : Bool :=
  s.cal.wait.isNone && (List.range 4).all (fun k => (s.cal.slots.get k).st != .loading) &&
    (!s.rbit Reg.calCtrl 1 || s.cal.sealQ.cells.isEmpty) &&
    (!s.rbit Reg.calCtrl 2 || (List.range 24).all fun k => (recodeFrame s k).isNone)

end Sys2Proof.Machine
end

