-- ==== Sys2Proof/Machine/Str.lean ====
section
/-! DEFINITION. The stream table (R257 to R260), stream images (R261) and releases (R270, R272, R274). -/

namespace Sys2Proof.Machine

/-- A device write to stacked memory in whole bytes, no poison and no rectified tag. -/
def State.devWr (s : State) (a : Nat) (bs : List Byte) : State := calWrite 1024 s a bs false false

/-- Base and size of the stream table (R257, R284). -/
def strBase (s : State) : Nat := s.rnat Reg.strTableBaseLo + 0x100000000 * s.rnat Reg.strTableBaseHi
def strCount (s : State) : Nat :=
  if s.rbit Reg.strTableCtrl 5 then 2 ^ s.rfld Reg.strTableCtrl 0 5 else 0

/-- A stream table entry as a 256-bit number (R259). -/
def strGet (s : State) (id : Nat) : Nat := s.rdN (strBase s + 32 * id) 32

/-- Write a stream table entry. -/
def strPut (s : State) (id v : Nat) : State := s.devWr (strBase s + 32 * id) (leBytes 32 v)

/-- Change a field of a stream table entry: bit, width, value. -/
def strSetFld (s : State) (id lo n v : Nat) : State := strPut s id (setFld (strGet s id) lo n v)

/-! Fields of an entry (R259) -/
def eState (v : Nat) : Nat := fld v 0 3
def eDirty (v : Nat) : Bool := bit v 3
def eOwner (v : Nat) : Nat := fld v 4 12
def eCg (v : Nat) : Nat := fld v 16 5
def eRows (v : Nat) : Nat := fld v 21 4
def eRenorm (v : Nat) : Nat := fld v 25 6
def eCore (v : Nat) : Nat := fld v 32 12
def eSlot (v : Nat) : Nat := fld v 44 5
def eMigrate (v : Nat) : Bool := bit v 49
def eRcnt (v : Nat) : Nat := fld v 50 6
def eQueued (v : Nat) : Nat := fld v 56 8
def eHome (v : Nat) : Nat := fld v 64 48
def eSteps (v : Nat) : Nat := fld v 128 64

/-- An entry built from its fields. -/
def mkStr (state owner cg rows renorm rcnt home steps : Nat) : Nat :=
  at_ 0 3 state + at_ 4 12 owner + at_ 16 5 cg + at_ 21 4 rows + at_ 25 6 renorm + at_ 50 6 rcnt +
    at_ 64 48 home + at_ 128 64 steps

/-- Bytes of a stream image (R261). -/
def imageLen (cg rows : Nat) : Nat := 64 + rows * cg * 128

/-- The device address of a stream's image: for a branch stream, within the frame of the branch's state
page while that page holds a frame (R260). -/
def strHome (s : State) (id : Nat) : Option Nat :=
  let h := eHome (strGet s id)
  if id < 262144 then
    let e := s.page (s.branch id).pageList.toNat
    match e.st with
    | .live | .moving => some (e.frame.toNat * 0x200000 + h)
    | _ => none
  else some h

/-- The state store address of a stream slot: 4,096 bytes each (R276). -/
def slotAddr (c k : Nat) : Nat := stsAddr c (k * 4096)

/-- Some line of a range of an on-chip store or of companion memory is poisoned. -/
def anyPoison (s : State) (a n : Nat) : Bool := (linesOf a n).any fun l => s.poison.get l != 0

/-- Write the image of a resident stream from its slot to an address (R270, R278). -/
def writeImage (s : State) (id dst : Nat) : State :=
  let v := strGet s id
  let n := imageLen (eCg v) (eRows v)
  let a := slotAddr (eCore v) (eSlot v)
  calWrite 1024 s dst (s.rd a n) (anyPoison s a n) false

/-- Empty a core's stream slot. -/
def clearSlot (s : State) (c k : Nat) : State :=
  s.modCore c fun x => { x with strSlots := x.strSlots.set k default }

/-- The stream gives up its slot and is IDLE (R270). -/
def toIdle (s : State) (id : Nat) : State :=
  let v := strGet s id
  let w := setFld (setFld (setFld (setFld (setFld v 0 3 1) 3 1 0) 32 12 0) 44 5 0) 49 1 0
  strPut (clearSlot s (eCore v) (eSlot v)) id w

/-- Begin the release of a RESIDENT stream: IDLE when clean, WRITING when dirty (R270). The image is written at once,
unless its state page holds no frame. -/
def releaseStream (s : State) (id : Nat) : State :=
  let v := strGet s id
  if eState v ≠ 3 then s
  else if eDirty v then
    match strHome s id with
    | some h => (strSetFld (writeImage s id h) id 0 4 4).radd Reg.strWritebacks 1
    | none => (strSetFld s id 0 3 4).radd Reg.strWritebacks 1
  else toIdle s id

/-- A stream is freed without write-back (R272, R274). -/
def freeStream (s : State) (id : Nat) : State :=
  let v := strGet s id
  let s1 := if 2 ≤ eState v ∧ eState v ≤ 4 then clearSlot s (eCore v) (eSlot v) else s
  { strPut s1 id 0 with claims := s1.claims.filter (·.stream != id) }

/-- A stream goes back to its last HOME image: its slot is lost (R277, R497). -/
def rollbackStream (s : State) (id : Nat) : State :=
  let v := strGet s id
  if eState v = 2 ∨ eState v = 3 ∨ (eState v = 4 ∧ eDirty v) then (toIdle s id).ror Reg.strStatus 1
  else if eState v = 4 then toIdle s id
  else s

/-- The stream of a child branch (R275): IDLE, with the parent's geometry, STEPS and RCNT. When the parent's
stream is RESIDENT and DIRTY its slot image is written over the child's image region, at `dst`, under the
child's identifier. -/
def forkStream (s : State) (parent child dst : Nat) : State :=
  let v := strGet s parent
  if eState v = 0 then s else
  let entry := mkStr 1 (eOwner v) (eCg v) (eRows v) (eRenorm v) (eRcnt v) (eHome v) (eSteps v)
  let s1 := if eState v = 3 ∧ eDirty v then writeImage s parent (dst + eHome v) else s
  let s2 := s1.devWr (dst + eHome v) (leBytes 4 child)
  strPut s2 child entry

end Sys2Proof.Machine
end

