-- ==== Sys2Proof/Machine/Vat.lean ====
section
/-! DEFINITION. The Vat (chapter 10): frames, allocation, eviction, reference counts, page lists and the
copies of a fork. -/

namespace Sys2Proof.Machine

/-! Frames (R285, R303) -/

/-- The next `n` usable Vat frames from `f` upward (R285). `fuel` bounds the frames looked at. -/
def collectFrames (gone : List Nat) : Nat → Nat → Nat → List Nat
  | 0, _, _ => []
  | fuel + 1, f, n =>
    if n = 0 then []
    else if isLastFrame f || gone.contains f then collectFrames gone fuel (f + 1) n
    else f :: collectFrames gone fuel (f + 1) (n - 1)

/-- The Vat frames of die `d`, ascending (R285). -/
def vatFrames (s : State) (d : Nat) : List Nat :=
  collectFrames s.vat.gone 122880 (s.rnat (Reg.vatFrameBase d)) (s.rnat (Reg.vatFrameCount d))

/-- The free Vat frames of die `d`. -/
def freeFrames (s : State) (d : Nat) : List Nat := (vatFrames s d).filter fun f => s.vat.bound.get f == 0

/-- VAT_FREEd (R316). -/
def vatFree (s : State) (d : Nat) : Nat := (freeFrames s d).length

/-- U_c: frames held by pages with OWNER c (R303). -/
def usedBy (s : State) (x : Nat) : Nat :=
  (s.vat.bound.cells.filter fun c => c.2 != 0 && (s.page (c.2 - 1)).owner.toNat == x &&
    (s.page (c.2 - 1)).st != .retired).length

/-- R_c (R303). -/
def reserveOf (s : State) (x : Nat) : Nat := (s.ctx x).reserve.toNat

/-- The unreserved headroom H (R303). -/
def headroom (s : State) : Int :=
  ((List.range 8).foldl (fun n d => n + vatFree s d) 0 : Nat) -
    (s.arm.ctxs.keys.foldl (fun n x => n + (reserveOf s x - usedBy s x)) 0 : Nat)

/-- The die of a list with the most free frames, ties to the lowest (R300). -/
def mostFree (s : State) (dies : List Nat) : Option Nat :=
  dies.foldl (fun best d =>
    match best with
    | some b => if vatFree s b < vatFree s d then some d else some b
    | none => some d) none

/-- The dies that hold quires of a partition, ascending (R300). -/
def partDies (s : State) (p : Nat) : List Nat :=
  (List.range 8).filter fun d => fld (s.part p).quires.toNat (16 * d) 16 != 0

/-- The die where an allocation first looks (R300): the home die while its free frames exceed VAT_LOWd. -/
def chosenDie (s : State) (home : Option Nat) (dies : List Nat) : Nat :=
  match home with
  | some h => if s.rnat (Reg.vatLow h) < vatFree s h then h else (mostFree s dies).getD 0
  | none => (mostFree s dies).getD 0

/-! Pages and reference counts (R290) -/

/-- The reference count of a page (R290). -/
def VatEnt.count (e : VatEnt) : Nat := b2n e.pin + (if e.held then e.refcnt.toNat + 1 else 0)

/-- VAT_TICK[15:0]. -/
def tick16 (s : State) : BitVec 16 := s.vat.tick.setWidth 16

/-- The age of a page in ticks (R302). -/
def ageOf (s : State) (e : VatEnt) : Nat := (tick16 s - e.age).toNat

/-- Touch a page (R302). -/
def touch (s : State) (p : Nat) : State := s.modPage p fun e => { e with age := tick16 s }

/-- Retire a frame that no page holds any more: it is bound to the lowest free page number (R313). -/
def lowestFreePage (s : State) : Option Nat :=
  let p := s.vat.map.keys.foldl (fun n k => if k = n then n + 1 else n) 0
  if p < 524288 then some p else none

/-- Bind a frame to a page in state RETIRED (R313). -/
def bindRetired (s : State) (f : Nat) : State :=
  let s1 : State := { s with vat := { s.vat with toRetire := s.vat.toRetire.filter (· != f) } }
  let s2 := (s1.radd Reg.vatRetiredPages 1).ror Reg.vatStatus 0x10
  match lowestFreePage s2 with
  | some p =>
    let s3 := s2.modPage p fun e => { e with st := .retired, frame := BitVec.ofNat 20 f }
    { s3 with vat := { s3.vat with bound := s3.vat.bound.set f (p + 1) } }
  | none => { s2 with vat := { s2.vat with gone := insNat f s2.vat.gone } }

/-- A frame loses its page: it is free, or retired when its retirement waited for this (R313). -/
def unbind (s : State) (f : Nat) : State :=
  let s1 : State := { s with vat := { s.vat with bound := s.vat.bound.set f 0 } }
  let s2 := dropGather s1 f
  if s2.vat.toRetire.contains f then bindRetired s2 f else s2

/-- Free a page whose count is zero (R289, R301): its frame or swap slot is freed, its entry is FREE, and its
reference on SRC_PAGE is to be removed. -/
def freePage (s : State) (p : Nat) : State :=
  let e := s.page p
  let s1 := match e.st with
    | .live | .copying | .moving => unbind s e.frame.toNat
    | .exported => { s with vat := { s.vat with swap := s.vat.swap.set e.frame.toNat 0 } }
    | _ => s
  let s2 := s1.modPage p fun _ => default
  if e.srcValid then
    { s2 with vat := { s2.vat with refq := s2.vat.refq ++ [{ page := e.srcPage.toNat, up := false, branch := 0 }] } }
  else s2

/-- A page whose count has reached zero is freed at once in LIVE, DROPPED and EXPORTED, else when its
transfer ends (R289). -/
def settle (s : State) (p : Nat) : State :=
  let e := s.page p
  if e.count = 0 then
    match e.st with
    | .live | .dropped | .exported => freePage s p
    | _ => s
  else s

/-- Add one reference to a page (R290). -/
def refUp (s : State) (p : Nat) : State :=
  s.modPage p fun e => if e.held then { e with refcnt := e.refcnt + 1 } else { e with held := true, refcnt := 0 }

/-- Remove one reference from a page (R290, R301). -/
def refDown (s : State) (p : Nat) : State :=
  settle (s.modPage p fun e =>
    if e.refcnt = 0 then { e with held := false } else { e with refcnt := e.refcnt - 1 }) p

/-- Accept a change of a reference count (R287, R292). -/
def queueRef (s : State) (page : Nat) (up : Bool) (branch : Nat) : State :=
  { s with vat := { s.vat with refq := s.vat.refq ++ [{ page := page, up := up, branch := branch }] } }

/-- The first queued change of a page. -/
def firstRef (l : List RefOp) (p : Nat) : Option RefOp := l.find? (·.page == p)

/-- Remove the first queued change of a page. -/
def dropRef (p : Nat) : List RefOp → List RefOp
  | [] => []
  | o :: r => if o.page = p then r else o :: dropRef p r

/-! Eviction (R304, R305) -/

/-- AGE_FLOOR: 1 to 32,768, 0 taken as 1 (R316). -/
def ageFloor (s : State) : Nat := max 1 (min 32768 (s.rfld Reg.vatCtrl 4 16))

/-- Companion offset of a swap slot (R316, R440). -/
def swapAddr (s : State) (k : Nat) : Nat :=
  s.rnat Reg.vatSwapBaseLo + 0x100000000 * s.rnat Reg.vatSwapBaseHi + k * 0x200000

/-- Where the bytes of a page stand: in its frame, or in its swap slot. -/
def pageBase (s : State) (p : Nat) : Nat :=
  let e := s.page p
  match e.st with
  | .exported => compBase + swapAddr s e.frame.toNat
  | .importing => compBase + swapAddr s e.other
  | _ => e.frame.toNat * 0x200000

/-- A page list entry of a state page (R293). -/
def listEntry (s : State) (statePage i : Nat) : Nat := s.rdN (pageBase s statePage + 4 * i) 4 % 524288

/-- Write a page list entry (R293). -/
def setListEntry (s : State) (statePage i v : Nat) : State :=
  s.devWr ((s.page statePage).frame.toNat * 0x200000 + 4 * i) (leBytes 4 v)

/-- The pages a branch must keep while it is FORKING, ROSTERED or SCORED: its state page, its tail and its
lookahead pages (R304) (DEDUCED, log 47). -/
def pinnedOf (s : State) (b : Branch) : List Nat :=
  match b.st with
  | .forking | .rostered | .scored =>
    if !b.need.isEmpty then [] else
    let k := b.pageCount.toNat - 1
    b.pageList.toNat :: ((List.range (b.la + 1)).filter (· < k)).map fun i => listEntry s b.pageList.toNat (k - 1 - i)
  | _ => []

/-- Drop-eligible (R304). -/
def dropEligible (s : State) (p : Nat) : Bool :=
  let e := s.page p
  e.st = .live && e.cls = 0 && e.srcValid && e.busy == 0 && (s.ctx e.owner.toNat).par.rebuildEn

/-- A free swap slot, lowest first (R289). -/
def freeSwap (s : State) : Option Nat :=
  let k := s.vat.swap.keys.foldl (fun n k => if k = n then n + 1 else n) 0
  if k < s.rnat Reg.vatSwapSlots then some k else none

/-- Export-eligible but for the swap slot (R304). -/
def exportWanted (s : State) (p : Nat) : Bool :=
  let e := s.page p
  e.st = .live && !dropEligible s p && !e.pin && e.busy == 0 && s.rbit Reg.vatCtrl 1 &&
    !(s.roll.branches.cells.any fun b => (pinnedOf s b.2).contains p)

/-- Drop a page (R289). -/
def dropPage (s : State) (p : Nat) : State :=
  let f := (s.page p).frame.toNat
  let s1 := s.modPage p fun e => { e with st := .dropped, frame := 0, comp := false }
  ((unbind s1 f).radd Reg.vatDrops 1).ror Reg.vatStatus 2

/-- Begin the export of a page to a swap slot: the write of its 2 MiB to the companion, one request for its
512 packets, with the poisoned blocks recorded (R289, R357; DESIGN CHOICE, log 11). -/
def exportPage (s : State) (p slot : Nat) : State :=
  let f := (s.page p).frame.toNat
  let s1 := flushFrame s f
  let map := (s1.frec f).blocks.cells.foldl (fun n c => n + at_ c.1 1 (b2n c.2.poison)) 0
  let dst := swapAddr s1 slot
  let s2 : State := { s1 with
    mem := s1.mem.copyTo (f * 0x200000) 0x200000 (compBase + dst)
    vat := { s1.vat with swap := s1.vat.swap.set slot (p + 1)
                         swapPoison := s1.vat.swapPoison.set slot (BitVec.ofNat 512 map) } }
  let s3 := s2.modPage p fun e => { e with st := .exporting, other := slot }
  requestCch (dropCached s3 dst 0x200000) (mkCch 2 false 0 dst 4096) (.vatExport p)

/-- Frames of a die from its hand, one full turn (R305), with their positions. -/
def handTurn (s : State) (d : Nat) : List (Nat × Nat) :=
  let fs := vatFrames s d
  let n := fs.length
  let h := s.vat.hand.get d % max n 1
  (List.range n).map fun i => ((h + i) % n, fs.getD ((h + i) % n) 0)

/-- The first frame of a turn whose page may be dropped at age `t`: position and page. -/
def findDrop (s : State) (allowed : Nat → Bool) (t : Nat) : List (Nat × Nat) → Option (Nat × Nat)
  | [] => none
  | (i, f) :: r =>
    match s.vat.bound.get f with
    | 0 => findDrop s allowed t r
    | p + 1 =>
      if allowed (s.page p).owner.toNat && dropEligible s p && decide (t ≤ ageOf s (s.page p)) then some (i, p)
      else findDrop s allowed t r

/-- The first frame of a turn whose page may be exported, the swap slot apart. -/
def findExport (s : State) (allowed : Nat → Bool) : List (Nat × Nat) → Option (Nat × Nat)
  | [] => none
  | (i, f) :: r =>
    match s.vat.bound.get f with
    | 0 => findExport s allowed r
    | p + 1 =>
      if allowed (s.page p).owner.toNat && exportWanted s p && decide (ageFloor s ≤ ageOf s (s.page p)) then some (i, p)
      else findExport s allowed r

/-- The drop passes of R305: the threshold halves from 32,768 to AGE_FLOOR. -/
def dropPasses (s : State) (allowed : Nat → Bool) (turn : List (Nat × Nat)) : Nat → Nat → Option (Nat × Nat)
  | 0, _ => none
  | n + 1, a =>
    let t := max a (ageFloor s)
    match findDrop s allowed t turn with
    | some r => some r
    | none => if t = ageFloor s then none else dropPasses s allowed turn n (a / 2)

/-- What an eviction did. -/
inductive Evicted where
  | none
  | dropped (frame : Nat)
  | exporting
  deriving DecidableEq, Repr

/-- Move the hand past a position (R305). -/
def setHand (s : State) (d i : Nat) : State :=
  { s with vat := { s.vat with hand := s.vat.hand.set d ((i + 1) % max (vatFrames s d).length 1) } }

/-- One eviction on die `d` (R305). -/
def evictOne (s : State) (d : Nat) (allowed : Nat → Bool) : State × Evicted :=
  let turn := handTurn s d
  match dropPasses s allowed turn 17 32768 with
  | some (i, p) => (setHand (dropPage s p) d i, .dropped (s.page p).frame.toNat)
  | none =>
    match findExport s allowed turn with
    | some (i, p) =>
      match freeSwap s with
      | some k => (setHand (exportPage s p k) d i, .exporting)
      | none => (s.ror Reg.vatStatus 0x40, .none)
    | none => (s, .none)

/-- Evict for a waiting allocation: the dies in the order given (R305). -/
def evictFor (allowed : Nat → Bool) : List Nat → State → State × Evicted
  | [], s => (s, .none)
  | d :: r, s =>
    match evictOne s d allowed with
    | (s1, .none) => evictFor allowed r s1
    | r => r

/-! Allocation (R286, R300, R303) -/

/-- How an allocation ended: a page or frame, no frame to be had, or a wait for an export that has begun. -/
inductive Got where
  | ok (n : Nat)
  | full
  | wait
  deriving DecidableEq, Repr

/-- An allocation has failed (R305). -/
def vatFull (s : State) : State := s.ror Reg.vatStatus 1

/-- Take a free frame of die `d`: which one is free (DESIGN CHOICE, log 12). -/
def takeFrame (s : State) (d : Nat) : State × Got :=
  let fs := freeFrames s d
  let (v, s1) := s.draw
  match fs with
  | [] => (s, .full)
  | f :: _ => (s1, .ok (fs.getD (v.toNat % fs.length) f))

/-- A frame for context `x`: a free one, or the one that its eviction frees (R300, R303, R305). -/
def allocFrame (s : State) (x : Nat) (home : Option Nat) (dies : List Nat) : State × Got :=
  let chosen := chosenDie s home dies
  let may := decide (usedBy s x < reserveOf s x) || decide (0 < headroom s)
  let from_ := if vatFree s chosen ≠ 0 then some chosen
    else match mostFree s dies with
      | some d => if vatFree s d ≠ 0 then some d else (mostFree s (List.range 8)).filter fun d => vatFree s d != 0
      | none => (mostFree s (List.range 8)).filter fun d => vatFree s d != 0
  match may, from_ with
  | true, some d => takeFrame s d
  | _, _ =>
    let order := chosen :: (List.range 8).filter (· != chosen)
    match evictFor (fun o => o == x || decide (reserveOf s o < usedBy s o)) order s with
    | (s1, .dropped f) => (s1, if s1.vat.bound.get f = 0 then .ok f else .wait)
    | (s1, .exporting) => (s1, .wait)
    | (s1, .none) => (vatFull s1, .full)

/-- Bind a frame to a page: the reverse map, KEY_CTX and LAST_DIE (R287, R288, R360). -/
def bindFrame (s : State) (p f x : Nat) : State :=
  let s1 : State := { s with vat := { s.vat with bound := s.vat.bound.set f (p + 1) } }
  let s2 := s1.modPage p fun e => { e with frame := BitVec.ofNat 20 f, lastDie := BitVec.ofNat 3 (frameDie f) }
  syncComp (setKeyCtx s2 f x) f

/-- Allocate a page of class `cls` for context `x` (R286, R289): contents zero and LIVE, or COPYING for a copy
target. The page carries one reference, or PIN. -/
def allocPage (s : State) (x cls : Nat) (pin copy : Bool) (home : Option Nat) (dies : List Nat) : State × Got :=
  if !s.rbit Reg.vatCtrl 0 then (vatFull s, .full) else
  match lowestFreePage s with
  | none => (vatFull s, .full)
  | some p =>
    match allocFrame s x home dies with
    | (s1, .ok f) =>
      let ent : VatEnt := { (default : VatEnt) with
        st := if copy then .copying else .live
        cls := BitVec.ofNat 2 cls
        pin := pin
        held := !pin
        owner := BitVec.ofNat 12 x
        age := tick16 s1 }
      (bindFrame ((zeroFrame s1 f).modPage p fun _ => ent) p f x, .ok p)
    | (s1, g) => (s1, g)

/-- Allocate `n` pages: all, or how it failed with what was allocated. -/
def allocPages (x cls : Nat) (home : Option Nat) (dies : List Nat) : Nat → State → List Nat → State × Got × List Nat
  | 0, s, acc => (s, .ok 0, acc)
  | n + 1, s, acc =>
    match allocPage s x cls false false home dies with
    | (s1, .ok p) => allocPages x cls home dies n s1 (acc ++ [p])
    | (s1, g) => (s1, g, acc)

/-! Page geometry (R248, R249) -/

/-- Attention layers L, key/value heads H, positions per step, positions per page P and S_UNITS of a geometry
record (R248). -/
def gLayers (g : Nat) : Nat := fld g 0 10
def gHeads (g : Nat) : Nat := fld g 16 7
def gDim (g : Nat) : Nat := fld g 32 9
def gFmt (g : Nat) : Nat := fld g 48 5
def gPosStep (g : Nat) : Nat := fld g 64 13
def gPage (g : Nat) : Nat := fld g 80 16
def gUnits (g : Nat) : Nat := fld g 96 16

/-- The geometry of the step program of a partition. -/
def geomOf (s : State) (p : Nat) : Nat :=
  match (s.part p).program with
  | some pr => pr.kvgeom.toNat
  | none => 0

/-- F: positions in the tail page (R295). -/
def tailPos (g : Nat) (b : Branch) : Nat := b.tailFill.toNat / max 1 (gUnits g)

/-- Lookahead pages of a branch (R295). -/
def lookahead (g : Nat) (b : Branch) : Nat :=
  if 2 ≤ b.pageCount.toNat then ceilDiv (tailPos g b + gPosStep g) (max 1 (gPage g)) - 1
  else ceilDiv (gPosStep g) (max 1 (gPage g))

/-- A KV page leaves the tail (R296): its source is recorded, the state page gains a reference, and its frame
is queued for sealing (R346). -/
def leaveTail (s : State) (page statePage kidx layers : Nat) : State :=
  let s1 := s.modPage page fun e => { e with
    srcValid := true, srcPage := BitVec.ofNat 19 statePage, kidx := BitVec.ofNat 12 kidx, layer := BitVec.ofNat 10 layers }
  queueSeal (refUp s1 statePage) (s.page page).frame.toNat

/-- The pages a branch's list names: KV entries, then the state page (R293). -/
def listPages (s : State) (b : Branch) : List Nat :=
  if b.pageCount = 0 then [] else
  ((List.range (b.pageCount.toNat - 1)).map fun i => listEntry s b.pageList.toNat i) ++ [b.pageList.toNat]

/-- Release a branch's pages: one decrement for each page its list names (R301). -/
def releasePages (s : State) (id : Nat) : State :=
  (listPages s (s.branch id)).foldl (fun s p => queueRef s p false (id + 1)) s

/-- The home die of a branch: LAST_DIE of its state page (R300). -/
def homeDie (s : State) (b : Branch) : Nat := (s.page b.pageList.toNat).lastDie.toNat

/-- The source pages whose copy a fork needs: the parent's state page, and its tail when it is not full
(R298) (DEDUCED, log 47). -/
def forkSources (s : State) (g : Nat) (parent : Branch) : List Nat :=
  let k := parent.pageCount.toNat - 1
  if 1 ≤ k ∧ tailPos g parent < gPage g then
    [parent.pageList.toNat, listEntry s parent.pageList.toNat (k - 1)]
  else [parent.pageList.toNat]

/-- Begin the import of an EXPORTED page: a frame is taken and the read from the swap slot begins (R289, R310). -/
def startImport (s : State) (p : Nat) (dies : List Nat) : State :=
  let e := s.page p
  if e.st ≠ .exported then s else
  match allocFrame s e.owner.toNat (some e.lastDie.toNat) dies with
  | (s1, .ok f) =>
    let slot := e.frame.toNat
    let s2 := bindFrame ((zeroFrame s1 f).modPage p fun e => { e with st := .importing, other := slot }) p f e.owner.toNat
    requestCch s2 (mkCch 1 false 0 (swapAddr s2 slot) 4096) (.vatImport p slot)
  | (s1, _) => s1

/-- A page that must hold a frame: it does, or its import is awaited, or no frame can be had for it. -/
def needFrame (s : State) (p : Nat) (dies : List Nat) : State × Got :=
  match (s.page p).st with
  | .live | .moving => (s, .ok p)
  | .exported =>
    let s1 := startImport s p dies
    (s1, if (s1.page p).st = .exported && !(s1.vat.map.cells.any fun c => c.2.st = .exporting) then .full else .wait)
  | _ => (s, .wait)

/-- Allocate and make the copies that a FORKING child still needs (R298): its state page, then its tail copy.
The bytes are those of the sources now. Answers whether a frame was refused. -/
def forkCopies (dies : List Nat) : Nat → State → Nat → State × Got
  | 0, s, _ => (s, .ok 0)
  | n + 1, s, id =>
    let b := s.branch id
    match b.need with
    | [] => (s, .ok 0)
    | src :: rest =>
      let e := s.page src
      match needFrame s src dies with
      | (s0, .wait) => (s0, .wait)
      | (s0, .full) => (s0, .full)
      | (_, .ok _) =>
      match allocPage s e.owner.toNat e.cls.toNat false true (some (homeDie s (s.branch b.parent))) dies with
      | (s1, .ok p) =>
        let s2 := copyFrame (touch s1 src) e.frame.toNat (s1.page p).frame.toNat
        let s3 := s2.modPage p fun e => { e with cls := if b.copies.isEmpty then 1 else 0 }
        let s4 := (s3.modBranch id fun b => { b with need := rest, copies := b.copies ++ [(src, p)] }).modPage src
          fun e => { e with busy := e.busy - 1 }
        forkCopies dies n s4 id
      | (s1, g) => (s1, g)

/-- Once every copy of a FORKING child exists: its list entries, its stream, and the increments of the pages it
shares (R298 steps 3, 5 and 6). -/
def forkWire (s : State) (id : Nat) (g : Nat) : State :=
  let b := s.branch id
  let par := s.branch b.parent
  match b.copies with
  | [] => s
  | (_, st) :: tail =>
    let k := par.pageCount.toNat - 1
    let s1 := setListEntry s st 4095 st
    let s2 := match tail with
      | (_, t) :: _ => setListEntry s1 st (k - 1) t
      | [] => if 1 ≤ k ∧ !(s1.page (listEntry s1 st (k - 1))).srcValid then
          leaveTail s1 (listEntry s1 st (k - 1)) par.pageList.toNat (k - 1) (gLayers g) else s1
    let shared := (List.range k).filter fun i => tail.isEmpty || i != k - 1
    let s3 := shared.foldl (fun s i => queueRef s (listEntry s st i) true (id + 1)) s2
    let s4 := s3.modBranch id fun b => { b with pageList := BitVec.ofNat 19 st }
    forkStream s4 b.parent id ((s4.page st).frame.toNat * 0x200000)

/-! Page numbers freed at teardown and refused forks -/

/-- Free the copy targets of a child that will not exist (R314, R330). -/
def cancelCopies (s : State) (id : Nat) : State :=
  let b := s.branch id
  b.need.foldl (fun s p => s.modPage p fun e => { e with busy := e.busy - 1 })
    (b.copies.foldl (fun s c => freePage (s.modPage c.2 fun e => { e with held := false, pin := false }) c.2) s)

/-! Commands -/

/-- VAT_TICK: the tick count rises every 2^16 plinth cycles (R302). -/
def execVatTick (s : State) : Host.Outcome State Fault Refusal :=
  .next { s with vat := { s.vat with tick := s.vat.tick + 1 } }

/-- VAT_SWEEP: the sweeper visits an entry (R302). -/
def execVatSweep (page : PageId) (s : State) : Host.Outcome State Fault Refusal :=
  let e := s.page page.val
  if e.st ≠ .free ∧ 32768 < ageOf s e then
    .next (s.modPage page.val fun e => { e with age := tick16 s - 32768 })
  else .next s

/-- REFCOUNT_INCREMENT: the controller applies the oldest accepted change of the page, an increment (R287, R292). -/
def execRefcountIncrement (page : PageId) (s : State) : Host.Outcome State Fault Refusal :=
  match firstRef s.vat.refq page.val with
  | some o =>
    if o.up then .next (refUp { s with vat := { s.vat with refq := dropRef page.val s.vat.refq } } page.val)
    else .next s
  | none => .next s

/-- REFCOUNT_DECREMENT: the controller applies the oldest accepted change of the page, a decrement (R287, R301). -/
def execRefcountDecrement (page : PageId) (s : State) : Host.Outcome State Fault Refusal :=
  match firstRef s.vat.refq page.val with
  | some o =>
    if o.up then .next s
    else .next (refDown { s with vat := { s.vat with refq := dropRef page.val s.vat.refq } } page.val)
  | none => .next s

/-- BACKGROUND_EVICTION: one eviction on a die below VAT_LOWd, from contexts with U above R (R305). -/
def execBackgroundEviction (d : DieId) (s : State) : Host.Outcome State Fault Refusal :=
  if vatFree s d.val < s.rnat (Reg.vatLow d.val) then
    .next (evictOne s d.val fun o => decide (reserveOf s o < usedBy s o)).1
  else .next s

/-- A transfer of the page still waits for the companion. -/
def vatPending (s : State) (p : Nat) : Bool := s.couch.reqs.any fun r =>
  match r.use with
  | .vatExport q => q == p
  | .vatImport q _ => q == p
  | _ => false

/-- PAGE_EXPORT_COMPLETE: the last line of the export has been acknowledged (R289). -/
def execPageExportComplete (page : PageId) (s : State) : Host.Outcome State Fault Refusal :=
  let p := page.val
  let e := s.page p
  if e.st ≠ .exporting ∨ vatPending s p then .next s else
  let s1 := unbind (s.modPage p fun e =>
    { e with st := .exported, frame := BitVec.ofNat 20 e.other, other := 0, comp := false }) e.frame.toNat
  .next (settle ((s1.radd Reg.vatExports 1).ror Reg.vatStatus 4) p)

/-- PAGE_IMPORT_COMPLETE: the last line has arrived and is written block by block; the page goes LIVE and its
swap slot is freed (R289, R357). -/
def execPageImportComplete (page : PageId) (s : State) : Host.Outcome State Fault Refusal :=
  let p := page.val
  let e := s.page p
  if e.st ≠ .importing ∨ e.bad ∨ vatPending s p then .next s else
  let f := e.frame.toNat
  let s1 : State := { s with
    mem := s.mem.copyTo (compBase + swapAddr s e.other) 0x200000 (f * 0x200000)
    vat := { s.vat with swap := s.vat.swap.set e.other 0, swapPoison := s.vat.swapPoison.set e.other 0 } }
  let blks := (s1.mem.keys.filter fun a => decide (f * 0x200000 ≤ a) && decide (a < (f + 1) * 0x200000)).foldl
    (fun acc a => insNat (a / 4096) acc) []
  let s2 := blks.foldl (fun s b => codeBlock s b false false) s1
  let s3 := (s2.modPage p fun e => { e with st := .live, other := 0, waiters := [] }).radd Reg.vatImports 1
  .next (settle (syncComp s3 f) p)

/-- Withhold a frame from the Vat's usable frames in bring-up (R373, R533). -/
def withholdFrame (s : State) (f : Nat) : State :=
  if !isVatFrame s f then s else
  let d := frameDie f
  let s1 : State := { s with vat := { s.vat with gone := insNat f s.vat.gone } }
  s1.rset (Reg.vatFrameCount d) (s1.rget (Reg.vatFrameCount d) - 1)

/-- Retire a frame of the Vat (R313); before the memory test of its stack has ended it is withheld. -/
def retireFrame (s : State) (f : Nat) : State :=
  if (s.stack (frameStack f)).train ≠ .done then withholdFrame s f else
  match s.vat.bound.get f with
  | 0 => bindRetired s f
  | p + 1 =>
    let e := s.page p
    let mark : State := { s with vat := { s.vat with toRetire := insNat f s.vat.toRetire } }
    match e.st with
    | .live =>
      match takeFrame s (frameDie f) with
      | (s1, .ok n) =>
        let s2 : State := { s1 with vat := { s1.vat with toRetire := insNat f s1.vat.toRetire
                                                         bound := s1.vat.bound.set n (p + 1) } }
        s2.modPage p fun e => { e with st := .moving, other := n }
      | (s1, _) =>
        if dropEligible s1 p then dropPage { s1 with vat := mark.vat } p
        else if exportWanted s1 p then
          match freeSwap s1 with
          | some k => exportPage { s1 with vat := mark.vat } p k
          | none => mark
        else mark
    | .retired => s
    | _ => mark

/-- MOVE_COMPLETE: the copy of a MOVING page is complete; the new frame is bound and the old one is RETIRED (R313).
A frame whose retirement waited for the end of a transfer is taken up first. -/
def execMoveComplete (page : PageId) (s : State) : Host.Outcome State Fault Refusal :=
  let p := page.val
  let e := s.page p
  match e.st with
  | .moving =>
    let old := e.frame.toNat
    let s1 := copyFrame s old e.other
    let s2 := bindFrame (s1.modPage p fun e => { e with st := .live, other := 0 }) p e.other e.owner.toNat
    .next (settle (unbind s2 old) p)
  | .live => if s.vat.toRetire.contains e.frame.toNat then .next (retireFrame s e.frame.toNat) else .next s
  | _ => .next s

end Sys2Proof.Machine
end

