-- ==== Sys2Proof/Machine/Ctx.lean ====
section
/-! DEFINITION. Contexts: what a context may reach (R453, R480), taking a fault (R497, R577), tearing a context
down, and creating one (R476, R477). -/

namespace Sys2Proof.Machine

/-! Writes and reads of the Armature -/

/-- The lines of a write of `bs` at `a`: line address, first byte in the line, bytes. -/
def splitLines : Nat → Nat → List Byte → List (Nat × Nat × List Byte)
  | 0, _, _ => []
  | n + 1, a, bs =>
    if bs.isEmpty then [] else
    let here := 64 - a % 64
    let part := bs.take here
    (a / 64 * 64, a % 64, part) :: splitLines n (a + here) (bs.drop here)

/-- A coherent write to companion memory (R429 to R431): whole lines as WR, others as WR_PARTIAL. -/
def compWrite (s : State) (a : Nat) (bs : List Byte) (x : Nat) : State :=
  (splitLines 65 a bs).foldl (fun s l =>
    let p := if l.2.2.length = 64 then { mkCch 2 false 0 (l.1 - compBase) 64 with data := l.2.2 }
      else partialPkt (l.1 - compBase + l.2.1) l.2.2
    requestCch (dropCached s (l.1 - compBase) 64) p (.posted x)) (s.wr a bs)

/-- A write of the Armature or the Vat to stacked or companion memory on behalf of context `x`. -/
def armWrite (s : State) (a : Nat) (bs : List Byte) (x : Nat) : State :=
  match region a with
  | .stacked _ => s.devWr a bs
  | .companion _ => compWrite s a bs x
  | _ => s.wr a bs

/-- The context may reach every frame of a range of stacked memory by its grants (R480). -/
def mayReach (s : State) (x a n : Nat) (rd wr : Bool) : Bool :=
  let c := s.ctx x
  (List.range ((a + n - 1) / 0x200000 - a / 0x200000 + 1)).all fun i =>
    let f := a / 0x200000 + i
    c.grants.any fun g => decide (g.first ≤ f) && decide (f < g.first + g.frames) && (!rd || g.read) && (!wr || g.write)

/-- Some frame of a range is withdrawn (R377). -/
def anyGone (s : State) (a n : Nat) : Bool :=
  s.vat.gone.any fun f => decide (a / 0x200000 ≤ f) && decide (f ≤ (a + n - 1) / 0x200000)

/-- An area that a command names can be read on behalf of context `x` (R453). -/
def areaReadable (s : State) (x a n align : Nat) : Bool :=
  a % align == 0 &&
  match region a, region (a + n - 1) with
  | .stacked _, .stacked _ => !anyGone s a n && (x == 0 || mayReach s x a n true false)
  | .companion o, .companion _ => decide (o + n ≤ compLimit s)
  | _, _ => false

/-- An area that a command writes can be written on behalf of context `x`. -/
def areaWritable (s : State) (x a n align : Nat) : Bool :=
  a % align == 0 &&
  match region a, region (a + n - 1) with
  | .stacked _, .stacked _ => !anyGone s a n && (x == 0 || mayReach s x a n false true)
  | .companion o, .companion _ => decide (o + n ≤ compLimit s)
  | _, _ => false

/-- Some part of an area is poisoned (R453). -/
def areaPoisoned (s : State) (a n : Nat) : Bool :=
  match region a with
  | .stacked _ => (List.range ((a + n - 1) / 4096 - a / 4096 + 1)).any fun i => blockPoisoned s (a + i * 4096)
  | _ => anyPoison s a n

/-- A line enters the Couch cache: 8,192 sets of 16 ways, the oldest line of a full set leaves (R431)
(DESIGN CHOICE, log 31). -/
def cacheAdd (s : State) (l : Nat) : State :=
  if s.couch.cache.contains l then s else
  let set_ := s.couch.cache.filter fun k => k % 8192 == l % 8192
  let left := match set_ with
    | k :: _ => if 16 ≤ set_.length then s.couch.cache.filter (· != k) else s.couch.cache
    | [] => s.couch.cache
  { s with couch := { s.couch with cache := left ++ [l] } }

/-- What an Armature read of companion memory does to the Couch cache (R431): lines missing are fetched and
counted; with the cache off nothing is kept (DEDUCED, log 29). -/
def cacheRead (s : State) (a n : Nat) : State :=
  match region a with
  | .companion o =>
    if s.rbit Reg.cchCtrl 0 then
      (linesOf o n).foldl (fun s l =>
        if s.couch.cache.contains l then s else cacheAdd (s.radd Reg.cchCacheMiss 1) l) s
    else s
  | _ => s

/-! Discarding work -/

/-- Clear a core for the next context (R161): its slots, gather buffer, scratchpad, state store and queues. Its
banks keep their power states, and what the device has recorded of its errors stands. -/
def clearCore (s : State) (c : Nat) : State :=
  let old := s.core c
  let s1 := (s.zero (spdAddr c 0) 0x60000).zero (stsAddr c 0) 0x20000
  let keep (m : SMap Nat) : SMap Nat :=
    (m.clear (spdAddr c 0 / 64) (spdAddr c 0x60000 / 64)).clear (stsAddr c 0 / 64) (stsAddr c 0x20000 / 64)
  let s2 := (old.inflight.flatMap (·.pages)).foldl (fun s p => s.modPage p fun e => { e with busy := e.busy - 1 }) s1
  { s2 with
    poison := keep s2.poison
    rect := s2.rect.clear (spdAddr c 0 / 64) (spdAddr c 0x60000 / 64)
    claims := s2.claims.filter (·.core != c)
    cores := s2.cores.set c
      { (default : Core) with
        banks := old.banks, withdrawn := old.withdrawn, toTest := old.toTest, stateUncorr := old.stateUncorr
        nextId := old.nextId } }

/-- Cores of a set of quires. -/
def coresOf (quires : BitVec 128) : List Nat :=
  (bitsOf 128 quires.toNat).flatMap fun q => (List.range 32).map fun i => 32 * q + i

/-- Streams that a core holds in its slots. -/
def residentOn (s : State) (c : Nat) : List Nat :=
  ((s.core c).strSlots.cells.map fun k => k.2.stream).filterMap fun n => if n = 0 then none else some (n - 1)

/-- Lower QUEUED of the streams that the queued CHUNKs of a core name (R268). -/
def dropQueued (s : State) (c : Nat) : State :=
  ((s.core c).inflight.flatMap (·.strs)).foldl (fun s id => strSetFld s id 56 8 (eQueued (strGet s id) - 1)) s

/-- Stop the work on a set of quires: queues discarded, streams on the cores back to their last image (R277),
cores cleared, counters zero (R497 step 1). -/
def stopQuires (s : State) (quires : BitVec 128) : State :=
  let s1 := (coresOf quires).foldl (fun s c =>
    let s1 := (residentOn s c).foldl (fun s id => rollbackStream s id) (dropQueued s c)
    if (s1.core c).part = 0 then s1 else clearCore s1 c) s
  (bitsOf 128 quires.toNat).foldl (fun s q => s.modQuire q fun x =>
    { x with ctrs := ⟨[]⟩, issued := [], landed := [], started := 0, deliveries := [] }) s1

/-- Write STATUS, ENDED and DETAIL of a launch block (R482). -/
def endLaunch (s : State) (w : Work) (status detail : Nat) : State :=
  if w.kind = .launch then
    let s1 := armWrite s (w.block + 48) (leBytes 2 status) w.ctx
    let s2 := armWrite s1 (w.block + 50) [BitVec.ofNat 8 (if w.st = .waiting then 2 else 3)] w.ctx
    if status = stFaulted then armWrite s2 (w.block + 52) (leBytes 4 detail) w.ctx else s2
  else s

/-- Discard every piece of work of a context on a partition (R497 steps 1 and 2). -/
def dropWorks (s : State) (p x code : Nat) : State :=
  let P := s.part p
  let run := P.works.cells.filter fun w => w.2.ctx == x
  let wait := P.waiting.filter (·.ctx == x)
  let s1 := run.foldl (fun s w =>
    let s1 := if w.2.st = .running ∨ w.2.st = .preempting then stopQuires s w.2.quires else s
    endLaunch s1 w.2 stFaulted code) s
  let s2 := wait.foldl (fun s w => endLaunch s w stFaulted code) s1
  let base (k : Nat) : Nat := (p * 17 + k) * 4096
  let s3 : State := { s2 with saved := run.foldl (fun m w => m.clear (base w.1) (base (w.1 + 1))) s2.saved }
  s3.modPart p fun P =>
    { P with
      works := run.foldl (fun m w => m.set w.1 default) P.works
      waiting := P.waiting.filter (·.ctx != x) }

/-! Rollouts of a context (R43) -/

/-- A branch identifier returns to the pool: its entries in the branch table and in the score store are cleared (R20,
R322). -/
def freeBranch (s : State) (b : Nat) : State :=
  { s with roll := { s.roll with scores := s.roll.scores.set b default, branches := s.roll.branches.set b default } }

/-- A branch still belongs to its group: neither FREE, the root, nor RELEASING. -/
def BrSt.isLive (st : BrSt) : Bool :=
  match st with
  | .free | .root | .releasing => false
  | _ => true

/-- The live branches of a group, ascending. -/
def members (s : State) (g : Nat) : List Nat :=
  (s.roll.branches.cells.filter fun c => c.2.st.isLive && c.2.group.toNat == g).map (·.1)

/-- Tear down a group: no result is written, its branches await the release of their pages (R27, R43). -/
def dropGroup (s : State) (g code : Nat) : State :=
  let s1 := (s.group g).requests.foldl (fun s r => respond s r.box r.sn { status := stFaulted, detail := code }) s
  let s2 := ((s.group g).root :: members s g).foldl (fun s b =>
    (freeStream s b).modBranch b fun x => { x with st := .releasing, closed := true, copies := [], need := [] }) s1
  let P := (s.group g).part
  (s2.modGroup g fun _ => default).modPart P fun x =>
    { x with roster := [], boundaries := x.boundaries.filter (· != g), forking := x.forking.filter (·.1 != g) }

/-- The groups of a context. -/
def groupsOf (s : State) (x : Nat) : List Nat :=
  (s.roll.groups.cells.filter fun g => g.2.st != .free && g.2.ctx == x).map (·.1)

/-! Faults and teardown (R477, R497) -/

/-- Opcodes of commands that a teardown answers FAULTED while they are in progress (R472). -/
def teardownOpcodes : List Nat := [0x0201, 0x0301, 0x0303, 0x0401, 0x0403, 0x0404, 0x0405, 0x0406, 0x0701]

/-- Answer the commands in progress of a context that its teardown ends (R472) (DEDUCED, log 68). -/
def failCommands (s : State) (x code : Nat) : State :=
  s.arm.boxes.cells.foldl (fun s b =>
    (b.2.inProg.filter fun ip => lineN ip.entry 6 2 == x && teardownOpcodes.contains (lineN ip.entry 0 2)).foldl
      (fun s ip => respond s b.1 ip.sn { status := stFaulted, detail := code }) s) s

/-! Stream commands that wait (R270, R273) -/

/-- A chunk that has run and has not completed names the stream: it is running. -/
def chunkRunning (s : State) (id : Nat) : Bool :=
  s.cores.cells.any fun c => c.2.inflight.any fun d => d.eng == .sta && !d.pending && d.strs.contains id

/-- Write a stream's image to HOME and leave it RESIDENT and clean (R272). -/
def flushStream (s : State) (id : Nat) : State :=
  let v := strGet s id
  if eState v = 3 ∧ eDirty v then
    match strHome s id with
    | some h => (strSetFld (writeImage s id h) id 3 1 0).radd Reg.strWritebacks 1
    | none => s
  else s

/-- Release a stream for a swap-out once no chunk of it runs; a forced one sets FORCED_SWAP (R270, R272). -/
def swapStream (s : State) (id : Nat) : State :=
  let v := strGet s id
  if eState v = 3 ∧ !chunkRunning s id then
    releaseStream (if eQueued v = 0 then s else s.ror Reg.strStatus 2) id
  else s

/-- Stream `w` mod 2^24, the unit of index w div 2^24 of a waiting command, has got where the command takes it: IDLE for a
swap-out, a current HOME image for a flush. -/
def unitDone (s : State) (op w : Nat) : Bool :=
  let v := strGet s (w % 2 ^ 24)
  if op = 0x0403 then eState v != 2 && eState v != 3 && eState v != 4 else eState v != 3 || !eDirty v

/-- One waiting stream command goes on, and is answered once none of its units is left. -/
def serveOne (box : Nat) (s : State) (ip : InProg) : State :=
  let op := lineN ip.entry 0 2
  let s1 := ip.waits.foldl (fun s w => if op = 0x0403 then swapStream s (w % 2 ^ 24) else flushStream s (w % 2 ^ 24)) s
  let ready := ip.waits.filter (unitDone s1 op)
  let left := ip.waits.filter fun w => !unitDone s1 op w
  let bits := ready.foldl (fun b w => setFld b (w / 2 ^ 24) 1 1) ip.bits.toNat
  let s2 := modInProg s1 box ip.sn fun p => { p with waits := left, bits := BitVec.ofNat 256 bits }
  if left.isEmpty then
    respond s2 box ip.sn { status := if bits = 2 ^ ip.aux - 1 then stOk else stPartial, result := [(16, 32, bits)] }
  else s2

/-- The STREAM_SWAP_OUT and STREAM_FLUSH commands that wait go on. -/
def serveStreams (s : State) : State :=
  s.arm.boxes.cells.foldl (fun s b =>
    (b.2.inProg.filter fun ip => !ip.waits.isEmpty && (lineN ip.entry 0 2 == 0x0403 || lineN ip.entry 0 2 == 0x0404)).foldl
      (serveOne b.1) s) s

/-! A REVOKE that waits (R480, R501) -/

/-- DMV descriptors of a context in flight, by core and identifier. -/
def accessesOf (s : State) (x : Nat) : List Nat :=
  s.cores.cells.flatMap fun c => if c.2.ctx = x then
    (c.2.inflight.filter (·.eng = .dmv)).map fun d => c.1 * 2 ^ 40 + d.id else []

/-- The frames of a revoked run are erased and leave the context's key (R358, R480) (DEDUCED, log 48). -/
def eraseRun (s : State) (first n : Nat) : State := (List.range n).foldl (fun s i => eraseFrame s (first + i)) s

/-- The REVOKEs whose accesses have all completed erase their runs and are answered (R480)
(DEDUCED, log 48). -/
def finishRevokes (s : State) : State :=
  ((s.box 0).inProg.filter fun ip => lineN ip.entry 0 2 == 0x0107).foldl (fun s ip =>
    let left := ip.waits.filter (accessesOf s (lineN ip.entry 6 2 % 4096)).contains
    if left.isEmpty then
      respond (eraseRun s (lineN ip.entry 16 4 % 2 ^ 20) (lineN ip.entry 20 4 % 2 ^ 20)) 0 ip.sn { status := stOk }
    else modInProg s 0 ip.sn fun p => { p with waits := left }) s

/-- Begin a teardown (R497 steps 1, 2 and the groups of step 4), with the fault code that its work reports:
DEST_RESET for CONTEXT_DESTROY (R501) (DEDUCED, log 68). -/
def teardownStart (s : State) (x code : Nat) (byFault : Bool) : State :=
  let s1 := s.modCtx x fun c => { c with st := .tearing, byFault := byFault, tearCode := BitVec.ofNat 16 code }
  let s2 := s1.arm.parts.keys.foldl (fun s p => dropWorks s p x code) s1
  let own := s2.cores.keys.flatMap fun c => (residentOn s2 c).filter fun id =>
    eOwner (strGet s2 id) == x && eState (strGet s2 id) != 4
  let s3 := (groupsOf s2 x).foldl (fun s g => dropGroup s g code) (own.foldl rollbackStream s2)
  let mine (p : Nat) : Bool := (s3.page p).owner.toNat == x
  let act := s3.vat.active.cells.foldl (fun m c =>
    match c.2 with
    | some r => if mine r.page then m.set c.1 none else m
    | none => m) s3.vat.active
  let s4 : State := { s3 with vat := { s3.vat with active := act
                                                   queue := s3.vat.queue.mapAll fun _ l => l.filter (!mine ·) } }
  finishRevokes (failCommands s4 x code)

/-- The partition a core works for, for a fault's ring entry. -/
def corePart (s : State) (c : Nat) : Nat := (s.core c).part - 1

/-- A context takes a fault (R477, R497, R577, R581): record, ring entry, notice, teardown. `origin` is the
poison value that caused it, 0 for none (R588) (DEDUCED, log 62; DEDUCED, log 68). -/
def faultCtx (s : State) (x code : Nat) (core : Option Nat) (origin : Nat) : State :=
  if (s.ctx x).st ≠ .active then s else
  let first := decide (2 ≤ origin) && !s.arm.poisonSeen.contains origin
  let s1 := if origin = 0 then s else s.ror Reg.plnErrStatus 8
  let s2 : State := if first then { s1 with arm := { s1.arm with poisonSeen := s1.arm.poisonSeen ++ [origin] } } else s1
  let s3 := s2.modCtx x fun c => { c with record := { c.record with
    faults := if c.record.faults = 0xFFFF then c.record.faults else c.record.faults + 1
    lastFault := BitVec.ofNat 16 code
    lastCore := match core with | some n => BitVec.ofNat 12 n | none => 0xFFF } }
  let part := match core with | some n => corePart s n | none => 0
  let s4 := ringAdd s3
    { kind := 1, cls := .fault, unitType := if core.isSome then 1 else 13, unit := core.getD x, ctx := x,
      fault := code, detail := detailOf [(28, 1, part)], interrupting := first }
  let s5 := teardownStart s4 x code true
  postNotice s5 (noticeBox s5 x)
    (noticeLine 0xF003 8 x [(12, 4, code), (16, 2, match core with | some n => n | none => 0xFFFF)])

/-- Every ACTIVE context, ascending. -/
def activeContexts (s : State) : List Nat :=
  (s.arm.ctxs.cells.filter fun c => c.2.st = .active).map (·.1)

/-- Every context is faulted and the device refuses new work until the next module reset (R63, R373, R376,
R554). The spec states no fault code for this; it is a free value (DESIGN CHOICE, log 13). -/
def faultAll (s : State) : State :=
  let (v, s0) := s.draw
  let s1 := (activeContexts s0).foldl (fun s x => faultCtx s x (v.toNat % 65536) none 0) s0
  let s2 := s1.rput Reg.plnReady 3 false
  { s2 with arm := { s2.arm with refuse := true } }

/-- An interrupting failure of the device: ring entry, alert cause, every context faulted (R588). -/
def deviceFailure (s : State) (e : Event) : State :=
  faultAll (ringAdd (s.ror Reg.plnAlertCause 4) { e with interrupting := true })

/-! Creating a context (R476, R477) -/

/-- Add a grant run: the frames are erased and take the context's key (R358, R360, R480). -/
def grantRun (s : State) (x : Nat) (g : Grant) : State :=
  let s1 := (List.range g.frames).foldl (fun s i => setKeyCtx (zeroFrame s (g.first + i)) (g.first + i) x) s
  s1.modCtx x fun c => { c with grants := c.grants ++ [g] }

/-- CONTEXT_CREATE takes effect: record zeroed, key pair drawn, save area granted (R476, R520, R577)
(DEDUCED, log 62). -/
def makeContext (s : State) (x : Nat) (par : CtxParams) : State :=
  let s1 := { s with fresh := s.fresh + 1 }.modCtx x fun _ =>
    { (default : Ctx) with st := .active, par := par, keyLive := true }
  let s2 := s1.radd Reg.wmkKeysLive 1
  grantRun s2 x { first := par.saveFirst.toNat, frames := par.saveFrames.toNat, read := true, write := true }

/-- Discard what a mailbox has not started; the grant goes once nothing is in progress (R472). -/
def revokeBox (s : State) (m : Nat) (answer : Nat × Nat) : State :=
  let s1 := s.modBox m fun b => { b with covered := 0 }
  if (s1.box m).inProg.isEmpty then respond (finishRevoke s1 m) answer.1 answer.2 { status := stOk }
  else s1.modBox m fun b => { b with revoking := some answer }

/-- The mailboxes granted to a context. -/
def boxesOf (s : State) (x : Nat) : List Nat :=
  (s.arm.boxes.cells.filter fun b => b.1 != 0 && b.2.grantee == x && x != 0).map (·.1)

/-- A context becomes FREE: its mailboxes are revoked, its destroyers answered, a recorded create takes effect
(R477, R500). -/
def contextFree (s : State) (x : Nat) : State :=
  let c := s.ctx x
  let s1 := (boxesOf s x).foldl (fun s m => revokeBox s m (256, 0)) s
  let s2 := s1.modCtx x fun _ => default
  let s3 := c.destroyers.foldl (fun s d => respond s d.1 d.2 { status := stOk }) s2
  match c.recorded with
  | some par =>
    if s3.wmk.entropy = .healthy then makeContext s3 x par
    else s3.modCtx x fun k => { k with recorded := some par }
  | none => s3

/-- Free every page of a context that is in no transfer (R301, R358), with the changes of reference counts that
were still queued for them. -/
def freeOwned (s : State) (x : Nat) : State :=
  let s1 := s.vat.map.keys.foldl (fun s p =>
    let e := s.page p
    if e.owner.toNat ≠ x ∨ e.st = .retired then s else
    match e.st with
    | .exporting | .importing | .moving => s.modPage p fun e => { e with pin := false, held := false, srcValid := false }
    | _ => freePage (s.modPage p fun e => { e with pin := false, held := false, srcValid := false }) p) s
  { s1 with vat := { s1.vat with refq := s1.vat.refq.filter fun o => (s1.page o.page).st != .free } }

/-- Pages of a context that are still in a transfer. -/
def pagesInTransit (s : State) (x : Nat) : Bool :=
  s.vat.map.cells.any fun c => c.2.owner.toNat == x &&
    (c.2.st = .exporting || c.2.st = .importing || c.2.st = .moving)

/-- Streams owned by a context that are being written back. -/
def streamsWriting (s : State) (x : Nat) : Bool :=
  s.cores.cells.any fun c => (c.2.strSlots.cells.any fun k =>
    k.2.stream != 0 && eState (strGet s (k.2.stream - 1)) == 4 && eOwner (strGet s (k.2.stream - 1)) == x)

/-- TEARDOWN_COMPLETE: steps 3 to 5 of R497 are done, and the context becomes FAULTED or FREE (R477). It waits for
write-backs that have begun and for page transfers. -/
def execTeardownComplete (x : CtxId) (s : State) : Host.Outcome State Fault Refusal :=
  let n := x.val
  let c := s.ctx n
  if c.st ≠ .tearing ∨ streamsWriting s n then .next s else
  let s0 := freeOwned s n
  if pagesInTransit s0 n then .next s0 else
  let gone := s0.roll.branches.keys.filter fun b =>
    (s0.branch b).st = .releasing && (s0.branch b).closed && !s0.vat.refq.any (·.branch == b + 1) &&
      (s0.page (s0.branch b).pageList.toNat).st = .free
  let s1 := gone.foldl freeBranch s0
  let s2 := s1.modCtx n fun c => { c with reserve := 0 }
  let s3 := (s2.cal.recs.cells.filter fun r => r.2.keyCtx.toNat == n).foldl (fun s r => eraseFrame s r.1) s2
  let s4 := (s3.modCtx n fun c => { c with grants := [], keyLive := false })
  let s5 := if c.keyLive then s4.rset Reg.wmkKeysLive (s4.rget Reg.wmkKeysLive - 1) else s4
  if !c.byFault ∨ c.destroyers ≠ [] then .next (contextFree s5 n)
  else .next ((s5.modCtx n fun c => { c with st := .faulted }).ror Reg.plnSchedStatus 0x20)

end Sys2Proof.Machine
end

