-- ==== Sys2Proof/Machine/Bank.lean ====
section
/-! DEFINITION. The scratchpads, the gather buffer, the slots, and the banks of scratchpads and quire stores
(chapter 05). A quire store's bank b holds its bytes from b × 128 KiB on (DEDUCED, log 16). -/

namespace Sys2Proof.Machine

/-! Fault codes (chapters 05, 06, 17, 21) -/

def Fc.addrFenced : Nat := 0x1
def Fc.addrUnmapped : Nat := 0x2
def Fc.destReset : Nat := 0x3
def Fc.stallTeardown : Nat := 0x4
def Fc.spdUncorr : Nat := 0x120
def Fc.spdPoison : Nat := 0x121
def Fc.pwrGated : Nat := 0x122
def Fc.slotParam : Nat := 0x123
def Fc.bankRetired : Nat := 0x124

/-- What an access meets: it proceeds, it stalls, or it faults the context, with a code and the origin of the
poison (R588), 0 for none. -/
inductive Chk where
  | ok
  | stall
  | fault (code origin : Nat)
  deriving DecidableEq, Repr, Inhabited

/-- Two checks, the first first; a fault comes before a stall. -/
def Chk.both : Chk → Chk → Chk
  | .fault c o, _ => .fault c o
  | _, .fault c o => .fault c o
  | .stall, _ => .stall
  | .ok, b => b

/-- All of a list of checks. -/
def Chk.all (l : List Chk) : Chk := l.foldl Chk.both .ok

/-- A check that a condition holds, with the code otherwise. -/
def Chk.need (ok : Bool) (code : Nat) : Chk := if ok then .ok else .fault code 0

/-! Banks -/

def spdBank (s : State) (c b : Nat) : Bank := (s.core c).banks.get b
def qsrBank (s : State) (q b : Nat) : Bank := (s.quire q).banks.get b
def setSpdBank (s : State) (c b : Nat) (f : Bank → Bank) : State :=
  s.modCore c fun x => { x with banks := x.banks.mod b f }
def setQsrBank (s : State) (q b : Nat) (f : Bank → Bank) : State :=
  s.modQuire q fun x => { x with banks := x.banks.mod b f }

def getBank (s : State) : BankRef → Bank
  | .spd c b => spdBank s c.val b.val
  | .qsr q b => qsrBank s q.val b.val
def setBank (s : State) (r : BankRef) (f : Bank → Bank) : State :=
  match r with
  | .spd c b => setSpdBank s c.val b.val f
  | .qsr q b => setQsrBank s q.val b.val f

/-- Where a bank's bytes start, and how many there are (R135, DEDUCED, log 16). -/
def bankBase : BankRef → Nat
  | .spd c b => spdAddr c.val (b.val * 0x4000)
  | .qsr q b => qsrAddr q.val (b.val * 0x20000)
def bankBytes : BankRef → Nat
  | .spd _ _ => 0x4000
  | .qsr _ _ => 0x20000

/-- The sticky flags of a bank's store (R164). -/
def bankStatus : BankRef → Nat
  | .spd c _ => Reg.spdStatus c.val
  | .qsr q _ => Reg.qsrStatus q.val

/-- Clear a range of an on-chip store: zero, unpoisoned, untagged. -/
def clearStore (s : State) (a n : Nat) : State :=
  let s1 := s.zero a n
  { s1 with poison := s1.poison.clear (a / 64) ((a + n) / 64), rect := s1.rect.clear (a / 64) ((a + n) / 64) }

/-- What an access to a bank meets (R144, R157, R158) (DEDUCED, log 74). -/
def bankChk (b : Bank) : Chk :=
  if b.retired then .fault Fc.bankRetired 0
  else match b.st with
    | .off => .fault Fc.pwrGated 0
    | .waking => .stall
    | _ => .ok

/-- The banks from byte `off`, `n` bytes, of `size` bytes each. -/
def banksOf (off n size : Nat) : List Nat :=
  if n = 0 then [] else (List.range ((off + n - 1) / size - off / size + 1)).map (off / size + ·)

/-- What an access to a range of a scratchpad meets at its banks (R155, R75). -/
def spdChk (s : State) (c off n : Nat) : Chk :=
  if n = 0 then .ok else
  if 0x60000 < off + n then .fault Fc.addrUnmapped 0
  else Chk.all ((banksOf off n 0x4000).map fun b => bankChk (spdBank s c b))

/-- What an access to a range of a quire store meets. -/
def qsrChk (s : State) (q off n : Nat) : Chk :=
  if n = 0 then .ok else
  if 0x400000 < off + n then .fault Fc.addrUnmapped 0
  else Chk.all ((banksOf off n 0x20000).map fun b => bankChk (qsrBank s q b))

/-! Lines and the gather buffer (R151 to R154) -/

def gatherAt (s : State) (c line : Nat) : Option GatherEnt := (s.core c).gather.find? (·.line.val == line)

/-- The poison of a scratchpad line, that of the gather buffer's bytes among it: 0 for none. -/
def linePoison (s : State) (c line : Nat) : Nat :=
  let g := match gatherAt s c line with | some e => e.bad | none => 0
  if g ≠ 0 then g else s.poison.get (spdAddr c 0 / 64 + line)

/-- Lines of a range within a store. -/
def storeLines (off n : Nat) : List Nat := linesOf off n

/-- The first poison met in a range of a scratchpad: 0 for none. -/
def spdPoison (s : State) (c off n : Nat) : Nat :=
  (storeLines off n).foldl (fun p l => if p = 0 then linePoison s c l else p) 0

/-- The first poison met in a range of a quire store. -/
def qsrPoison (s : State) (q off n : Nat) : Nat :=
  (storeLines off n).foldl (fun p l => if p = 0 then s.poison.get (qsrAddr q 0 / 64 + l) else p) 0

/-- What an engine's read of a range meets (R143): the banks, then poison. `e` is what the check code found on
the way: a line it has just found uncorrectable gives SPD_UNCORR. -/
def spdReadChk (s : State) (e : Upset) (c off n : Nat) : Chk :=
  match spdChk s c off n with
  | .ok =>
    let p := spdPoison s c off n
    if p = 0 then .ok else
    match e with
    | .uncorrectable (.spd c1 l) => if p = 2 + (spdAddr c1.val 0 / 64 + l.val) then .fault Fc.spdUncorr p else .fault Fc.spdPoison p
    | _ => .fault Fc.spdPoison p
  | k => k

/-- A byte of a scratchpad as a read returns it (R154). -/
def spdByte (s : State) (c off : Nat) : Byte :=
  match gatherAt s c (off / 64) with
  | some e => if e.mask.getLsbD (off % 64) then BitVec.ofNat 8 (fld e.data.toNat (8 * (off % 64)) 8)
      else s.mem.get (spdAddr c off)
  | none => s.mem.get (spdAddr c off)

/-- The bytes of a range of a scratchpad (R154). -/
def spdRead (s : State) (c off n : Nat) : List Byte := (List.range n).map fun i => spdByte s c (off + i)

/-- WREG_BANKS of a core (R139). -/
def wreg (s : State) (c : Nat) : Nat := s.rfld (Reg.spdCtrl c) 0 5

/-- The flush of this entry is a read-modify-write (R153): some check word it touches is not wholly valid. -/
def needsRmw (s : State) (c : Nat) (e : GatherEnt) : Bool :=
  let w := if e.line.val / 256 < wreg s c then 16 else 8
  (List.range (64 / w)).any fun i =>
    let m := fld e.mask.toNat (i * w) w
    decide (m ≠ 0) && decide (m ≠ 2 ^ w - 1)

/-- Bytes of a gather entry over the bytes in the bank. -/
def mergeLine (old : List Byte) (mask : BitVec 64) (data : Line) : List Byte :=
  (List.range 64).map fun i =>
    if mask.getLsbD i then BitVec.ofNat 8 (fld data.toNat (8 * i) 8) else old.getD i 0

/-- An on-chip line has been found uncorrectable (R141): poisoned, flagged, and due for the test of R144
(DESIGN CHOICE, log 24). -/
def lineUncorr (s : State) : LineRef → State
  | .spd c l =>
    let a := spdAddr c.val 0 / 64 + l.val
    ((s.setPoison a (2 + a)).ror (Reg.spdStatus c.val) 2).modCore c.val fun x => { x with toTest := insNat l.val x.toTest }
  | .qsr q l =>
    let a := qsrAddr q.val 0 / 64 + l.val
    ((s.setPoison a (2 + a)).ror (Reg.qsrStatus q.val) 2).modQuire q.val fun x => { x with toTest := insNat l.val x.toTest }
  | .sts c l =>
    let a := stsAddr c.val 0 / 64 + l.val
    (s.setPoison a (2 + a)).modCore c.val fun x => { x with toTest := insNat (0x10000 + l.val) x.toTest }

/-- What the check code found on the way of a read takes effect (R141, R278) (DESIGN CHOICE, log 24). -/
def upset (s : State) : Upset → State
  | .clean => s
  | .corrected (.spd c _) => (s.ror (Reg.spdStatus c.val) 1).radd (Reg.spdCorrected c.val) 1
  | .corrected (.qsr q _) => s.ror (Reg.qsrStatus q.val) 1
  | .corrected (.sts _ _) => s
  | .uncorrectable l => lineUncorr s l

/-- Flush an entry of the gather buffer (R152, R153); `bad`: the read-back of a read-modify-write was
uncorrectable (R142). -/
def gatherFlush (s : State) (c line : Nat) (bad : Bool) : State :=
  match gatherAt s c line with
  | none => s
  | some e =>
    let a := spdAddr c (64 * line)
    let s1 := s.modCore c fun x => { x with gather := x.gather.filter (·.line.val != line) }
    let s2 := s1.wr a (mergeLine (s1.rd a 64) e.mask e.data)
    let s3 := if e.mask = BitVec.allOnes 64 then s2.setPoison (a / 64) e.bad
      else if e.bad ≠ 0 then s2.setPoison (a / 64) e.bad else s2
    if bad && needsRmw s c e then
      ((s3.setPoison (a / 64) (2 + a / 64)).ror (Reg.spdStatus c) 0x20).modCore c fun x =>
        { x with toTest := insNat line x.toTest }
    else s3

/-- Flush every entry for which `p` holds, oldest first. -/
def flushWhere (s : State) (c : Nat) (p : GatherEnt → Bool) : State :=
  ((s.core c).gather.filter p).foldl (fun s e => gatherFlush s c e.line.val false) s

/-- The part of a write that falls in one line: line, mask, the bytes in place. -/
def placeBytes (off : Nat) (bs : List Byte) : BitVec 64 × Line :=
  (BitVec.ofNat 64 ((2 ^ bs.length - 1) * 2 ^ (off % 64)), BitVec.ofNat 512 (leNat bs * 2 ^ (8 * (off % 64))))

/-- A narrow write (R151): merged into the line's entry, or into a new one, for which the oldest is flushed when
eight are in use; an entry with all 64 bytes valid is flushed at once (R152). -/
def narrowWrite (s : State) (c off : Nat) (bs : List Byte) (poison : Nat) (desc : Nat) : State :=
  let line := off / 64
  let (m, d) := placeBytes off bs
  let s1 := match gatherAt s c line with
    | some _ => s.modCore c fun x => { x with gather := x.gather.map fun e =>
        if e.line.val = line then
          { e with
            mask := e.mask ||| m
            data := (e.data &&& ~~~(BitVec.ofNat 512 ((2 ^ (8 * bs.length) - 1) * 2 ^ (8 * (off % 64))))) ||| d
            desc := desc
            bad := if poison ≠ 0 then poison else e.bad }
        else e }
    | none =>
      let s0 := match (s.core c).gather with
        | o :: _ => if (s.core c).gather.length = 8 then gatherFlush s c o.line.val false else s
        | [] => s
      s0.modCore c fun x => { x with gather := x.gather ++ [{ line := Fin.ofNat 6144 line, mask := m, data := d, desc := desc, bad := poison }] }
  match gatherAt s1 c line with
  | some e => if e.mask = BitVec.allOnes 64 then gatherFlush s1 c line false else s1
  | none => s1

/-- A whole-line write to a bank (R142): poison as the data carry it, the tag as the descriptor has it (R224). -/
def lineWrite (s : State) (c off : Nat) (bs : List Byte) (poison : Nat) (hint : Bool) : State :=
  let a := spdAddr c off
  let s1 := (s.wr a bs).setPoison (a / 64) poison
  let s2 := s1.modCore c fun x => { x with gather := x.gather.filter (·.line.val != off / 64) }
  { s2 with rect := s2.rect.set (a / 64) hint }

/-- A write to a scratchpad: whole lines to the banks, the rest to the gather buffer (R151). -/
def spdWriteN : Nat → State → Nat → Nat → List Byte → Nat → Bool → Nat → State
  | 0, s, _, _, _, _, _, _ => s
  | n + 1, s, c, off, bs, poison, hint, desc =>
    if bs.isEmpty then s else
    let part := bs.take (64 - off % 64)
    let s1 := if part.length = 64 then lineWrite s c off part poison hint
      else
        let s0 := narrowWrite s c off part poison desc
        if hint then s0 else { s0 with rect := s0.rect.set (spdAddr c off / 64) false }
    spdWriteN n s1 c (off + part.length) (bs.drop (64 - off % 64)) poison hint desc

/-- A write by an engine to a scratchpad. -/
def spdWrite (s : State) (c off : Nat) (bs : List Byte) (poison : Nat) (hint : Bool) (desc : Nat) : State :=
  spdWriteN (bs.length / 64 + 2) s c off bs poison hint desc

/-- A write to a quire store: a whole line takes the data's poison, a part of a line only adds it (R142). -/
def qsrWrite (s : State) (q off : Nat) (bs : List Byte) (poison : Nat) : State :=
  let a := qsrAddr q off
  (linesOf a bs.length).foldl (fun s l =>
    if poison ≠ 0 then s.setPoison l poison
    else if a ≤ 64 * l ∧ 64 * l + 64 ≤ a + bs.length then s.setPoison l 0 else s) (s.wr a bs)

/-- The sticky flag that goes with a fault met at a scratchpad or a quire store (R143, R158, R75). -/
def blame (s : State) (status die code : Nat) : State :=
  if code = Fc.spdPoison ∨ code = Fc.spdUncorr then s.ror status 4
  else if code = Fc.pwrGated then s.ror status 8
  else if code = Fc.addrUnmapped then s.ror (Reg.plnFabricStatus die) 2
  else if code = Fc.addrFenced then s.ror (Reg.plnFabricStatus die) 4
  else s

/-- GATHER_FLUSH: an entry of the gather buffer is written to its bank (R152, R153). -/
def execGatherFlush (c : CoreId) (line : Fin 6144) (bad : Bool) (s : State) : Host.Outcome State Fault Refusal :=
  .next (gatherFlush s c.val line.val bad)

/-! Power states of a bank (R158) -/

/-- The request bit of a bank (R160). -/
def requestBit (s : State) (r : BankRef) (on : Bool) : State :=
  match r with
  | .spd c b => s.rput (Reg.spdPwrCtl c.val) b.val on
  | .qsr q b => s.rput (Reg.qsrPwrCtl q.val) b.val on

/-- A power-down request: an ON bank drains, and its gather entries are flushed (R158). -/
def powerDown (s : State) (r : BankRef) : State :=
  let s0 := requestBit s r false
  if (getBank s r).st ≠ .on then s0 else
  let s1 := match r with
    | .spd c b => flushWhere s0 c.val fun e => e.line.val / 256 == b.val
    | .qsr _ _ => s0
  setBank s1 r fun b => { b with st := .draining }

/-- A power-up request; true: answered PENDING_ENABLE (R158). -/
def powerUp (s : State) (r : BankRef) : State × Bool :=
  let s0 := requestBit s r true
  let b := getBank s r
  match b.st with
  | .draining => (setBank s0 r fun b => { b with upRecorded := true }, true)
  | .off =>
    if b.phase then (setBank s0 r fun b => { b with upRecorded := true }, false)
    else (setBank s0 r fun b => { b with st := .waking, phase := false, upRecorded := false }, false)
  | _ => (s0, false)

/-- POWER_DOWN_REQUEST (R158). -/
def execPowerDownRequest (bank : BankRef) (s : State) : Host.Outcome State Fault Refusal := .next (powerDown s bank)

/-- POWER_UP_REQUEST (R158). -/
def execPowerUpRequest (bank : BankRef) (s : State) : Host.Outcome State Fault Refusal := .next (powerUp s bank).1

/-- Writes pending at a bank (R158): gather entries that hold lines of it. -/
def pendingWrites (s : State) : BankRef → Nat
  | .spd c b => ((s.core c.val).gather.filter fun e => e.line.val / 256 == b.val).length
  | .qsr _ _ => 0

/-- BANK_DRAINED: the pending-write count has reached zero; the bank is OFF, its contents are lost and the
ramp-down starts (R158). -/
def execBankDrained (bank : BankRef) (s : State) : Host.Outcome State Fault Refusal :=
  if (getBank s bank).st = .draining ∧ pendingWrites s bank = 0 then
    .next (setBank (clearStore s (bankBase bank) (bankBytes bank)) bank fun b => { b with st := .off, phase := true })
  else .next s

/-- RAMP_DOWN_COMPLETE: a recorded power-up starts the ramp-up (R158). -/
def execRampDownComplete (bank : BankRef) (s : State) : Host.Outcome State Fault Refusal :=
  let b := getBank s bank
  if b.st = .off ∧ b.phase then
    .next (setBank s bank fun b =>
      if b.upRecorded then { b with st := .waking, phase := false, upRecorded := false } else { b with phase := false })
  else .next s

/-- RAMP_UP_COMPLETE: the clearing of the bank starts (R158). -/
def execRampUpComplete (bank : BankRef) (s : State) : Host.Outcome State Fault Refusal :=
  let b := getBank s bank
  if b.st = .waking ∧ !b.phase then
    .next (setBank (clearStore s (bankBase bank) (bankBytes bank)) bank fun b => { b with phase := true })
  else .next s

/-- BANK_CLEAR_COMPLETE: the bank is ON and holds zeros (R158). -/
def execBankClearComplete (bank : BankRef) (s : State) : Host.Outcome State Fault Refusal :=
  let b := getBank s bank
  if b.st = .waking ∧ b.phase then .next (setBank s bank fun b => { b with st := .on, phase := false })
  else .next s

/-- Write WREG_BANKS (R139, R140): values above 24 are written as 24, and every bank whose code changes is
cleared. -/
def setWreg (s : State) (c v : Nat) : State :=
  let new := min v 24
  let old := wreg s c
  let lo := min new old
  let n := max new old - lo
  (clearStore s (spdAddr c (lo * 0x4000)) (n * 0x4000)).rsetFld (Reg.spdCtrl c) 0 5 new

/-! Uncorrectable lines (R144, R584, R585) -/

/-- A core of the quire is withdrawn, or a bank of its store retired: the quire is impaired (R585). -/
def impair (s : State) (q : Nat) : State :=
  if bit s.pkg.impaired.toNat q then s else
  ringAdd { s with pkg := { s.pkg with impaired := BitVec.ofNat 128 (setFld s.pkg.impaired.toNat q 1 1) } }
    { kind := 0x45, cls := .permanent, unitType := 2, unit := q, detail := detailOf [(28, 1, 2)] }

/-- Nothing works on the core. -/
def coreQuiet (s : State) (c : Nat) : Bool := (s.core c).part == 0

/-- The line waits for its test, and what had met it has been torn down (R144). -/
def testDue (s : State) : LineRef → Bool
  | .spd c l => (s.core c.val).toTest.contains l.val && coreQuiet s c.val
  | .sts c l => (s.core c.val).toTest.contains (0x10000 + l.val) && coreQuiet s c.val
  | .qsr q l => (s.quire q.val).toTest.contains l.val && (List.range 32).all fun i => coreQuiet s (32 * q.val + i)

/-- A ring entry for an uncorrectable line (R581). -/
def lineEvent (s : State) (kind ut unit line : Nat) (perm : Bool) : State :=
  ringAdd s { kind := kind, cls := if perm then .permanent else .transient, unitType := ut, unit := unit,
              detail := detailOf [(28, 2, line)], retired := perm }

/-- LINE_TEST: the ones-and-zeros test of an uncorrectable line (R144). `fails`: a read-back was uncorrectable. -/
def execLineTest (line : LineRef) (fails : Bool) (s : State) : Host.Outcome State Fault Refusal :=
  if !testDue s line then .next s else
  match line with
  | .spd c l =>
    let b := l.val / 256
    let perm := fails || (spdBank s c.val b).uncorr
    let s1 := setSpdBank (s.modCore c.val fun x => { x with toTest := delNat l.val x.toTest }) c.val b
      fun k => { k with uncorr := true, retired := k.retired || perm }
    let s2 := clearStore s1 (spdAddr c.val (64 * l.val)) 64
    let s3 := lineEvent s2 0x10 3 (c.val * 24 + b) l.val perm
    if perm then
      .next (impair (((s3.ror (Reg.spdStatus c.val) 0x40).ror (Reg.spdBankRetired c.val) (2 ^ b)).modCore c.val
        fun x => { x with withdrawn := true }) (c.val / 32))
    else .next s3
  | .sts c l =>
    let perm := fails || (s.core c.val).stateUncorr
    let s1 := s.modCore c.val fun x => { x with
      toTest := delNat (0x10000 + l.val) x.toTest
      stateUncorr := true
      withdrawn := x.withdrawn || perm }
    let s2 := clearStore s1 (stsAddr c.val (64 * l.val)) 64
    let s3 := lineEvent s2 0x12 1 c.val l.val perm
    .next (if perm then impair s3 (c.val / 32) else s3)
  | .qsr q l =>
    let b := l.val / 2048
    let perm := fails || (qsrBank s q.val b).uncorr
    let s1 := setQsrBank (s.modQuire q.val fun x => { x with toTest := delNat l.val x.toTest }) q.val b
      fun k => { k with uncorr := true, retired := k.retired || perm }
    let s2 := clearStore s1 (qsrAddr q.val (64 * l.val)) 64
    let s3 := lineEvent s2 0x11 4 (q.val * 32 + b) l.val perm
    .next (if perm then impair (s3.ror (Reg.qsrStatus q.val) 0x40) q.val else s3)

/-! Slots (R145 to R149) -/

/-- A consumer of a slot has completed its last read (R147). -/
def slotConsumed (s : State) (c k : Nat) : State :=
  s.modCore c fun x => { x with slots := x.slots.mod k fun v =>
    if v.remain ≤ 1 then { v with remain := 0, full := false } else { v with remain := v.remain - 1 } }

/-- A producer's last write into a slot has been accepted: FULL, and REMAIN from READERS (R147). -/
def slotProduced (s : State) (c k : Nat) : State :=
  s.modCore c fun x => { x with slots := x.slots.mod k fun v => { v with full := true, remain := v.readers } }

/-- What a descriptor meets at the slots it names (R147): 255 or none in the header is `none`. -/
def slotChk (s : State) (c : Nat) (cons prod : Option Nat) : Chk :=
  let one (k : Option Nat) (full : Bool) : Chk :=
    match k with
    | none => .ok
    | some k =>
      let v := (s.core c).slots.get k
      if !v.defined then .fault Fc.slotParam 0 else if v.full = full then .ok else .stall
  (one cons true).both (one prod false)

end Sys2Proof.Machine
end

