-- ==== Sys2Proof/Machine/Desc.lean ====
section
/-! DEFINITION. The layout of descriptors (R128, R170, R196, R198, R225, R251, R281): header fields, classes and
operation codes, and reserved fields. A descriptor is its 64 bytes as one number, byte 0 lowest. -/

namespace Sys2Proof.Machine

def Fc.reserved : Nat := 0x100
def Fc.dckClass : Nat := 0x101
def Fc.deckleOvf : Nat := 0x102
def Fc.dckPatch : Nat := 0x103
def Fc.dmvParam : Nat := 0x104
def Fc.dmvShared : Nat := 0x105
def Fc.dmvRemote : Nat := 0x106
def Fc.synParam : Nat := 0x107
def Fc.dckChain : Nat := 0x108

/-! The common header (R170) -/
def hClass (w : Nat) : Nat := fld w 0 4
def hCheap (w : Nat) : Bool := bit w 4
def hCons (w : Nat) : Option Nat := if bit w 14 then some (fld w 8 6) else none
def hProd (w : Nat) : Option Nat := if bit w 22 then some (fld w 16 6) else none
def hLevel (w : Nat) : Nat := fld w 24 2
def hExit (w : Nat) : Bool := bit w 26
def hWhen (w : Nat) : Nat := fld w 27 3
def hWdim (w : Nat) : Nat := fld w 30 2
def hLive (w : Nat) : Nat := fld w 32 16

/-- The operation code of a descriptor: KIND or OP of its class. -/
def hOp (w : Nat) : Nat :=
  match hClass w with
  | 1 => fld w 64 4
  | 2 => fld w 64 6
  | 3 => fld w 64 3
  | 4 => fld w 64 2
  | 5 => fld w 64 3
  | _ => fld w 64 4

/-- Operation codes of the vector engine (R206, R209, R212, R213, R218, R222). -/
def vecOps : List Nat :=
  List.range 0x14 ++ [0x20, 0x21, 0x22, 0x23, 0x24, 0x28, 0x29, 0x2A, 0x30, 0x38]

/-- The CLASS and the operation are not reserved (R170, R226) (DEDUCED, log 69). -/
def classOk (w : Nat) : Bool :=
  let op := hOp w
  match hClass w with
  | 1 => decide (op < 4)
  | 2 => vecOps.contains op
  | 3 => decide (op < 5)
  | 4 => decide (op < 3)
  | 5 => decide (op < 3)
  | 6 => decide (op < 7)
  | _ => false

/-- [31:19] of `n` consecutive words from byte `b`: the reserved bits of scratchpad offsets. -/
def offsetRes (b n : Nat) : List (Nat × Nat) := (List.range n).map fun i => (8 * b + 32 * i + 19, 13)

/-- Reserved fields of a descriptor, as first bit and width. -/
def resFields (w : Nat) : List (Nat × Nat) :=
  [(5, 3), (15, 1), (23, 1), (48, 16)] ++
  match hClass w with
  | 1 => [(70, 2), (77, 3), (87, 9), (101, 3), (109, 3), (117, 3), (125, 3), (138, 6), (152, 8), (167, 9), (185, 7)]
      ++ offsetRes 24 1 ++ offsetRes 32 2 ++ offsetRes 44 2 ++ offsetRes 56 1 ++ [(488, 8)]
  | 2 => [(70, 2), (78, 2), (87, 9), (101, 3), (109, 3), (117, 3), (125, 3)] ++ offsetRes 20 5 ++ offsetRes 56 1 ++
      (match hOp w with
      | 0x38 => [(500, 12)]
      | 0x30 => [(498, 14)]
      | _ => [(480, 32)])
  | 3 => [(77, 3), (87, 9), (101, 3), (109, 3), (117, 3), (125, 3), (135, 1), (142, 2), (155, 5), (169, 7)]
      ++ offsetRes 24 5 ++ [(374, 10)] ++ offsetRes 48 2
  | 4 => [(69, 3), (79, 1), (87, 9), (101, 3), (109, 3), (117, 3), (120, 8), (134, 2), (139, 5), (149, 3), (152, 8)]
      ++ offsetRes 20 5 ++ [(368, 144)]
  | 5 => [(70, 2), (78, 2), (94, 2), (96, 32), (176, 16), (240, 16), (336, 16), (376, 8), (452, 12), (464, 48)]
  | _ => [(68, 4), (78, 2), (85, 11), (126, 2), (179, 13), (195, 13), (208, 304)]

/-- Some reserved field is nonzero, or LIVE is nonzero without CHEAP, or WHEN holds a reserved code (R170). -/
def reservedSet (w : Nat) : Bool :=
  (resFields w).any (fun f => fld w f.1 f.2 != 0) || (!hCheap w && hLive w != 0) || decide (5 ≤ hWhen w)

/-- A reserved field that overlaps the bits from `lo`, `n` bits, is nonzero (R176) (DEDUCED, log 69). -/
def reservedIn (w lo n : Nat) : Bool :=
  (resFields w).any fun f => decide (f.1 < lo + n) && decide (lo < f.1 + f.2) && fld w f.1 f.2 != 0

/-- The engine of a class (R171); the Deckle runs SYN itself. -/
def engineOf (w : Nat) : Option Engine :=
  match hClass w with
  | 1 => some .mma
  | 2 => some .vec
  | 3 => some .att
  | 4 => some .sta
  | 5 => some .dmv
  | _ => none

/-- Descriptors that an engine's queue holds (R171). -/
def queueRoom : Engine → Nat
  | .dmv => 16
  | _ => 8

end Sys2Proof.Machine
end

