-- ==== Sys2Proof/Machine/Power.lean ====
section
/-! DEFINITION. The module: supplies and resets (R547 to R559, R564), the power governor (R551), junction limits
(R560), coolant (R570), and the management bus (R563). Voltages are in 100 mV units, clocks in 25 MHz units. -/

namespace Sys2Proof.Machine

/-! Reset -/

/-- Keep the entries of companion memory, which belongs to the companion (DESIGN CHOICE, log 2). -/
def keepCompanion {α : Type} (m : SMap α) (scale : Nat) : SMap α := ⟨m.cells.filter fun c => decide (compBase ≤ c.1 * scale)⟩

/-- THM_PWR_LIMIT under its clamps (R561). -/
def clampPower (w : Nat) : Nat := max 1500 (min 3600 w)

/-- Every block other than the management island returns to its reset state (R556). Fuses and boot flash stay
(R504, R505); effecter 10 is kept and applied (R563, R572) (DESIGN CHOICE, log 2; DESIGN CHOICE, log 26). -/
def moduleReset (s : State) : State :=
  let r : State := { State.reset with
    pending := s.pending
    fresh := s.fresh
    mem := keepCompanion s.mem 1
    poison := keepCompanion s.poison 64
    nv := s.nv
    mod := { ModSt.reset with
      auxOk := s.mod.auxOk, auxDv := s.mod.auxDv, mainDv := s.mod.mainDv, converters := s.mod.converters
      tripped := s.mod.tripped, inlet := s.mod.inlet, outlet := s.mod.outlet, effecter := s.mod.effecter
      receiver := s.mod.receiver, crossed := s.mod.crossed, straps := s.mod.straps } }
  match s.mod.effecter with
  | some w => r.rset Reg.thmPwrLimit (w.setWidth 32)
  | none => r

/-- The converters stop: every context, stacked memory content and key is lost (R548). -/
def powerOff (s : State) : State := moduleReset { s with mod := { s.mod with converters := false } }

/-- Aux within its operating range, 11.4 to 12.6 V; main within 48 to 58 V (R547). -/
def auxInRange (dv : BitVec 10) : Bool := decide (114 ≤ dv.toNat) && decide (dv.toNat ≤ 126)
def mainInRange (dv : BitVec 10) : Bool := decide (480 ≤ dv.toNat) && decide (dv.toNat ≤ 580)

/-! Readings of the management bus (R563) -/

/-- Eight bits of two's complement. -/
def degC (v : BitVec 8) : Int := v.toInt

/-- The stack above a quire's site: the west or east spare, or the home site (R381). -/
def stackOf (s : State) (q : Nat) : Nat :=
  let d := q / 16
  let x := q % 4
  let y := q % 16 / 4
  match (s.pkg.backing.get q).toNat with
  | 2 => 3 * d
  | 3 => 3 * d + 1
  | _ => if y ≤ 1 then (if x ≤ 1 then 3 * d else 3 * d + 1) else 3 * d + 2

/-- A quire position is backed (R64, R66). -/
def isBacked (s : State) (q : Nat) : Bool :=
  let b := (s.pkg.backing.get q).toNat
  decide (1 ≤ b) && decide (b ≤ 3)

/-- The three limits of a quire: stack, junction, command (R383, R551, R560). -/
def stackLimitOf (s : State) (q : Nat) : Nat := 48 - (s.stack (stackOf s q)).drop.toNat
def juncLimitOf (s : State) (q : Nat) : Nat := 48 - (s.mod.juncDrop.get q).toNat
def cmdLimitOf (s : State) (q : Nat) : Nat := min s.mod.powerClock.toNat (s.rnat (Reg.thmCeil q))

/-- A quire's core clock: the lowest of its limits (R383). -/
def clockOf (s : State) (q : Nat) : Nat := min (stackLimitOf s q) (min (juncLimitOf s q) (cmdLimitOf s q))

/-- The lowest core clock of a list of quires, 48 for none. -/
def lowestClock (s : State) (qs : List Nat) : Nat := qs.foldl (fun n q => min n (clockOf s q)) 48

/-- The quires that are backed. -/
def backedQuires (s : State) : List Nat := (List.range 128).filter (isBacked s)

/-- The 1 ms average of the input power (R551). -/
def avgPower (s : State) : Nat :=
  s.mod.samples.foldl (fun n w => n + w.toNat) 0 / max 1 s.mod.samples.length

/-- The hottest last junction reading and its quire. -/
def hottest (s : State) : Int × Nat :=
  s.mod.junc.cells.foldl (fun best c =>
    match c.2 with
    | v :: _ => if best.1 < degC v then (degC v, c.1) else best
    | [] => best) ((match s.mod.junc.get 0 with | v :: _ => degC v | [] => 0), 0)

/-- The hottest DRAM die of all stacks. -/
def hottestDram (s : State) : Int :=
  (List.range 24).foldl (fun n k => max n (sext 8 (s.rfld (Reg.hbmTemp k) 0 8))) (-128)

/-- A sensor's value (R563). -/
def sensorValue (s : State) (id : Nat) : Int :=
  match id with
  | 1 => avgPower s
  | 2 => s.mod.mainDv.toNat
  | 3 => s.mod.auxDv.toNat
  | 4 => (hottest s).1
  | 5 => hottestDram s
  | 6 => degC s.mod.inlet
  | 7 => degC s.mod.outlet
  | 8 => 25 * lowestClock s (backedQuires s)
  | 9 => s.rnat Reg.plnAlertCause
  | _ => 0

/-- A sensor whose source is unpowered is unavailable (R563). -/
def sensorAvailable (s : State) (id : Nat) : Bool :=
  s.mod.converters || id == 2 || id == 3 || id == 6 || id == 7 || id == 9

/-- How far a sensor is past its thresholds: 0 within, 1 past the warning, 2 past the critical one (R563). -/
def sensorLevel (s : State) (id : Nat) : Nat :=
  let v := sensorValue s id
  if !sensorAvailable s id then 0 else
  match id with
  | 1 => if (s.rnat Reg.thmPwrLimit : Int) < v then 1 else 0
  | 2 => if v < 480 ∨ 580 < v then 1 else 0
  | 3 => if v < 114 ∨ 126 < v then 1 else 0
  | 4 => if 105 ≤ v then 2 else if (s.rnat Reg.thmJuncHi : Int) ≤ v then 1 else 0
  | 5 => if 95 ≤ v then 2 else if (s.rnat Reg.thmDramHi : Int) ≤ v then 1 else 0
  | 6 => if 35 < v then 1 else 0
  | 7 => if degC s.mod.inlet + 15 < v then 1 else 0
  | 9 => if v ≠ 0 then 1 else 0
  | _ => 0

/-- A message on the management bus (DESIGN CHOICE, log 14). -/
def smbusOut (s : State) (m : List Byte) : State := { s with out := { s.out with smbus := s.out.smbus ++ [m] } }

/-- Send a sensor event for each sensor that crossed a threshold since the last look, when a receiver is set
(R563). -/
def sensorEvents (s : State) : State :=
  let now := (List.range 10).map (sensorLevel s)
  let changed := (List.range 10).filter fun i => now.getD i 0 != s.mod.crossed.getD i 0
  let s1 : State := { s with mod := { s.mod with crossed := now } }
  match s.mod.receiver with
  | some eid => changed.foldl (fun s i =>
      smbusOut s [eid, 0x0A, BitVec.ofNat 8 i, BitVec.ofNat 8 (now.getD i 0)]) s1
  | none => s1

/-! Supplies -/

/-- CONVERTER_START: aux within range and main at 47 V (R548). -/
def execConverterStart (mainDv : BitVec 10) (s : State) : Host.Outcome State Fault Refusal :=
  if s.mod.auxOk ∧ !s.mod.tripped ∧ !s.mod.converters ∧ 470 ≤ mainDv.toNat then
    .next (sensorEvents { s with mod := { s.mod with converters := true, mainDv := mainDv } })
  else .next s

/-- CONVERTER_STOP: main outside 46 to 60 V for more than 20 µs, or aux outside its range (R548). -/
def execConverterStop (mainDv auxDv : BitVec 10) (s : State) : Host.Outcome State Fault Refusal :=
  if s.mod.converters ∧ (mainDv.toNat < 460 ∨ 600 < mainDv.toNat ∨ !auxInRange auxDv) then
    let s1 := powerOff { s with mod := { s.mod with mainDv := mainDv, auxDv := auxDv, auxOk := auxInRange auxDv } }
    .next (sensorEvents (s1.ror Reg.plnAlertCause 0x100))
  else .next s

/-- AUX_LOST: the converters stop and the management island resets (R549). -/
def execAuxLost (s : State) : Host.Outcome State Fault Refusal :=
  .next { powerOff { s with mod := { ModSt.reset with mainDv := s.mod.mainDv } } with
    mod := { ModSt.reset with mainDv := s.mod.mainDv } }

/-- AUX_WITHIN_RANGE: the management island starts (R549). -/
def execAuxWithinRange (auxDv : BitVec 10) (s : State) : Host.Outcome State Fault Refusal :=
  if auxInRange auxDv ∧ !s.mod.auxOk then
    .next (sensorEvents { s with mod := { s.mod with auxOk := true, auxDv := auxDv } })
  else .next s

/-- MOD_RESET_N low for `ns` nanoseconds (R556): 1 ms resets, less than 1 µs never does, between the two a free
value decides. 1 s lets the converters start again after a trip (R558) (DESIGN CHOICE, log 26). -/
def execModResetN (ns : BitVec 40) (s : State) : Host.Outcome State Fault Refusal :=
  if ns.toNat < 1000 then .next s
  else if ns.toNat < 1000000 then
    let (v, s1) := s.draw
    if v.getLsbD 0 then .next (moduleReset s1) else .next s1
  else
    let s1 := if 1000000000 ≤ ns.toNat then { s with mod := { s.mod with tripped := false } } else s
    .next (moduleReset s1)

/-- EXTEST: loading a boundary-scan instruction holds the module in module reset (R564). -/
def execExtest (_insn : TapInsn) (s : State) : Host.Outcome State Fault Refusal := .next (moduleReset s)

/-- THERMAL_TRIP: THERM_TRIP_N is asserted and the converters stop (R558). -/
def execThermalTrip (_cause : TripCause) (s : State) : Host.Outcome State Fault Refusal :=
  if s.mod.converters then .next (sensorEvents (powerOff { s with mod := { s.mod with tripped := true } })) else .next s

/-- REFCLK_CORE_LOST: an interrupting failure that faults every context (R554). -/
def execRefclkCoreLost (s : State) : Host.Outcome State Fault Refusal :=
  .next (sensorEvents (deviceFailure (s.ror Reg.clkStatus 2)
    { kind := 0x41, cls := .permanent, unitType := 0, unit := 0, detail := detailOf [(28, 1, 1)] }))

/-! Governors -/

/-- Publish THM_PWR_INPUT (R573). -/
def syncPower (s : State) : State :=
  s.rset Reg.thmPwrInput (BitVec.ofNat 32
    (at_ 0 12 (avgPower s) + at_ 12 10 s.mod.mainDv.toNat + at_ 22 6 s.mod.powerClock.toNat))

/-- POWER_SAMPLE: an input power measurement joins the 1 ms average (R551); a supply outside its range is
flagged (R573). -/
def execPowerSample (watts : BitVec 16) (mainDv : BitVec 10) (s : State) : Host.Outcome State Fault Refusal :=
  if !s.mod.converters then .next s else
  let s1 : State := { s with mod := { s.mod with mainDv := mainDv, samples := (watts :: s.mod.samples).take 100 } }
  let bad := !mainInRange mainDv || !auxInRange s.mod.auxDv
  let s2 := if bad then s1.ror Reg.thmStatus 0x10 else s1
  .next (sensorEvents (syncPower (s2.rput Reg.plnAlertCause 8 bad)))

/-- POWER_GOVERNOR: the power clock steps against the power limit (R551). -/
def execPowerGovernor (s : State) : Host.Outcome State Fault Refusal :=
  let lim := s.rnat Reg.thmPwrLimit
  let k := s.mod.powerClock.toNat
  let k' := if lim < avgPower s then max 12 (k - 1) else if avgPower s * 100 < lim * 97 then min 48 (k + 1) else k
  let s1 := if k' < 48 ∧ k' < k then s.ror Reg.thmStatus 4 else s
  .next (syncPower { s1 with mod := { s1.mod with powerClock := BitVec.ofNat 6 k' } })

/-- Publish THM_JUNC_MAX (R573). -/
def syncHottest (s : State) : State :=
  let h := hottest s
  s.rset Reg.thmJuncMax (BitVec.ofNat 32 (toBits 8 h.1 + at_ 8 7 h.2))

/-- Bit `q` of a 128-bit set. -/
def setBit128 (v : BitVec 128) (q : Nat) (b : Bool) : BitVec 128 := BitVec.ofNat 128 (setFld v.toNat q 1 (b2n b))

/-- JUNCTION_READ: a junction reading, with the emergency of 105 °C (R560). -/
def execJunctionRead (q : QuireId) (degree : BitVec 8) (s : State) : Host.Outcome State Fault Refusal :=
  let n := q.val
  let t := degC degree
  let s1 : State := { s with mod := { s.mod with junc := s.mod.junc.mod n fun l => (degree :: l).take 6 } }
  let was := s.mod.juncEmerg.getLsbD n
  let s2 :=
    if 105 ≤ t then
      let s2 := (s1.ror Reg.thmStatus 3).ror Reg.plnAlertCause 0x20
      let s3 : State := { s2 with mod := { s2.mod with
        juncDrop := s2.mod.juncDrop.set n 36, juncEmerg := setBit128 s2.mod.juncEmerg n true } }
      if was then s3 else
        ringAdd s3 { kind := 0x42, cls := .event, unitType := 2, unit := n, detail := detailOf [(28, 1, degree.toNat)] }
    else if was ∧ t ≤ (s1.rnat Reg.thmJuncLo : Int) then
      let s3 : State := { s1 with mod := { s1.mod with juncEmerg := setBit128 s1.mod.juncEmerg n false } }
      s3.rput Reg.plnAlertCause 5 (decide (s3.mod.juncEmerg ≠ 0))
    else s1
  .next (sensorEvents (syncHottest s2))

/-- One junction limit step of a quire (R560). -/
def juncStep (s : State) (q : Nat) : State :=
  match (s.mod.junc.get q).map degC with
  | [] => s
  | r :: rs =>
    let t := rs.foldl max r
    let d := (s.mod.juncDrop.get q).toNat
    if (s.rnat Reg.thmJuncHi : Int) ≤ t then
      let s1 : State := { s with mod := { s.mod with juncDrop := s.mod.juncDrop.set q (BitVec.ofNat 6 (min 36 (d + 1))) } }
      s1.ror Reg.thmStatus 1
    else if t ≤ (s.rnat Reg.thmJuncLo : Int) then
      { s with mod := { s.mod with juncDrop := s.mod.juncDrop.set q (BitVec.ofNat 6 (d - 1)) } }
    else s

/-- JUNCTION_LIMIT: every quire's junction limit steps (R560). -/
def execJunctionLimit (s : State) : Host.Outcome State Fault Refusal :=
  .next ((List.range 128).foldl juncStep s)

/-- COOLANT_READ: inlet and outlet temperatures (R570). -/
def execCoolantRead (inlet outlet : BitVec 8) (s : State) : Host.Outcome State Fault Refusal :=
  if !s.mod.auxOk then .next s else
  let bad := decide (35 < degC inlet) || decide (degC inlet + 15 < degC outlet)
  let s1 : State := { s with mod := { s.mod with inlet := inlet, outlet := outlet } }
  let s2 := s1.rset Reg.thmCoolant (BitVec.ofNat 32 (inlet.toNat + 256 * outlet.toNat))
  let s3 := if bad then s2.ror Reg.thmStatus 8 else s2
  .next (sensorEvents (s3.rput Reg.plnAlertCause 7 bad))

/-! The management bus (R563) -/

/-- SET_NUMERIC_EFFECTER_VALUE: effecter 10 writes THM_PWR_LIMIT under its clamps, or is held while main is off. -/
def execSetNumericEffecterValue (effecter : BitVec 8) (value : BitVec 16) (s : State) :
    Host.Outcome State Fault Refusal :=
  if !s.mod.auxOk then .next s
  else if effecter = 10 then
    let w := BitVec.ofNat 16 (clampPower value.toNat)
    let s1 : State := { s with mod := { s.mod with effecter := some w } }
    let s2 := if s.mod.converters then s1.rset Reg.thmPwrLimit (w.setWidth 32) else s1
    .next (sensorEvents (smbusOut s2 [0x31, 0]))
  else .next (smbusOut s [0x31, 0x80])

/-- GET_SENSOR_READING: the answer is a completion code, the operational state and the reading. -/
def execGetSensorReading (sensor : BitVec 8) (s : State) : Host.Outcome State Fault Refusal :=
  let id := sensor.toNat
  if !s.mod.auxOk then .next s
  else if id < 1 ∨ 9 < id then .next (smbusOut s [0x11, 0x80])
  else if sensorAvailable s id then
    .next (smbusOut s ([0x11, 0, 0] ++ leBytes 4 (toBits 32 (sensorValue s id))))
  else .next (smbusOut s [0x11, 0, 2])

/-- SET_EVENT_RECEIVER: sensor events go to the receiver from now on. -/
def execSetEventReceiver (eid : BitVec 8) (s : State) : Host.Outcome State Fault Refusal :=
  if !s.mod.auxOk then .next s
  else .next (smbusOut { s with mod := { s.mod with receiver := some eid } } [0x04, 0])

end Sys2Proof.Machine
end

