-- ==== Sys2Proof/Machine/Walk.lean ====
section
/-! DEFINITION. The Deckle (chapter 06): the program image, nests and their walk, sharing work among cores, patches,
issue, completion, and the prefetcher. -/

namespace Sys2Proof.Machine

/-! The program image (R167, R168): a reader of little-endian numbers at an image offset -/

/-- An image: offset and bytes to number. -/
abbrev Img := Nat → Nat → Nat

/-- The image in a quire's store. -/
def qImg (s : State) (q : Nat) : Img := fun off n => s.rdN (qsrAddr q off) n

def imStep (im : Img) : Bool := bit (im 6 2) 0
def imDescs (im : Img) : Nat := im 8 4
def imWreg (im : Img) : Nat := fld (im 22 1) 0 5
def imAhead (im : Img) : Nat := fld (im 23 1) 0 3
def imNests (im : Img) : Nat := im 24 2
def imLayers (im : Img) : Nat := im 26 2
def imLives (im : Img) : Nat := im 28 2
def imPatches (im : Img) : Nat := im 32 4
def imRanges (im : Img) : Nat := im 36 4
def imLiveMax (im : Img) : Nat := im 16 4

def imNestOff (im : Img) : Nat := 64 + 64 * imDescs im
def imPatchOff (im : Img) : Nat := imNestOff im + 64 * imNests im
def imLayerOff (im : Img) : Nat := imPatchOff im + 8 * imPatches im
def imLiveOff (im : Img) : Nat := imLayerOff im + 16 * imLayers im
def imRangeOff (im : Img) : Nat := imLiveOff im + 8 * imLives im
def imEnd (im : Img) : Nat := imRangeOff im + 8 * imRanges im

def imDesc (im : Img) (i : Nat) : Nat := im (64 + 64 * i) 64
def imNest (im : Img) (k : Nat) : Nat := im (imNestOff im + 64 * k) 64
def imPatch (im : Img) (k : Nat) : Nat := im (imPatchOff im + 8 * k) 8
def imLayer (im : Img) (k : Nat) : Nat := im (imLayerOff im + 16 * k) 16
def imLive (im : Img) (k : Nat) : Nat := im (imLiveOff im + 8 * k) 8
def imRange (im : Img) (k : Nat) : Nat := im (imRangeOff im + 8 * k) 8

/-! Nest records (R173) -/
def nSplit (r : Nat) : Nat := fld r 0 2
def nCores (r : Nat) : Nat := fld r 2 2
def nFuse (r : Nat) : Bool := bit r 4
def nDim (r : Nat) : Nat := fld r 8 2
def nRed (r : Nat) : Option Nat := if bit r 12 then some (fld r 10 2) else none
def nRoster (r : Nat) : Option Nat := if bit r 13 then some (fld r 14 2) else none
def nCtr (r : Nat) : Nat := fld r 16 4
def nLayer (r : Nat) : Nat := fld r 20 10
def nOrder (r lvl : Nat) : Nat := fld r (8 * (7 - lvl)) 8
def nPlanned (r d : Nat) : Nat := fld r (64 + 32 * d) 32
def nTile (r lvl d : Nat) : Nat := fld r (192 + 16 * (4 * (lvl - 1) + d)) 16
def nFirst (r : Nat) : Nat := fld r 384 16
def nCount (r : Nat) : Nat := fld r 400 16
def nZero (r : Nat) : Nat := fld r 416 16
def nShape (r : Nat) : Nat := fld r 448 22
def nPatchAt (r : Nat) : Nat := fld r 480 16
def nPatchCount (r : Nat) : Nat := fld r 496 16

/-- The dimensions of a level's order, outermost first. -/
def orderOf (r lvl : Nat) : List Nat := (List.range 4).map fun i => fld (nOrder r lvl) (2 * i) 2

/-- The nest whose first descriptor has this index. -/
def nestAt (im : Img) (pos : Nat) : Option Nat :=
  (List.range (imNests im)).find? fun k => nFirst (imNest im k) == pos && nCount (imNest im k) != 0

/-- The nests of the fusion chain that starts at a nest: at most four (R186) (DEDUCED, log 68). -/
def chainFrom (im : Img) : Nat → Nat → List Nat
  | 0, _ => []
  | n + 1, k => if nFuse (imNest im k) && decide (k + 1 < imNests im) then k :: chainFrom im n (k + 1) else [k]

/-- A nest holds a MCAST MOVE (R184). -/
def hasMcast (im : Img) (r : Nat) : Bool :=
  (List.range (nCount r)).any fun i =>
    let w := imDesc im (nFirst r + i)
    hClass w == 5 && hOp w == 0 && bit w 68

/-! The work a core runs -/

def workOf (s : State) (c : Nat) : Work := (s.part ((s.core c).part - 1)).works.get ((s.core c).slot - 1)
def partOf (s : State) (c : Nat) : Nat := (s.core c).part - 1

/-- Quires of the work: "the cores of the partition" to the Deckle (R481). -/
def workQuires (s : State) (c : Nat) : List Nat := bitsOf 128 (workOf s c).quires.toNat

/-- The cores that a CORES code selects (R173, R198), by logical number. -/
def selectCores (quires : BitVec 128) (sel : Nat) : List Nat :=
  (coresOf quires).filter fun c => sel == 0 || (sel == 1 && decide (c % 32 < 28)) || (sel == 2 && decide (28 ≤ c % 32))

/-- The image that a core walks. -/
def coreImg (s : State) (c : Nat) : Img := qImg s (c / 32)

/-- The walk of the core goes on: it has work that runs, and has not ended. -/
def walking (s : State) (c : Nat) : Bool :=
  (s.core c).part != 0 && !(s.core c).ended &&
    ((workOf s c).st = .running || (workOf s c).st = .preempting)

/-- Issue has stopped at a cheap point, program start among them (R169, R187, R194): for the walk outside nests, for a nest that stands alone, and
for the first walker of a chain. -/
def stopped (C : Core) (w : Nat) : Bool :=
  C.preempt && (C.cheapAt != 0 || (C.pos == 0 && C.walkers.isEmpty)) && w == 0

/-! Tiles (R174) -/

/-- The cuts of [s, s + e) by tiles of size `t`; an extent of zero is one tile. -/
def cuts (s e t : Nat) : List (Nat × Nat) :=
  if e = 0 then [(s, 0)] else
  (List.range (ceilDiv e (max t 1))).map fun i => (s + i * max t 1, min (max t 1) (e - i * max t 1))

/-- The tiles inside a tile, the dimensions taken in the order given, outermost first. -/
def subTiles (parent : Tile) (size : Nat → Nat) (order : List Nat) : List Tile :=
  order.foldl (fun acc d => acc.flatMap fun t =>
    (cuts (t.s.getD d 0) (t.e.getD d 0) (size d)).map fun c => { s := setAt t.s d c.1, e := setAt t.e d c.2 }) [parent]

/-- Items along SPLIT_DIM (R179). -/
def itemCount (r : Nat) (ext : List Nat) : Nat := ceilDiv (ext.getD (nDim r) 0) (max 1 (nTile r 3 (nDim r)))

/-- The level-3 tiles of an item, SPLIT_DIM held fixed (R174); an item past the last has extent zero (R185). -/
def itemTiles (r : Nat) (ext : List Nat) (item : Nat) : List Tile :=
  let d := nDim r
  let t := max 1 (nTile r 3 d)
  let x := ext.getD d 0
  let whole : Tile :=
    if item * t < x then { s := setAt [0, 0, 0, 0] d (item * t), e := setAt ext d (min t (x - item * t)) }
    else { s := [0, 0, 0, 0], e := setAt ext d 0 }
  subTiles whole (nTile r 3) ((orderOf r 3).filter (· != d))

/-- The tile of a walker at a level. -/
def Walker.tile (W : Walker) (lvl : Nat) : Tile := if lvl = 1 then W.t1 else if lvl = 2 then W.t2 else W.t3

/-- WHEN holds for the tile at the descriptor's level (R174). -/
def whenHolds (w : Nat) (ext : List Nat) (t : Tile) : Bool :=
  let d := hWdim w
  let first := t.s.getD d 0 == 0
  let last := t.s.getD d 0 + t.e.getD d 0 == ext.getD d 0
  match hWhen w with
  | 0 => true
  | 1 => first
  | 2 => !first
  | 3 => last
  | 4 => !last
  | _ => true

/-- The descriptors that a visit issues (R174); the run of ZERO_RED_DESC alone when the reduction is empty
(R178). -/
def visitDescs (im : Img) (W : Walker) (lvl : Nat) (exit : Bool) : List IssueEnt :=
  let r := imNest im W.nest
  if W.zeroRed then (if lvl = 1 ∧ !exit then [{ idx := nZero r, level := 1 }] else [])
  else
    ((List.range (nCount r)).map (nFirst r + ·)).filterMap fun i =>
      let w := imDesc im i
      if hLevel w == lvl && hExit w == exit && i != nZero r && whenHolds w W.ext (W.tile lvl) then
        some { idx := i, level := lvl } else none

/-! Patches (R175, R176) -/

/-- The signed STRIDE of a patch entry. -/
def patchStride (p : Nat) : Int := sext 32 (fld p 32 32)

/-- Apply one patch; `none`: DCK_PATCH (R176). -/
def patchOne (W : Walker) (lvl : Nat) (w p : Nat) : Option Nat :=
  let lo := 8 * fld p 16 6
  let n := 16 * 2 ^ fld p 22 2
  let d := fld p 24 2
  let base := fld p 28 2
  let t := W.tile lvl
  let old : Int := (fld w lo n : Nat)
  let start : Int := (t.s.getD d 0 : Nat)
  let ord : Nat :=
    if base = 0 then Config.altOrdinal W.ord1 else (if base = 1 then W.ord1 else if base = 2 then W.ord2 else W.ord3) - 1
  let v : Int :=
    match fld p 26 2 with
    | 0 => old + start * patchStride p
    | 1 => old + (start - ((W.tile base).s.getD d 0 : Nat)) * patchStride p
    | 2 => (t.e.getD d 0 : Nat) * patchStride p
    | _ => old + (ord % 2 : Nat) * patchStride p
  if 0 ≤ v ∧ v < (2 ^ n : Nat) then
    let w' := setFld w lo n v.toNat
    if reservedIn w' lo n then none else some w'
  else none

/-- A descriptor with the patches of its nest, in ascending patch index (R176). -/
def patchWord (im : Img) (W : Walker) (e : IssueEnt) : Option Nat :=
  let r := imNest im W.nest
  ((List.range (nPatchCount r)).map fun i => imPatch im (nPatchAt r + i)).foldl (fun acc p =>
    match acc with
    | none => none
    | some w => if fld p 0 16 = e.idx then patchOne W e.level w p else some w) (some (imDesc im e.idx))

/-! Moving a walk on -/

/-- A walker has nothing left to walk. -/
def Walker.done (W : Walker) : Bool :=
  W.issue.isEmpty && W.stack.isEmpty && W.item.isNone && W.items.isEmpty && W.drained && W.hold = .none

/-- After its last descriptor, a walker leaves the tiles whose visits have ended, and its item (R174). -/
def settleWalker (im : Img) : Nat → Walker → Walker
  | 0, W => W
  | n + 1, W =>
    if !W.issue.isEmpty then W else
    match W.stack with
    | .leave lvl _ :: rest =>
      settleWalker im n { W with stack := rest, issue := visitDescs im W lvl true }
    | .enter _ _ :: _ => W
    | [] => { W with item := none }

/-- The items that every walker of a chain has walked are ready for their done notice (R182). -/
def markWalked (C : Core) : Core :=
  { C with openItems := C.openItems.map fun o =>
      { o with walked := o.nest != C.nest || C.walkers.all fun W => !W.items.contains o.item && W.item != some o.item } }

/-- The walk of the core goes on after a descriptor or a tile: visits end, nests end, and the walk ends once nothing
of it is left (R169, R174, R481). -/
def advance (s : State) (c : Nat) : State :=
  let im := coreImg s c
  let C := s.core c
  let C1 := markWalked { C with walkers := C.walkers.map (settleWalker im 8) }
  let C2 :=
    if C1.walkers.isEmpty || !C1.walkers.all Walker.done then C1
    else
      let last := imNest im (C1.walkers.getLast?.map (·.nest) |>.getD 0)
      { C1 with walkers := [], pos := max C1.pos (nFirst last + nCount last) }
  let atEnd := C2.walkers.isEmpty && decide (imDescs im ≤ C2.pos) && C2.inflight.isEmpty && C2.openItems.isEmpty &&
    C2.replay.isEmpty && C2.hold = .none
  s.modCore c fun _ => { C2 with ended := atEnd }

/-- A core's context takes a fault (R497), with the sticky flag that goes with it. -/
def coreFault (s : State) (c code origin : Nat) : State :=
  faultCtx (blame s (Reg.spdStatus c) (c / 512) code) (s.core c).ctx code (some c) origin

/-! NEST_ENTRY (R174, R178, R179, R185, R186) -/

/-- The run-time extents of a nest (R174). -/
def nestExtents (s : State) (c r : Nat) : List Nat :=
  let im := coreImg s c
  (List.range 4).map fun d =>
    if nRoster r = some d then im 0x3BFFC8 2 else im (nShape r + 4 * d) 4

/-- The reduction of the nest is empty, and nothing else is. -/
def emptyRed (r : Nat) (ext : List Nat) : Bool :=
  match nRed r with
  | some d => ext.getD d 0 == 0
  | none => false

/-- The nest is a no-op (R178). -/
def nestNoop (r : Nat) (ext : List Nat) : Bool :=
  ((List.range 4).any fun d => ext.getD d 0 == 0 && nRed r != some d) || (emptyRed r ext && nZero r == 0xFFFF)

/-- Items of the nest as walked: an empty reduction along SPLIT_DIM is one item. -/
def nestItems (r : Nat) (ext : List Nat) : Nat :=
  if emptyRed r ext && nRed r == some (nDim r) then 1 else itemCount r ext

/-- The items that a core holds at entry (R179, R185): all for the first core under NONE, its share under STATIC,
none yet under DRAW. -/
def firstItems (im : Img) (r n rank k : Nat) : List Nat :=
  match nSplit r with
  | 0 => if rank = 0 then List.range n else []
  | 1 =>
    let lo := rank * n / k
    let hi := (rank + 1) * n / k
    if lo = hi ∧ hasMcast im r then [n] else (List.range (hi - lo)).map (lo + ·)
  | _ => []

/-- The layer of a nest starts in the quire (R191). -/
def startLayer (s : State) (c : Nat) (r : Nat) : State :=
  if nLayer r = 1023 then s else
  let s1 := s.modCore c fun x => { x with layer := max x.layer (nLayer r + 1) }
  s1.modQuire (c / 32) fun x =>
    if x.started < nLayer r + 1 then { x with started := nLayer r + 1, layerCtx := (s.core c).ctx } else x

/-- The items that nest `k` of a chain walks: none where it is a no-op (R178). -/
def takenItems (im : Img) (k : Nat) (ext items : List Nat) : List Nat := if nestNoop (imNest im k) ext then [] else items

/-- Where the walk continues after a chain. -/
def afterChain (im : Img) (chain : List Nat) : Nat :=
  let r := imNest im (chain.getLast?.getD 0)
  nFirst r + nCount r

/-- The core takes up the items of its replay list that belong to the chain of nest `k` (R183): every walker of the
chain walks them again, from the start and under the epoch of now (DEDUCED, log 38; DEDUCED, log 41). -/
def replayItems (s : State) (c k : Nat) : State :=
  let C := s.core c
  let ctr := nCtr (imNest (coreImg s c) k)
  let epoch := ((s.quire (c / 32)).ctrs.get ctr).epoch
  let items := (C.replay.filter (·.1 == k)).map (·.2)
  s.modCore c fun x =>
    { x with
      replay := x.replay.filter (·.1 != k)
      walkers := x.walkers.map fun W =>
        { W with items := W.items ++ takenItems (coreImg s c) W.nest W.ext items, epoch := epoch }
      openItems := x.openItems ++ items.map fun i =>
        { nest := k, item := i, epoch := epoch, counter := ctr, left := 0, walked := false } }

/-- A core outside its nests walks the items left on its replay list before it goes on (R183)
(DEDUCED, log 41). -/
def replayEntry (s : State) (c k : Nat) : State :=
  let im := coreImg s c
  let ws : List Walker := (chainFrom im 4 k).map fun k =>
    { (default : Walker) with nest := k, ext := nestExtents s c (imNest im k), drained := true }
  advance (replayItems (s.modCore c fun x => { x with walkers := ws, nest := k }) c k) c

/-- NEST_ENTRY: the core enters the nest at its position, or skips it. -/
def execNestEntry (c : CoreId) (s : State) : Host.Outcome State Fault Refusal :=
  let n := c.val
  let C := s.core n
  let im := coreImg s n
  if !walking s n || !C.walkers.isEmpty || C.hold ≠ .none || stopped C 0 then .next s else
  match C.replay, C.preempt with
  | (k, _) :: _, false => .next (replayEntry s n k)
  | _, _ =>
  match nestAt im C.pos with
  | none => .next s
  | some k =>
    let chain := chainFrom im 4 k
    let r := imNest im k
    let set := selectCores (workOf s n).quires (nCores r)
    let skip : State := advance (s.modCore n fun x => { x with pos := afterChain im chain }) n
    match firstIdx (· == n) set with
    | none => .next skip
    | some rank =>
      let s0 := chain.foldl (fun s k => startLayer s n (imNest im k)) s
      if nestNoop r (nestExtents s n r) then
        .next (advance (s0.modCore n fun x => { x with pos := afterChain im chain }) n)
      else
        let counts := chain.map fun k => nestItems (imNest im k) (nestExtents s n (imNest im k))
        if counts.any (· != counts.getD 0 0) then .next (coreFault s n Fc.dckChain 0)
        else
          let ws : List Walker := chain.map fun k =>
            let r := imNest im k
            let ext := nestExtents s n r
            { (default : Walker) with
              nest := k, ext := ext, items := takenItems im k ext (firstItems im r (nestItems r ext) rank set.length)
              drained := nSplit r != 2, zeroRed := emptyRed r ext }
          .next (advance (s0.modCore n fun x => { x with walkers := ws, nest := k }) n)

/-! TILE_ENTRY (R174, R177) -/

/-- A tile reaches beyond the planned extent (R177). -/
def beyondPlan (r : Nat) (t : Tile) : Bool :=
  (List.range 4).any fun d => decide (nPlanned r d < t.s.getD d 0 + t.e.getD d 0)

/-- Change a walker of a core. -/
def modWalker (s : State) (c w : Nat) (f : Walker → Walker) : State :=
  s.modCore c fun x => { x with walkers := modAt f x.walkers w }

/-- A walker enters a tile: ordinals and enclosing tiles, the visits inside it, and its ENTER descriptors. -/
def enterTile (im : Img) (W : Walker) (lvl : Nat) (t : Tile) (rest : List Visit) : Walker :=
  let r := imNest im W.nest
  let subs := if lvl ≤ 1 then [] else (subTiles t (nTile r (lvl - 1)) (orderOf r (lvl - 1))).map (Visit.enter (lvl - 1))
  let W1 := { W with
    stack := subs ++ Visit.leave lvl t :: rest
    ord1 := if lvl = 1 then W.ord1 + 1 else W.ord1
    ord2 := if lvl = 2 then W.ord2 + 1 else W.ord2
    ord3 := if lvl = 3 then W.ord3 + 1 else W.ord3
    t1 := if lvl = 1 then t else W.t1
    t2 := if lvl = 2 then t else W.t2
    t3 := if lvl = 3 then t else W.t3 }
  { W1 with issue := visitDescs im W1 lvl false }

/-- A walker with nothing under way takes up its next item (R174). -/
def nextItem (im : Img) (W : Walker) : Walker :=
  match W.stack, W.item, W.items with
  | [], none, i :: rest =>
    let r := imNest im W.nest
    { W with item := some i, items := rest, stack := (itemTiles r W.ext i).map (Visit.enter 3) }
  | _, _, _ => W

/-- TILE_ENTRY: a walker enters the next tile of its walk. -/
def execTileEntry (c : CoreId) (w : WalkerId) (s : State) : Host.Outcome State Fault Refusal :=
  let n := c.val
  let C := s.core n
  let im := coreImg s n
  match C.walkers[w.val]? with
  | none => .next s
  | some W0 =>
    if !walking s n || !W0.issue.isEmpty || W0.hold ≠ .none || stopped C w.val then .next s else
    let W := nextItem im W0
    match W.stack with
    | .enter lvl t :: rest =>
      if beyondPlan (imNest im W.nest) t then .next (coreFault s n Fc.deckleOvf 0)
      else
        let s1 := modWalker s n w.val fun _ => enterTile im W lvl t rest
        .next (advance (if lvl = 1 then s1.radd (Reg.dckTiles n) 1 else s1) n)
    | _ => .next s

/-! Work counters, ITEM_DRAW and DONE_NOTICE (R179 to R183) -/

def counterOf (s : State) (q k : Nat) : Counter := (s.quire q).ctrs.get k
def modCounter (s : State) (q k : Nat) (f : Counter → Counter) : State :=
  s.modQuire q fun x => { x with ctrs := x.ctrs.mod k f }

/-- Fetch-and-add on a counter; VALUE saturates (R180). -/
def fetchAdd (s : State) (q k v : Nat) : State × Nat :=
  let old := (counterOf s q k).value.toNat
  (modCounter s q k fun x => { x with value := BitVec.ofNat 32 (min (old + v) 0xFFFFFFFF) }, old)

/-- The walker may draw now (R181): when its item has ended, or, drawing ahead, once it has entered the last level-3
tile of its item. -/
def mayDraw (s : State) (c : Nat) (W : Walker) : Bool :=
  !W.drained && W.items.isEmpty &&
    (W.item.isNone || (s.rbit (Reg.dckCtrl c) 0 && !W.stack.any fun v => match v with | .enter 3 _ => true | _ => false))

/-- ITEM_DRAW: the first walker of a DRAW nest draws an item by fetch-and-add (R179); every walker of the chain takes
the same items (R186). -/
def execItemDraw (c : CoreId) (w : WalkerId) (s : State) : Host.Outcome State Fault Refusal :=
  let n := c.val
  let C := s.core n
  let im := coreImg s n
  match w.val, C.walkers.head? with
  | 0, some W =>
    let r := imNest im W.nest
    if !walking s n || nSplit r ≠ 2 || !mayDraw s n W || stopped C 0 ||
        C.walkers.any (fun W => decide (1 < W.items.length + b2n W.item.isSome)) then .next s else
    let qs := workQuires s n
    let q := n / 32
    let rank := (firstIdx (· == q) qs).getD 0
    let total := nestItems r W.ext
    let base := rank * total / qs.length
    let mine := (rank + 1) * total / qs.length - base
    let (s1, j) := fetchAdd s q (nCtr r) 1
    let epoch := (counterOf s q (nCtr r)).epoch
    let upd (f : Walker → Walker) (open_ : List OpenItem) : State :=
      advance (s1.modCore n fun x => { x with walkers := x.walkers.map f, openItems := open_ }) n
    if mine ≤ j then .next (upd (fun W => { W with drained := true }) C.openItems)
    else
      .next (upd (fun W => { W with items := W.items ++ takenItems im W.nest W.ext [base + j], epoch := epoch })
        (C.openItems ++ [{ nest := C.nest, item := base + j, epoch := epoch, counter := nCtr r, left := 0, walked := false }]))
  | _, _ => .next s

/-- DONE_NOTICE: the counter unit takes the done notice of a committed item (R182). -/
def execDoneNotice (c : CoreId) (s : State) : Host.Outcome State Fault Refusal :=
  let n := c.val
  match (s.core n).openItems.find? fun o => o.walked && o.left == 0 with
  | none => .next s
  | some o =>
    let q := n / 32
    let rest := (s.core n).openItems.filter fun p => p.nest != o.nest || p.item != o.item
    if (counterOf s q o.counter).epoch = o.epoch then
      .next (advance ((modCounter s q o.counter fun x => { x with done := x.done + 1 }).modCore n fun x =>
        { x with openItems := rest }) n)
    else
      .next (advance (((s.modCore n fun x => { x with openItems := rest, replay := x.replay ++ [(o.nest, o.item)] }).radd
        (Reg.dckStale n) 1).ror (Reg.dckStatus n) 1) n)

/-! Issue (R171) -/

/-- The descriptor that a walker would issue next: its index, and its words after patching, `none` for DCK_PATCH. -/
def headDesc (s : State) (c w : Nat) : Option (Nat × Option Nat) :=
  let C := s.core c
  let im := coreImg s c
  if !walking s c || stopped C w then none else
  match C.walkers with
  | [] =>
    if w = 0 ∧ C.hold = .none ∧ (C.replay = [] ∨ C.preempt) ∧ C.pos < imDescs im ∧ nestAt im C.pos = none then some (C.pos, some (imDesc im C.pos))
    else none
  | ws =>
    match ws[w]? with
    | none => none
    | some W =>
      match W.issue, W.hold with
      | e :: _, .none => some (e.idx, patchWord im W e)
      | _, _ => none

/-- The layer that a walker's nest waits for has landed (R192). -/
def layerLanded (s : State) (c w : Nat) : Bool :=
  match (s.core c).walkers[w]? with
  | none => true
  | some W =>
    let l := nLayer (imNest (coreImg s c) W.nest)
    l == 1023 || (s.quire (c / 32)).landed.contains l

/-- The queue of an engine has room (R171). -/
def hasRoom (s : State) (c : Nat) (e : Option Engine) : Bool :=
  match e with
  | none => true
  | some e => decide (((s.core c).inflight.filter (·.eng = e)).length < queueRoom e)

/-- The slot that a descriptor produces in its own core: a MOVE into another core's scratchpad produces a slot
there (R148). -/
def prodHere (c w : Nat) : Option Nat :=
  if hClass w = 5 ∧ hOp w = 0 ∧ fld w 74 2 = 0 then
    match region (fld w 192 48) with
    | .spd d _ => if d = c then hProd w else none
    | _ => hProd w
  else hProd w

/-- A later walker of a fusion chain could issue now, and goes first (R186). -/
def laterReady (s : State) (c w : Nat) : Bool :=
  (List.range (s.core c).walkers.length).any fun v =>
    decide (w < v) && layerLanded s c v &&
    match headDesc s c v with
    | some (_, some d) => hasRoom s c (engineOf d) && slotChk s c (hCons d) (prodHere c d) == .ok
    | some (_, none) => true
    | none => false

/-- What running a descriptor gives: it has run, and how its in-flight entry differs from the plain one; it stays at
the head; it faults; or it faults after it has set flags. -/
inductive Ran where
  | done (s : State) (f : InFlight → InFlight)
  | wait (s : State)
  | fault (code origin : Nat)
  | stop (s : State) (code : Nat) (origin : Nat := 0)

/-- Go on from a check, or stop. -/
def Chk.run (k : Chk) (s : State) (f : Unit → Ran) : Ran :=
  match k with
  | .ok => f ()
  | .stall => .wait s
  | .fault c o => .stop s c o

/-- The walker moves past its descriptor, and a cheap point that a preemption waits for is reached after a CHEAP one
(R187, R194). -/
def pastHead (s : State) (c w : Nat) (word : Nat) : State :=
  let s1 := s.modCore c fun C =>
    let C1 := match C.walkers with
      | [] => { C with pos := C.pos + 1, noticed := false }
      | ws => { C with walkers := modAt (fun W => { W with issue := W.issue.drop 1, noticed := false }) ws w }
    if hCheap word && C.preempt && w == 0 then { C1 with cheapAt := hLive word + 1 } else C1
  advance s1 c

/-- The item that a COMMIT descriptor counts toward (R182). -/
def currentItem (s : State) (c w : Nat) : Option Nat :=
  match (s.core c).walkers[w]? with
  | some W => W.item
  | none => none

/-- Issue the descriptor at the head of a walker, when it is of class `cls` and operation `op`, and run it. -/
def issue (s : State) (c w cls op : Nat) (body : State → Nat → Ran) : State :=
  match headDesc s c w with
  | none => s
  | some (_, none) => if laterReady s c w then s else coreFault s c Fc.dckPatch 0
  | some (_, some word) =>
    if laterReady s c w then s
    else if !layerLanded s c w then s.ror (Reg.dckStatus c) 2
    else if !classOk word then coreFault s c Fc.dckClass 0
    else if hClass word ≠ cls ∨ hOp word ≠ op then s
    else if reservedSet word then coreFault s c Fc.reserved 0
    else
      match if cls = 6 then Chk.ok else slotChk s c (hCons word) (prodHere c word) with
      | .fault code o => coreFault s c code o
      | .stall => s
      | .ok =>
        if !hasRoom s c (engineOf word) then s else
        match body s word with
        | .fault code o => coreFault s c code o
        | .stop s1 code o => coreFault s1 c code o
        | .wait s1 => s1
        | .done s1 f =>
          match engineOf word with
          | none => pastHead s1 c w word
          | some e =>
            let id := (s1.core c).nextId
            let ent : InFlight := f { (default : InFlight) with
              id := id, eng := e, word := BitVec.ofNat 512 word, walker := w, cons := hCons word
              prod := prodHere c word }
            pastHead (s1.modCore c fun x => { x with inflight := x.inflight ++ [ent], nextId := id + 1 }) c w word

/-- DESCRIPTOR_COMPLETE's own part: gather entries flushed, the slots changed, an item's COMMIT counted (R147, R152,
R182). -/
def completeDesc (s : State) (c : Nat) (d : InFlight) : State :=
  let s1 := flushWhere s c fun g => g.desc == d.id
  let s2 := match d.prod with | some k => slotProduced s1 c k | none => s1
  let s3 := match d.cons with | some k => slotConsumed s2 c k | none => s2
  let s4 := d.pages.foldl (fun s p => s.modPage p fun e => { e with busy := e.busy - 1 }) s3
  let s5 := d.strs.foldl (fun s id => strSetFld s id 56 8 (eQueued (strGet s id) - 1)) s4
  let s6 := s5.modCore c fun x => { x with
    inflight := x.inflight.filter (·.id != d.id)
    stalls := 0
    openItems := match d.commit with
      | some (nest, item) => x.openItems.map fun o => if o.nest = nest ∧ o.item = item then { o with left := o.left - 1 } else o
      | none => x.openItems }
  finishRevokes (serveStreams (advance s6 c))

/-- DESCRIPTOR_COMPLETE: the oldest descriptor of an engine completes, once nothing of it is outstanding (R147, R171). -/
def execDescriptorComplete (c : CoreId) (eng : Engine) (s : State) : Host.Outcome State Fault Refusal :=
  match (s.core c.val).inflight.find? (·.eng = eng) with
  | some d => if d.wait = 0 ∧ !d.pending then .next (completeDesc s c.val d) else .next s
  | none => .next s

/-! Stall notices (R150, R199) -/

/-- SLOT_STALL_NOTICE: a descriptor has been stalled on a slot for 2^20 core cycles (R150). -/
def execSlotStallNotice (c : CoreId) (w : WalkerId) (s : State) : Host.Outcome State Fault Refusal :=
  let n := c.val
  let C := s.core n
  let noticed := match C.walkers with | [] => C.noticed | ws => (ws[w.val]?.map (·.noticed)).getD true
  match headDesc s n w.val with
  | some (_, some d) =>
    if noticed || hClass d == 6 || slotChk s n (hCons d) (prodHere n d) ≠ .stall then .next s else
    let writer := slotChk s n (hCons d) none == .ok
    let slot := (if writer then prodHere n d else hCons d).getD 0
    let s1 := (s.ror (Reg.spdStatus n) 0x10).rset (Reg.spdStallInfo n)
      (BitVec.ofNat 32 (at_ 0 6 slot + at_ 6 1 (b2n writer) + at_ 7 12 C.ctx))
    let s2 := match C.walkers with
      | [] => s1.modCore n fun x => { x with noticed := true }
      | _ => modWalker s1 n w.val fun W => { W with noticed := true }
    .next (stallNotice s2 1 C.ctx (some n) slot)
  | _ => .next s

/-- The hold of a walk: of a walker, or of the walk outside nests. -/
def holdOf (C : Core) (w : Nat) : Hold :=
  match C.walkers with
  | [] => if w = 0 then C.hold else .none
  | ws => (ws[w]?.map (·.hold)).getD .none

/-- Set the hold of a walk. -/
def setHold (s : State) (c w : Nat) (h : Hold) : State :=
  match (s.core c).walkers with
  | [] => s.modCore c fun x => { x with hold := h, noticed := false }
  | _ => modWalker s c w fun W => { W with hold := h, noticed := false }

/-- WAIT_STALL_NOTICE: a walker has been held by WAIT_GE or BARRIER for 2^20 core cycles (R199). -/
def execWaitStallNotice (c : CoreId) (w : WalkerId) (s : State) : Host.Outcome State Fault Refusal :=
  let n := c.val
  let C := s.core n
  let noticed := match C.walkers with | [] => C.noticed | ws => (ws[w.val]?.map (·.noticed)).getD true
  if noticed || holdOf C w.val = .none then .next s else
  let s1 := s.ror (Reg.dckStatus n) 4
  let s2 := match C.walkers with
    | [] => s1.modCore n fun x => { x with noticed := true }
    | _ => modWalker s1 n w.val fun W => { W with noticed := true }
  .next (stallNotice s2 2 C.ctx (some n) 0)

/-! The prefetcher (R190 to R193) -/

/-- Fields of a layer entry (R190). -/
def lSrc (v : Nat) : Nat := fld v 0 48
def lDst (v : Nat) : Nat := fld v 64 22
def lBytes (v : Nat) : Nat := 512 * fld v 96 14
def lAfter (v : Nat) : Nat := fld v 112 10
def lResident (v : Nat) : Bool := bit v 122

/-- Cores of the quire that run its program. -/
def quireRunners (s : State) (q : Nat) : List Nat :=
  ((List.range 32).map (32 * q + ·)).filter fun c => (s.core c).part != 0

/-- A layer is complete in a quire (R191): every core that runs the program has entered a nest with a higher LAYER or
has ended the walk. -/
def layerComplete (s : State) (q a : Nat) : Bool :=
  (quireRunners s q).all fun c => decide (a + 1 < (s.core c).layer) || (s.core c).ended

/-- The next entry that the prefetcher works on, counting on through the next step's entries (R191). Entries are
issued in ascending order; RESIDENT ones are skipped. -/
def nextLayer (s : State) (q : Nat) : Option Nat :=
  let im := qImg s q
  let L := imLayers im
  (List.range (if imStep im then 2 * L else L)).find? fun j =>
    !lResident (imLayer im (j % L)) && !(s.quire q).issued.contains j

/-- Entry `j` may be issued (R191): within PREFETCH_AHEAD of the highest started layer, its AFTER layer complete.
AFTER at or above the entry's own index means the layer of the walk before. -/
def layerDue (s : State) (q j : Nat) : Bool :=
  let im := qImg s q
  let L := imLayers im
  let a := lAfter (imLayer im (j % L))
  decide (j < (s.quire q).started + imAhead im) &&
    (a == 1023 ||
      (if j < L then decide (j ≤ a) || layerComplete s q a else decide (j % L ≤ a) && layerComplete s q a))

/-- PREFETCH_ISSUE: the quire's prefetcher issues the next layer entry, once its conditions hold (R191). -/
def execPrefetchIssue (q : QuireId) (s : State) : Host.Outcome State Fault Refusal :=
  match nextLayer s q.val with
  | some j =>
    if layerDue s q.val j && !(quireRunners s q.val).isEmpty then
      .next (s.modQuire q.val fun x => { x with issued := x.issued ++ [j] })
    else .next s
  | none => .next s

/-- What a read of a range of stacked or companion memory on behalf of context `x` meets (R75, R377, R439, R480). -/
def memReadChk (s : State) (x a n : Nat) : Chk :=
  match region a, region (a + n - 1) with
  | .stacked _, .stacked _ =>
    if anyGone s a n then .fault Fc.addrUnmapped 0
    else if mayReach s x a n true false then .ok else .fault Fc.addrFenced 0
  | .companion o, .companion _ => Chk.need (decide (o + n ≤ compLimit s)) Fc.addrUnmapped
  | _, _ => .fault Fc.addrUnmapped 0

/-- Poison of a range of stacked or companion memory: its origin, 0 for none (R586, R588). -/
def memPoison (s : State) (a n : Nat) : Nat :=
  match region a with
  | .stacked _ =>
    match ((List.range ((a + n - 1) / 4096 - a / 4096 + 1)).map fun i => a / 4096 + i).find? fun b =>
        (blockEnt s b).poison with
    | some b => 2 + b * 64
    | none => 0
  | _ => (linesOf a n).foldl (fun p l => if p = 0 then s.poison.get l else p) 0

/-- The blocks of a range of stacked memory pass the decoder (R355). -/
def decodeRange (s : State) (a n : Nat) : State :=
  match region a with
  | .stacked _ => ((List.range ((a + n - 1) / 4096 - a / 4096 + 1)).map fun i => a / 4096 + i).foldl decodeCheck s
  | _ => s

/-- Write a layer entry's data into the quire store, in 512-byte units, poison with each (R192, R193). -/
def fetchLayer (s : State) (q v : Nat) : State :=
  let s0 := cacheRead (decodeRange s (lSrc v) (lBytes v)) (lSrc v) (lBytes v)
  (List.range (lBytes v / 512)).foldl (fun s i =>
    qsrWrite s q (lDst v + 512 * i) (s.rd (lSrc v + 512 * i) 512) (memPoison s (lSrc v + 512 * i) 512)) s0

/-- PREFETCH_LANDED: layer entry `j` is fully written into the quire store; it waits for a bank that wakes. A refused
read, or a bank that takes no write, faults the context that it acts for, and the entry is fetched again later (R158,
R192, R193) (DEDUCED, log 74). -/
def execPrefetchLanded (q : QuireId) (j : Fin 1024) (s : State) : Host.Outcome State Fault Refusal :=
  let n := q.val
  let im := qImg s n
  let L := imLayers im
  match (s.quire n).issued.find? fun k => k % max L 1 == j.val && !(s.quire n).landed.contains k with
  | none => .next s
  | some k =>
    let v := imLayer im j.val
    let x := (s.quire n).layerCtx
    match (memReadChk s x (lSrc v) (lBytes v)).both (qsrChk s n (lDst v) (lBytes v)) with
    | .ok => .next ((fetchLayer s n v).modQuire n fun y => { y with landed := y.landed ++ [k] })
    | .fault code _ =>
      let s1 := s.modQuire n fun y => { y with issued := y.issued.filter (· != k) }
      .next (faultCtx (blame s1 (Reg.qsrStatus n) (n / 16) code) x code none 0)
    | .stall => .next s

end Sys2Proof.Machine
end

