-- ==== Sys2Proof/Machine/Engine.lean ====
section
/-! DEFINITION. What the matrix, vector, attention and state engines share: running arithmetic, the flag registers (R102,
R103), and the rows of a descriptor's operands in the core's own scratchpad. -/

namespace Sys2Proof.Machine

/-- The flag register of an engine of core `c` (R102); DMV has none. -/
def flagReg (e : Engine) (c : Nat) : Nat :=
  match e with
  | .mma => Reg.mmaFlags c
  | .vec => Reg.vecFlags c
  | .att => Reg.attFlags c
  | _ => Reg.staFlags c

/-- Add flags to a context record (R103, R577). -/
def CtxRec.raise (r : CtxRec) (e : Engine) (v : Word32) : CtxRec :=
  match e with
  | .mma => { r with mma := r.mma ||| v }
  | .vec => { r with vec := r.vec ||| v }
  | .att => { r with att := r.att ||| v }
  | _ => { r with sta := r.sta ||| v }

/-- Raise arithmetic flags of an engine: in its register, and in the record of the context that ran (R102, R103). -/
def raiseFlags (s : State) (c : Nat) (e : Engine) (flags : Nat) : State :=
  if flags = 0 then s else
  (s.ror (flagReg e c) flags).modCtx (s.core c).ctx fun x => { x with record := x.record.raise e (BitVec.ofNat 32 flags) }

/-- Run arithmetic on an engine of core `c`. -/
def runAr {α : Type} (s : State) (c : Nat) (e : Engine) (x : Ar α) : α × State :=
  let r := x { flags := 0, fresh := s.fresh }
  (r.1, raiseFlags { s with fresh := r.2.fresh } c e r.2.flags)

/-- The arithmetic control field of a descriptor of core `c`, with its context's flush mode (R86, R87). -/
def ctlFor (s : State) (c a : Nat) : Ctl := ctlOf a (s.ctx (s.core c).ctx).par.flush

/-- The byte reader of a core's scratchpad. -/
def rdSpd (s : State) (c : Nat) : Nat → Byte := spdByte s c

/-- Reading `n` rows of `len` bytes, `stride` apart (R143). -/
def readRowsChk (s : State) (e : Upset) (c base stride n len : Nat) : Chk :=
  Chk.all ((List.range n).map fun r => spdReadChk s e c (base + r * stride) len)

/-- Writing `n` rows of `len` bytes, `stride` apart. -/
def writeRowsChk (s : State) (c base stride n len : Nat) : Chk :=
  Chk.all ((List.range n).map fun r => spdChk s c (base + r * stride) len)

/-- Write rows of bytes, `stride` apart, in ascending order. -/
def writeRows (s : State) (c base stride : Nat) (rows : List (List Byte)) (hint : Bool) (desc : Nat) : State :=
  ((List.range rows.length).zip rows).foldl (fun s r => spdWrite s c (base + r.1 * stride) r.2 0 hint desc) s

/-- RND holds a reserved code or a reserved bit of ARITH is set (R86), or a format code is reserved (R78): the codes given
are those of the fields in use (DEDUCED, log 58). -/
def codesReserved (arith : Nat) (fmts : List Nat) : Bool := arithReserved arith || fmts.any fun f => !fmtKnown f

/-- SGN bits that must be zero are not (R87): each bit with whether its operand is an integer
(DEDUCED, log 69). -/
def signsWrong (c : Ctl) (a b out : Bool) : Bool := (c.sgnA && !a) || (c.sgnB && !b) || (c.sgnOut && !out)

end Sys2Proof.Machine
end

