-- ==== Sys2Proof/Machine/Vec.lean ====
section
/-! DEFINITION. The vector engine, the sampler and the image operators (chapter 07). -/

namespace Sys2Proof.Machine

def Fc.vecFormat : Nat := 0x130
def Fc.vecParam : Nat := 0x131
def Fc.vecResident : Nat := 0x132

/-- Flags of the vector engine (R229). -/
def fZeroRow : Nat := 0x10000
def fSampleEmpty : Nat := 0x20000

/-! Fields of a VEC descriptor (R225) -/
def vBcB (w : Nat) : Nat := fld w 72 2
def vBcC (w : Nat) : Nat := fld w 74 2
def vAxis (w : Nat) : Bool := bit w 76
def vHint (w : Nat) : Bool := bit w 77
def vArith (w : Nat) : Nat := fld w 80 16
def vFmtA (w : Nat) : Nat := fld w 96 5
def vFmtB (w : Nat) : Nat := fld w 104 5
def vFmtC (w : Nat) : Nat := fld w 112 5
def vFmtOut (w : Nat) : Nat := fld w 120 5
def vRows (w : Nat) : Nat := fld w 128 16
def vCols (w : Nat) : Nat := fld w 144 16
def vSrcA (w : Nat) : Nat := fld w 160 19
def vSrcB (w : Nat) : Nat := fld w 192 19
def vSrcC (w : Nat) : Nat := fld w 224 19
def vDst (w : Nat) : Nat := fld w 256 19
def vDst2 (w : Nat) : Nat := fld w 288 19
def vStrA (w : Nat) : Nat := fld w 320 16
def vStrB (w : Nat) : Nat := fld w 336 16
def vStrC (w : Nat) : Nat := fld w 352 16
def vStrDst (w : Nat) : Nat := fld w 368 16
def vImm0 (w : Nat) : Word32 := BitVec.ofNat 32 (fld w 384 32)
def vImm1 (w : Nat) : Word32 := BitVec.ofNat 32 (fld w 416 32)
def vScale (w : Nat) : Nat := fld w 448 19

/-! OPX for SAMPLE -/
def vTopk (w : Nat) : Nat := fld w 480 16
def vMode (w : Nat) : Nat := fld w 496 2
def vKeyed (w : Nat) : Bool := bit w 498
def vTauRow (w : Nat) : Bool := bit w 499

/-! OPX for CONV -/
def vKh (w : Nat) : Nat := fld w 480 3
def vKw (w : Nat) : Nat := fld w 483 3
def vKt (w : Nat) : Nat := fld w 486 2 + 1
def vStep (w : Nat) : Nat := fld w 488 1 + 1
def vDil (w : Nat) : Nat := fld w 489 2 + 1
def vGch (w : Nat) : Nat := fld w 491 4 + 1
def vResident (w : Nat) : Bool := bit w 495
def vPad (w : Nat) : Bool := bit w 496
def vBias (w : Nat) : Bool := bit w 497
def vInW (w : Nat) : Nat := fld w 384 16
def vInH (w : Nat) : Nat := fld w 400 16
def vFrame (w : Nat) : Nat := fld w 416 32

/-! Operands (R202 to R205) -/

/-- Operand B is used by an operation, and operand C. -/
def usesB (w : Nat) : Bool :=
  let op := hOp w
  (decide (1 ≤ op) && decide (op ≤ 7)) || op == 0x29 || op == 0x2A || op == 0x30 || (op == 0x38 && vTauRow w)
def usesC (w : Nat) : Bool := hOp w == 7 || hOp w == 0x29 || (hOp w == 0x30 && vBias w)

/-- An operand matrix: where it lies, its format and its broadcast. -/
structure VOp where
  base : Nat
  stride : Nat
  fmt : Nat
  sgn : Bool
  bc : Nat

def opA (k : Ctl) (w : Nat) : VOp := { base := vSrcA w, stride := vStrA w, fmt := vFmtA w, sgn := k.sgnA, bc := 0 }
def opB (k : Ctl) (w : Nat) : VOp := { base := vSrcB w, stride := vStrB w, fmt := vFmtB w, sgn := k.sgnB, bc := vBcB w }
def opC (w : Nat) : VOp := { base := vSrcC w, stride := vStrC w, fmt := vFmtC w, sgn := true, bc := vBcC w }

/-- Row and column that element (r, j) is taken from (R204). -/
def bcRow (o : VOp) (r : Nat) : Nat := if o.bc = 0 ∨ o.bc = 2 then r else 0
def bcCol (o : VOp) (j : Nat) : Nat := if o.bc = 0 ∨ o.bc = 1 then j else 0

/-- Where the scales of row `r` lie, for a format (R205). -/
def scaleRow (w f r : Nat) : Nat := vScale w + r * (ceilDiv (vCols w) 32 * scaleBytes f)

/-- Element (r, j) of an operand, in FP32 (R203). -/
def readV (rd : Nat → Byte) (k : Ctl) (w : Nat) (o : VOp) (r j : Nat) : Ar Val :=
  readF32 rd k (o.base + bcRow o r * o.stride) (scaleRow w o.fmt (bcRow o r)) o.fmt o.sgn (bcCol o j)

/-- Row `r` of an operand. -/
def readVecRow (rd : Nat → Byte) (k : Ctl) (w : Nat) (o : VOp) (r : Nat) : Ar (List Val) :=
  Ar.each (readV rd k w o r) (List.range (vCols w))

/-- Bytes of a line of `n` elements with the blocks of a block-scaled format filled up (R80, R81). -/
def lineLen (f n : Nat) : Nat := if isScaled f then rowLen f (32 * ceilDiv n 32) else rowLen f n

/-- An operand's reading (R143), its scales with it; `cols` elements of each row. -/
def vReadChk (s : State) (e : Upset) (c w : Nat) (o : VOp) (cols : Nat) : Chk :=
  let n := if o.bc = 0 ∨ o.bc = 2 then vRows w else 1
  let len := rowLen o.fmt (if o.bc = 0 ∨ o.bc = 1 then cols else 1)
  (readRowsChk s e c o.base o.stride n len).both
    (if isScaled o.fmt then spdReadChk s e c (vScale w) (vRows w * (ceilDiv (vCols w) 32 * scaleBytes o.fmt)) else .ok)

/-- A destination of `n` rows of `len` elements, with its scales. -/
def vWriteChk (s : State) (c w n len : Nat) : Chk :=
  let f := vFmtOut w
  let z := ceilDiv (vCols w) 32 * scaleBytes f
  (writeRowsChk s c (vDst w) (vStrDst w) n (lineLen f len)).both
    (if isScaled f then writeRowsChk s c (vScale w) z n (ceilDiv len 32 * scaleBytes f) else .ok)

/-- Formats that an operation uses: of its operands, with their broadcasts, and its output. -/
def vFormats (w : Nat) : List (Nat × Nat) :=
  [(vFmtA w, 0)] ++ (if usesB w then [(vFmtB w, vBcB w)] else []) ++ (if usesC w then [(vFmtC w, vBcC w)] else []) ++
    [(vFmtOut w, 0)]

/-- A format rule is broken (R203, R205, R211, R220, R222). -/
def vFormatWrong (w : Nat) : Bool :=
  let fs := vFormats w
  let op := hOp w
  let floating (f : Nat) : Bool := (fmtOf f).isSome && !isScaled f
  fs.any (fun f => f.1 == 0x18) || decide (1 < (fs.filter fun f => isScaled f.1).length) ||
    fs.any (fun f => isScaled f.1 && f.2 != 0) || (op == 0x24 && vFmtOut w != 0x12) ||
    (op == 0x38 && vMode w != 2 && (!floating (vFmtA w) || vFmtOut w != 0x12)) ||
    (op == 0x30 && (isScaled (vFmtA w) || isScaled (vFmtB w) || (vBias w && isScaled (vFmtC w))))

/-- SGN bits are set for operands that are not integers (R87). -/
def vSignsWrong (k : Ctl) (w : Nat) : Bool :=
  signsWrong k (isInt (vFmtA w)) (isInt (vFmtB w) || !usesB w) (isInt (vFmtOut w))

/-! Writing (R83, R97, R208, R224) -/

/-- Elements of a written line that are zero. -/
def zerosIn (f n : Nat) (bytes : List Byte) : Nat :=
  ((List.range n).filter fun i => (elemVal f true (elemCode (fun a => bytes.getD a 0) 0 f i)).isZero).length

/-- Count output elements, and zero ones under RECT_HINT (R224, R230). -/
def countOut (s : State) (c w elems zeros : Nat) : State :=
  let s1 := s.radd (Reg.vecElems c) elems
  if vHint w then s1.radd (Reg.vecZeros c) zeros else s1

/-- Write rows of values at DST, `at r` being where row r starts. -/
def writeVals (s : State) (c w : Nat) (k : Ctl) (place : Nat → Nat) (rows : List (List Val)) : State :=
  let f := vFmtOut w
  let desc := (s.core c).nextId
  let (lines, s1) := runAr s c .vec (Ar.each (writeLine f k) rows)
  let z := ceilDiv (vCols w) 32 * scaleBytes f
  let s2 := ((List.range rows.length).zip lines).foldl (fun s r =>
    spdWrite (spdWrite s c (place r.1) r.2.1 0 (vHint w) desc) c (vScale w + r.1 * z) r.2.2 0 (vHint w) desc) s1
  let n := (rows.map List.length).foldl (· + ·) 0
  countOut s2 c w n (((rows.zip lines).map fun r => zerosIn f r.1.length r.2.1).foldl (· + ·) 0)

/-- Where DST row `r` starts. -/
def dstRow (w r : Nat) : Nat := vDst w + r * vStrDst w

/-- Write unsigned words at DST, one per place. -/
def writeIdx (s : State) (c w : Nat) (place : Nat → Nat) (vals : List Nat) : State :=
  let desc := (s.core c).nextId
  let s1 := ((List.range vals.length).zip vals).foldl (fun s r => spdWrite s c (place r.1) (leBytes 4 r.2) 0 (vHint w) desc) s
  countOut s1 c w vals.length (vals.filter (· == 0)).length

/-! The element-wise operations (R206, R207) -/

/-- y from a, b and c. -/
def elementOp (op : Nat) (ovf : Bool) (lo hi : Val) (a b c : Val) : Ar Val :=
  match op with
  | 0x00 => Ar.pure a
  | 0x01 => addF ovf a b
  | 0x02 => subF ovf a b
  | 0x03 => mulF ovf a b
  | 0x04 => divF ovf a b
  | 0x05 => Ar.pure (maxV a b)
  | 0x06 => Ar.pure (minV a b)
  | 0x07 => fmaF ovf a b c
  | 0x08 => Ar.pure a.abs
  | 0x09 => Ar.pure (if a.isNan then .nan else if ltV (ofInt 0) a then a else ofInt 0)
  | 0x0A => nearF ovf 4 (geluV a)
  | 0x0B => nearF ovf 4 (siluV a)
  | 0x0C => nearF ovf 4 (sigmoidV a)
  | 0x0D => nearF ovf 4 (tanhV a)
  | 0x0E => expF ovf a
  | 0x0F => lnF ovf a
  | 0x10 => sqrtF ovf a
  | 0x11 => rsqrtF ovf a
  | 0x12 => recipF ovf a
  | _ => Ar.pure (minV (maxV a lo) hi)

/-- The rows that an element-wise operation writes. -/
def elementRows (rd : Nat → Byte) (k : Ctl) (w : Nat) : Ar (List (List Val)) :=
  let lo := ofW (vImm0 w)
  let hi := ofW (vImm1 w)
  Ar.each (fun r => Ar.each (fun j =>
    Ar.bind (readV rd k w (opA k w) r j) fun a =>
    Ar.bind (if usesB w then readV rd k w (opB k w) r j else Ar.pure (ofInt 0)) fun b =>
    Ar.bind (if usesC w then readV rd k w (opC w) r j else Ar.pure (ofInt 0)) fun c =>
      elementOp (hOp w) k.ovf lo hi a b c) (List.range (vCols w))) (List.range (vRows w))

/-! Reductions (R209 to R211) -/

/-- The identity of a reduction. -/
def redUnit (op : Nat) : Val := if op = 0x21 then .inf true else if op = 0x22 then .inf false else ofInt 0

/-- Take in one element. -/
def redTake (op : Nat) (ovf : Bool) (acc x : Val) : Ar Val :=
  match op with
  | 0x21 => Ar.pure (maxV acc x)
  | 0x22 => Ar.pure (minV acc x)
  | 0x23 => Ar.bind (mulF ovf x x) (addF ovf acc)
  | _ => addF ovf acc x

/-- Combine two lanes. -/
def redJoin (op : Nat) (ovf : Bool) (a b : Val) : Ar Val :=
  match op with
  | 0x21 => Ar.pure (maxV a b)
  | 0x22 => Ar.pure (minV a b)
  | _ => addF ovf a b

/-- Combine lane values in fixed levels: 2i with 2i + 1 (R209). -/
def redLevels (op : Nat) (ovf : Bool) : Nat → List Val → Ar (List Val)
  | 0, l => Ar.pure l
  | n + 1, l =>
    Ar.bind (Ar.each (fun i => redJoin op ovf (l.getD (2 * i) (redUnit op)) (l.getD (2 * i + 1) (redUnit op)))
      (List.range (l.length / 2))) (redLevels op ovf n)

/-- Reduce a row: element j goes to lane j mod 64, and the 64 lanes combine in six levels (R209). Elements that are left
out are `none` (DEDUCED, log 52). -/
def reduceRow (op : Nat) (ovf : Bool) (xs : List (Option Val)) : Ar Val :=
  let lane (l : Nat) : List Val :=
    (List.range (ceilDiv xs.length 64)).filterMap fun i => (xs.getD (64 * i + l) none)
  Ar.bind (Ar.each (fun l => Ar.fold (redTake op ovf) (redUnit op) (lane l)) (List.range 64)) fun lanes =>
    Ar.map (fun r => r.getD 0 (redUnit op)) (redLevels op ovf 6 lanes)

/-- The sum of a row in the order of R209. -/
def rowSum (ovf : Bool) (xs : List Val) : Ar Val := reduceRow 0x20 ovf (xs.map some)

/-- The lowest index of the largest element that is not NaN (R211). -/
def argMax (xs : List Val) : Option Nat :=
  (((List.range xs.length).zip xs).foldl (fun (best : Option (Nat × Val)) x =>
    if x.2.isNan then best else
    match best with
    | none => some x
    | some b => if ltV b.2 x.2 then some x else best) none).map (·.1)

/-- The lines that a reduction reduces: rows, or columns under AXIS 1. -/
def redLines (rd : Nat → Byte) (k : Ctl) (w : Nat) : Ar (List (List Val)) :=
  if vAxis w then
    Ar.each (fun j => Ar.each (fun r => readV rd k w (opA k w) r j) (List.range (vRows w))) (List.range (vCols w))
  else Ar.each (readVecRow rd k w (opA k w)) (List.range (vRows w))

/-- Run a reduction. -/
def reduceRun (s : State) (c : Nat) (k : Ctl) (w : Nat) : State :=
  let op := hOp w
  let (lines, s1) := runAr s c .vec (redLines (rdSpd s c) k w)
  if op = 0x24 then
    writeIdx s1 c w (fun i => if vAxis w then vDst w + 4 * i else dstRow w i) (lines.map fun l => (argMax l).getD 0xFFFFFFFF)
  else
    let (res, s2) := runAr s1 c .vec (Ar.each (fun l =>
      if vAxis w then Ar.fold (redTake op k.ovf) (redUnit op) l else reduceRow op k.ovf (l.map some)) lines)
    writeVals s2 c w k (dstRow w) (if vAxis w then [res] else res.map fun v => [v])

/-! The row operations (R212, R213) -/

/-- SOFTMAX of a row. -/
def softmaxRow (ovf : Bool) (xs : List Val) : Ar (List Val) :=
  let infs := (xs.filter (· == .inf false)).length
  if xs.any Val.isNan then Ar.pure (xs.map fun _ => .nan)
  else if xs.all (· == .inf true) then Ar.withFlag fZeroRow (xs.map fun _ => ofInt 0)
  else if infs ≠ 0 then
    Ar.map (fun q => xs.map fun x => if x == .inf false then q else ofInt 0) (divF ovf (ofInt 1) (ofInt infs))
  else
    let m := xs.foldl maxV (.inf true)
    Ar.bind (Ar.each (fun x => Ar.bind (subF ovf x m) (expF ovf)) xs) fun es =>
    Ar.bind (rowSum ovf es) fun t => Ar.each (fun v => divF ovf v t) es

/-- LAYERNORM of a row with its γ and β. -/
def layernormRow (ovf : Bool) (eps : Val) (xs gs bs : List Val) : Ar (List Val) :=
  let n := ofInt xs.length
  Ar.bind (rowSum ovf xs) fun t =>
  Ar.bind (divF ovf t n) fun mu =>
  Ar.bind (Ar.each (fun x => subF ovf x mu) xs) fun ds =>
  Ar.bind (reduceRow 0x23 ovf (ds.map some)) fun t2 =>
  Ar.bind (divF ovf t2 n) fun v =>
  Ar.bind (addF ovf v eps) fun ve =>
  Ar.bind (rsqrtF ovf ve) fun q =>
    Ar.each (fun (d, g, b) => Ar.bind (mulF ovf d q) fun x => fmaF ovf x g b) (ds.zip (gs.zip bs))

/-- RMSNORM of a row with its γ. -/
def rmsnormRow (ovf : Bool) (eps : Val) (xs gs : List Val) : Ar (List Val) :=
  Ar.bind (reduceRow 0x23 ovf (xs.map some)) fun t =>
  Ar.bind (divF ovf t (ofInt xs.length)) fun v =>
  Ar.bind (addF ovf v eps) fun ve =>
  Ar.bind (rsqrtF ovf ve) fun q =>
    Ar.each (fun (x, g) => Ar.bind (mulF ovf x q) fun y => mulF ovf y g) (xs.zip gs)

/-- The rows that a row operation writes. -/
def rowOpRows (rd : Nat → Byte) (k : Ctl) (w : Nat) : Ar (List (List Val)) :=
  let eps := ofW (vImm0 w)
  Ar.each (fun r =>
    Ar.bind (readVecRow rd k w (opA k w) r) fun xs =>
    Ar.bind (if usesB w then readVecRow rd k w (opB k w) r else Ar.pure []) fun gs =>
    Ar.bind (if usesC w then readVecRow rd k w (opC w) r else Ar.pure []) fun bs =>
      match hOp w with
      | 0x28 => softmaxRow k.ovf xs
      | 0x29 => layernormRow k.ovf eps xs gs bs
      | _ => rmsnormRow k.ovf eps xs gs) (List.range (vRows w))

/-! The sampler (R215 to R221) -/

/-- Word `n` of a core's generator, counted from its start (R215). -/
def coreWord (key : Nat) (n : Nat) : Nat :=
  (philox key ((List.range 4).map fun i => n / 4 / 2 ^ (32 * i))).getD (n % 4) 0

/-- Advance a core's generator by `n` words. -/
def stepGen (s : State) (c n : Nat) : State :=
  s.modCore c fun x =>
    let p := 4 * x.genCtr.toNat + x.genWord + n
    { x with genCtr := BitVec.ofNat 128 (p / 4), genWord := p % 4 }

/-- Field of the roster entry `e` in a core's quire store (R188). -/
def rosterField (s : State) (c e lo n : Nat) : Nat := fld (s.rdN (qsrAddr (c / 32) (0x3C0000 + 32 * e)) 32) lo n

/-- Entries of the roster that a core sees. -/
def rosterCount (s : State) (c : Nat) : Nat := s.rdN (qsrAddr (c / 32) 0x3BFFC8) 2

/-- Draws of a row: one per element, or one for a CATEGORICAL row (R215, R216). -/
def rowDraws (w : Nat) : Nat := if vMode w = 1 then 1 else vCols w

/-- The draw of element `j` of row `r`, or the one draw of a CATEGORICAL row (DEDUCED, log 53). -/
def drawOf (s : State) (c w r j : Nat) : Val :=
  let C := s.core c
  if vKeyed w then
    let e := (vImm1 w).toNat + r
    let key := (s.ctx C.ctx).par.samplerKey.toNat
    let b := rosterField s c e 0 18
    let d := rosterField s c e 32 16
    if vMode w = 1 then drawU ((philox key [0xFFFFFFFF, b, d, 1]).getD 0 0)
    else drawU ((philox key [j / 4, b, d, 0]).getD (j % 4) 0)
  else drawU (coreWord C.genKey.toNat (4 * C.genCtr.toNat + C.genWord + r * rowDraws w + (if vMode w = 1 then 0 else j)))

/-- A number that orders FP32 values from the largest down, ±0 equal. -/
def descKey (v : Val) : Nat :=
  let code := (toW v).toNat
  if bit code 31 then 2 ^ 31 + code % 2 ^ 31 else 2 ^ 31 - code

/-- The kept set of a row, ascending (R217). -/
def keptSet (topk : Nat) (xs : List Val) : List Nat :=
  let all := (List.range xs.length).filter fun j => !(xs.getD j .nan).isNan
  if topk = 0 ∨ xs.length ≤ topk then all
  else
    let best := (sortBy (fun j => descKey (xs.getD j .nan)) all).take topk
    all.filter best.contains

/-- What a row gives: the index and LOGPROB, or an empty row. -/
abbrev Pick := Option (Nat × Val)

/-- An empty row (R221) (DEDUCED, log 53). -/
def emptyRow : Ar Pick := Ar.withFlag fSampleEmpty none

/-- Kept elements with their z (R218): +∞ narrows the set. -/
def zOf (ovf : Bool) (tau : Val) (xs : List Val) (kept : List Nat) : Ar (List (Nat × Val)) :=
  let at_ (j : Nat) : Val := xs.getD j .nan
  if kept.any fun j => at_ j == .inf false then
    Ar.pure ((kept.filter fun j => at_ j == .inf false).map fun j => (j, ofInt 0))
  else Ar.each (fun j => Ar.map (fun z => (j, z)) (divF ovf (at_ j) tau)) kept

/-- The noise of a draw: −ln(−ln u). -/
def gumbel (ovf : Bool) (u : Val) : Ar Val :=
  Ar.bind (lnF ovf u) fun a => Ar.map Val.negate (lnF ovf a.negate)

/-- The z of the kept elements at their places in the row, the others left out. -/
def spread (n : Nat) (zs : List (Nat × Val)) : List (Option Val) :=
  (List.range n).map fun j => (zs.find? (·.1 == j)).map (·.2)

/-- GUMBEL_MAX of a row whose draws are `u` (R218). -/
def gumbelRow (ovf : Bool) (tau : Val) (topk : Nat) (xs : List Val) (u : Nat → Val) : Ar Pick :=
  let kept := keptSet topk xs
  if kept.all fun j => xs.getD j .nan == .inf true then emptyRow
  else if tau.isZero then
    Ar.pure ((argMax ((List.range xs.length).map fun j => if kept.contains j then xs.getD j .nan else .nan)).map fun i =>
      (i, ofInt 0))
  else
    Ar.bind (zOf ovf tau xs kept) fun zs =>
    Ar.bind (Ar.each (fun z => Ar.bind (gumbel ovf (u z.1)) (addF ovf z.2)) zs) fun keys =>
      match argMax keys with
      | none => Ar.pure none
      | some p =>
        let (i, zi) := zs.getD p (0, ofInt 0)
        let m := (zs.map (·.2)).foldl maxV (.inf true)
        Ar.bind (Ar.each (fun z => Ar.bind (subF ovf z.2 m) fun d => Ar.map (fun e => (z.1, e)) (expF ovf d)) zs) fun es =>
        Ar.bind (reduceRow 0x20 ovf (spread xs.length es)) fun t =>
        Ar.bind (lnF ovf t) fun lt =>
        Ar.bind (subF ovf zi m) fun d => Ar.map (fun lp => some (i, lp)) (subF ovf d lt)

/-- Running sums. -/
def runningSums (ovf : Bool) : Val → List Val → Ar (List Val)
  | _, [] => Ar.pure []
  | acc, x :: r => Ar.bind (addF ovf acc x) fun a => Ar.map (a :: ·) (runningSums ovf a r)

/-- CATEGORICAL of a row with its draw (R219). The spec does not order the sum W: it is the engine's row sum or the last
running sum, a free choice (DEDUCED, log 53). -/
def categoricalRow (ovf : Bool) (topk : Nat) (xs0 : List Val) (u : Val) : Ar Pick :=
  let negs := xs0.any fun x => ltV x (ofInt 0)
  let xs := xs0.map fun x => if ltV x (ofInt 0) then ofInt 0 else x
  let kept := keptSet topk xs
  let ws := kept.map fun j => (j, xs.getD j .nan)
  Ar.bind (Ar.flagIf negs fInvalid) fun _ =>
  Ar.bind (reduceRow 0x20 ovf (spread xs.length ws)) fun w1 =>
  Ar.bind (runningSums ovf (ofInt 0) (ws.map (·.2))) fun ps =>
  Ar.bind Ar.draw fun f =>
    let total := if f % 2 = 0 then w1 else ps.getLast?.getD (ofInt 0)
    if total.isZero then emptyRow else
    Ar.bind (mulF ovf u total) fun t =>
      let hit := ((ws.zip ps).find? fun x => ltV t x.2).map (·.1)
      match hit.or ((ws.filter fun x => ltV (ofInt 0) x.2).getLast?) with
      | none => emptyRow
      | some (i, wi) =>
        Ar.bind (lnF ovf wi) fun a => Ar.bind (lnF ovf total) fun b => Ar.map (fun lp => some (i, lp)) (subF ovf a b)

/-- NOISE of a row (R220) (DEDUCED, log 53). -/
def noiseRow (ovf : Bool) (tau : Val) (topk : Nat) (xs : List Val) (u : Nat → Val) : Ar (List Val) :=
  let kept := keptSet topk xs
  Ar.bind (Ar.flagIf (kept.all fun j => xs.getD j .nan == .inf true) fSampleEmpty) fun _ =>
  Ar.bind (zOf ovf tau xs kept) fun zs =>
  Ar.bind (Ar.each (fun z => Ar.bind (gumbel ovf (u z.1)) fun g => Ar.map (fun y => (z.1, y)) (addF ovf z.2 g)) zs) fun ys =>
    Ar.pure ((spread xs.length ys).map fun y => y.getD (.inf true))

/-- A temperature that no row may have (DEDUCED, log 52). -/
def badTau (t : Val) : Bool := t.isNan || ltV t (ofInt 0)

/-- The temperature of each row (R218). -/
def rowTaus (rd : Nat → Byte) (k : Ctl) (w : Nat) : Ar (List Val) :=
  Ar.each (fun r => if vTauRow w then readV rd k w (opB k w) r 0 else Ar.pure (ofW (vImm0 w))) (List.range (vRows w))

/-- Run a SAMPLE. -/
def sampleRun (s : State) (c : Nat) (k : Ctl) (w : Nat) : State :=
  let rd := rdSpd s c
  let R := vRows w
  let desc := (s.core c).nextId
  let s0 := (if vKeyed w then s else stepGen s c (R * rowDraws w)).radd (Reg.vecDraws c) (R * rowDraws w)
  let (xss, s1) := runAr s0 c .vec (Ar.each (readVecRow rd k w (opA k w)) (List.range R))
  let (taus, s2) := if vMode w = 1 then ([], s1) else runAr s1 c .vec (rowTaus rd k w)
  let tau (r : Nat) : Val := taus.getD r (ofInt 1)
  if vMode w = 2 then
    let (rows, s3) := runAr s2 c .vec (Ar.each (fun r =>
      if badTau (tau r) then
        Ar.bind (Ar.flag (fInvalid + fSampleEmpty)) fun _ => Ar.pure (List.replicate (vCols w) (.inf true))
      else noiseRow k.ovf (tau r) (vTopk w) (xss.getD r []) (drawOf s c w r)) (List.range R))
    writeVals s3 c w k (dstRow w) rows
  else
    let (picks, s3) := runAr s2 c .vec (Ar.each (fun r =>
      if vMode w = 1 then categoricalRow k.ovf (vTopk w) (xss.getD r []) (drawOf s c w r 0)
      else if badTau (tau r) then Ar.bind (Ar.flag fInvalid) fun _ => emptyRow
      else gumbelRow k.ovf (tau r) (vTopk w) (xss.getD r []) (drawOf s c w r)) (List.range R))
    let s4 := writeIdx s3 c w (dstRow w) (picks.map fun p => (p.map (·.1)).getD 0xFFFFFFFF)
    let (codes, s5) := runAr s4 c .vec (Ar.each (fun (p : Pick) =>
      toFp fp32 false k.ovf k.flush ((p.map (·.2)).getD (.inf true))) picks)
    let s6 := ((List.range R).zip codes).foldl (fun s x =>
      spdWrite s c (vDst2 w + x.1 * vStrDst w) (leBytes 4 x.2) 0 (vHint w) desc) s5
    countOut s6 c w R (codes.filter fun x => x % 2 ^ 31 == 0).length

/-! Convolution (R222, R223) -/

/-- Padding of a filter extent. -/
def vPadOf (w ext : Nat) : Nat := if vPad w then vDil w * (ext - 1) / 2 else 0

/-- Output extent for an input extent and a filter extent. -/
def vOut (w inp ext : Nat) : Nat :=
  if vPad w then ceilDiv inp (vStep w)
  else
    let span := vDil w * (ext - 1) + 1
    if inp < span then 0 else (inp - span) / vStep w + 1

def vOh (w : Nat) : Nat := vOut w (vInH w) (vKh w)
def vOw (w : Nat) : Nat := vOut w (vInW w) (vKw w)

/-- Bytes from one image row to the next in resident-map mode. -/
def linePitch (n stride : Nat) : Nat := ceilDiv (n * stride) 64 * 64

/-- Where pixel (t, y, x) of A lies, and output position o of DST. -/
def pixelAt (w t y x : Nat) : Nat :=
  if vResident w then vSrcA w + y * linePitch (vInW w) (vStrA w) + x * vStrA w
  else vSrcA w + t * vFrame w + (y * vInW w + x) * vStrA w
def outAt (w o : Nat) : Nat :=
  if vResident w then vDst w + o / vOw w * linePitch (vOw w) (vStrDst w) + o % vOw w * vStrDst w
  else vDst w + o * vStrDst w

/-- The input coordinate of an output coordinate and a tap, if it lies in the map. -/
def tapAt (w ext inp o i : Nat) : Option Nat :=
  let p := o * vStep w + i * vDil w
  let pad := vPadOf w ext
  if pad ≤ p ∧ p - pad < inp then some (p - pad) else none

/-- A geometry rule is broken (R222, R223). -/
def convWrong (w : Nat) : Bool :=
  vKh w == 0 || vKw w == 0 || vRows w != vOh w * vOw w || vCols w % vGch w != 0 || (vPad w && !vResident w) ||
    (vResident w && vKt w != 1) || (vPad w && (vKh w % 2 == 0 || vKw w % 2 == 0))

/-- First byte past the source map and past the destination map. -/
def convEndA (w : Nat) : Nat :=
  if vInH w = 0 ∨ vInW w = 0 then vSrcA w
  else pixelAt w (vKt w - 1) (vInH w - 1) (vInW w - 1) + rowLen (vFmtA w) (vCols w)

/-- A resident map reaches into the weight region (R223). -/
def intoWeights (s : State) (c w : Nat) : Bool :=
  let lim := wreg s c * 0x4000
  vResident w && (decide (vSrcA w < lim) || decide (vDst w < lim))

/-- Reading and writing of a CONV: every pixel that some tap reads, the filter, the bias, the outputs. -/
def convChk (s : State) (e : Upset) (c w : Nat) : Chk :=
  let len := rowLen (vFmtA w) (vCols w)
  let ys := (List.range (vInH w)).filter fun y =>
    (List.range (vOh w)).any fun o => (List.range (vKh w)).any fun i => tapAt w (vKh w) (vInH w) o i == some y
  let xs := (List.range (vInW w)).filter fun x =>
    (List.range (vOw w)).any fun o => (List.range (vKw w)).any fun i => tapAt w (vKw w) (vInW w) o i == some x
  Chk.all [Chk.need (decide (convEndA w ≤ 0x60000)) Fc.addrUnmapped,
    Chk.all ((List.range (vKt w)).flatMap fun t => ys.flatMap fun y => xs.map fun x => spdReadChk s e c (pixelAt w t y x) len),
    readRowsChk s e c (vSrcB w) (vStrB w) (vKt w * vKh w * vKw w * vGch w) (rowLen (vFmtB w) (vCols w)),
    if vBias w then spdReadChk s e c (vSrcC w) (rowLen (vFmtC w) (vCols w)) else .ok,
    Chk.all ((List.range (vRows w)).map fun o => spdChk s c (outAt w o) (lineLen (vFmtOut w) (vCols w))),
    if isScaled (vFmtOut w) then
      spdChk s c (vScale w) (vRows w * (ceilDiv (vCols w) 32 * scaleBytes (vFmtOut w))) else .ok]

/-- One output of a CONV: position (oy, ox), channel `c` (R222). -/
def convOne (rd : Nat → Byte) (k : Ctl) (w oy ox ch : Nat) : Ar Val :=
  let G := vGch w
  let rounds := vFmtA w == 0 || vFmtB w == 0
  let taps := (List.range (vKt w)).flatMap fun t => (List.range (vKh w)).flatMap fun i => (List.range (vKw w)).flatMap fun j =>
    (List.range G).map fun g => (t, i, j, g)
  Ar.bind (Ar.fold (fun acc (t, i, j, g) =>
    let tap := ((t * vKh w + i) * vKw w + j) * G + g
    Ar.bind (match tapAt w (vKh w) (vInH w) oy i, tapAt w (vKw w) (vInW w) ox j with
      | some y, some x => readF32 rd k (pixelAt w t y x) 0 (vFmtA w) k.sgnA (ch / G * G + g)
      | _, _ => Ar.pure (ofInt 0)) fun a =>
    Ar.bind (readF32 rd k (vSrcB w + tap * vStrB w) 0 (vFmtB w) k.sgnB ch) fun b =>
    Ar.bind (if rounds then mulF k.ovf a b else mulX a b) fun p => addF k.ovf acc p) (ofInt 0) taps) fun acc =>
  if vBias w then Ar.bind (readF32 rd k (vSrcC w) 0 (vFmtC w) true ch) (addF k.ovf acc) else Ar.pure acc

/-- Run a CONV. -/
def convRun (s : State) (c : Nat) (k : Ctl) (w : Nat) : State :=
  let rd := rdSpd s c
  let (rows, s1) := runAr s c .vec (Ar.each (fun o =>
    Ar.each (convOne rd k w (o / vOw w) (o % vOw w)) (List.range (vCols w))) (List.range (vRows w)))
  writeVals s1 c w k (outAt w) rows

/-! A VEC descriptor -/

/-- The descriptor is a no-op (R210, R226) (DEDUCED, log 52). -/
def vNoop (w : Nat) : Bool :=
  let red := decide (0x20 ≤ hOp w) && decide (hOp w ≤ 0x24)
  if red then (if vAxis w then vCols w == 0 else vRows w == 0) else vRows w == 0 || vCols w == 0

/-- A field or geometry rule is broken (R87, R207, R213, R216, R218, R220, R222, R223). -/
def vParamWrong (s : State) (c : Nat) (k : Ctl) (w : Nat) : Bool :=
  let lo := ofW (vImm0 w)
  let hi := ofW (vImm1 w)
  let P := s.part (partOf s c)
  vSignsWrong k w ||
  match hOp w with
  | 0x13 => lo.isNan || hi.isNan || ltV hi lo
  | 0x29 => badTau lo
  | 0x2A => badTau lo
  | 0x30 => convWrong w
  | 0x38 =>
    (vKeyed w && (!P.program.any (·.isStep) || decide (rosterCount s c < (vImm1 w).toNat + vRows w))) ||
      (vMode w != 1 && !vTauRow w && (badTau lo || (vMode w == 2 && lo.isZero)))
  | _ => false

/-- Reading and writing of a descriptor other than CONV. -/
def vecChk (s : State) (e : Upset) (c : Nat) (k : Ctl) (w : Nat) : Chk :=
  let op := hOp w
  let reads := Chk.all [vReadChk s e c w (opA k w) (vCols w),
    if usesB w then vReadChk s e c w (opB k w) (if op = 0x38 then 1 else vCols w) else .ok,
    if usesC w then vReadChk s e c w (opC w) (vCols w) else .ok]
  let writes :=
    if 0x20 ≤ op ∧ op ≤ 0x24 then (if vAxis w then vWriteChk s c w 1 (vCols w) else vWriteChk s c w (vRows w) 1)
    else if op = 0x38 ∧ vMode w ≠ 2 then
      (vWriteChk s c w (vRows w) 1).both (writeRowsChk s c (vDst2 w) (vStrDst w) (vRows w) 4)
    else vWriteChk s c w (vRows w) (vCols w)
  reads.both writes

/-- Some row's temperature is zero under NOISE (R220). -/
def noiseZero (s : State) (c : Nat) (k : Ctl) (w : Nat) : Bool :=
  hOp w == 0x38 && vMode w == 2 && vTauRow w && (quiet (rowTaus (rdSpd s c) k w)).any Val.isZero

/-- Run a VEC descriptor whose checks have passed (DEDUCED, log 52). -/
def vecRun (s : State) (c : Nat) (k : Ctl) (w : Nat) : State :=
  let op := hOp w
  if op = 0x30 then convRun s c k w
  else if op = 0x38 then sampleRun s c k w
  else if 0x28 ≤ op then
    let (rows, s1) := runAr s c .vec (rowOpRows (rdSpd s c) k w)
    writeVals s1 c w k (dstRow w) rows
  else if 0x20 ≤ op then reduceRun s c k w
  else
    let (rows, s1) := runAr s c .vec (elementRows (rdSpd s c) k w)
    writeVals s1 c w k (dstRow w) rows

/-- The checks of a VEC descriptor, and its run. -/
def vecBody (c : Nat) (e : Upset) (s0 : State) (w : Nat) : Ran :=
  let s := upset s0 e
  let k := ctlFor s c (vArith w)
  if vNoop w then .done s id
  else if codesReserved (vArith w) ((vFormats w).map (·.1)) ∨ (hOp w = 0x38 ∧ vMode w = 3) then .fault Fc.reserved 0
  else if vFormatWrong w then .fault Fc.vecFormat 0
  else if vParamWrong s c k w then .fault Fc.vecParam 0
  else if hOp w = 0x30 ∧ intoWeights s c w then .fault Fc.vecResident 0
  else
    (if hOp w = 0x30 then convChk s e c w else vecChk s e c k w).run s fun _ =>
      if noiseZero s c k w then .stop s Fc.vecParam else .done (vecRun s c k w) id

/-- Issue a VEC descriptor of an operation. -/
def vecIssue (op : Nat) (c : CoreId) (w : WalkerId) (e : Upset) (s : State) : State :=
  issue s c.val w.val 2 op (vecBody c.val e)

/-- COPY (R206). -/
def execCopy (c : CoreId) (w : WalkerId) (e : Upset) (s : State) : Host.Outcome State Fault Refusal :=
  .next (vecIssue 0x00 c w e s)

/-- ADD (R206). -/
def execAdd (c : CoreId) (w : WalkerId) (e : Upset) (s : State) : Host.Outcome State Fault Refusal :=
  .next (vecIssue 0x01 c w e s)

/-- SUB (R206). -/
def execSub (c : CoreId) (w : WalkerId) (e : Upset) (s : State) : Host.Outcome State Fault Refusal :=
  .next (vecIssue 0x02 c w e s)

/-- MUL of the vector engine (R206). -/
def execVecMul (c : CoreId) (w : WalkerId) (e : Upset) (s : State) : Host.Outcome State Fault Refusal :=
  .next (vecIssue 0x03 c w e s)

/-- DIV (R206). -/
def execDiv (c : CoreId) (w : WalkerId) (e : Upset) (s : State) : Host.Outcome State Fault Refusal :=
  .next (vecIssue 0x04 c w e s)

/-- MAX (R206). -/
def execMax (c : CoreId) (w : WalkerId) (e : Upset) (s : State) : Host.Outcome State Fault Refusal :=
  .next (vecIssue 0x05 c w e s)

/-- MIN (R206). -/
def execMin (c : CoreId) (w : WalkerId) (e : Upset) (s : State) : Host.Outcome State Fault Refusal :=
  .next (vecIssue 0x06 c w e s)

/-- FMA (R206). -/
def execFma (c : CoreId) (w : WalkerId) (e : Upset) (s : State) : Host.Outcome State Fault Refusal :=
  .next (vecIssue 0x07 c w e s)

/-- ABS (R206). -/
def execAbs (c : CoreId) (w : WalkerId) (e : Upset) (s : State) : Host.Outcome State Fault Refusal :=
  .next (vecIssue 0x08 c w e s)

/-- RELU (R206). -/
def execRelu (c : CoreId) (w : WalkerId) (e : Upset) (s : State) : Host.Outcome State Fault Refusal :=
  .next (vecIssue 0x09 c w e s)

/-- GELU (R206). -/
def execGelu (c : CoreId) (w : WalkerId) (e : Upset) (s : State) : Host.Outcome State Fault Refusal :=
  .next (vecIssue 0x0A c w e s)

/-- SILU (R206). -/
def execSilu (c : CoreId) (w : WalkerId) (e : Upset) (s : State) : Host.Outcome State Fault Refusal :=
  .next (vecIssue 0x0B c w e s)

/-- SIGMOID (R206). -/
def execSigmoid (c : CoreId) (w : WalkerId) (e : Upset) (s : State) : Host.Outcome State Fault Refusal :=
  .next (vecIssue 0x0C c w e s)

/-- TANH (R206). -/
def execTanh (c : CoreId) (w : WalkerId) (e : Upset) (s : State) : Host.Outcome State Fault Refusal :=
  .next (vecIssue 0x0D c w e s)

/-- EXP (R206). -/
def execExp (c : CoreId) (w : WalkerId) (e : Upset) (s : State) : Host.Outcome State Fault Refusal :=
  .next (vecIssue 0x0E c w e s)

/-- LOG (R206). -/
def execLog (c : CoreId) (w : WalkerId) (e : Upset) (s : State) : Host.Outcome State Fault Refusal :=
  .next (vecIssue 0x0F c w e s)

/-- SQRT (R206). -/
def execSqrt (c : CoreId) (w : WalkerId) (e : Upset) (s : State) : Host.Outcome State Fault Refusal :=
  .next (vecIssue 0x10 c w e s)

/-- RSQRT (R206). -/
def execRsqrt (c : CoreId) (w : WalkerId) (e : Upset) (s : State) : Host.Outcome State Fault Refusal :=
  .next (vecIssue 0x11 c w e s)

/-- RECIP (R206). -/
def execRecip (c : CoreId) (w : WalkerId) (e : Upset) (s : State) : Host.Outcome State Fault Refusal :=
  .next (vecIssue 0x12 c w e s)

/-- CLAMP (R206). -/
def execClamp (c : CoreId) (w : WalkerId) (e : Upset) (s : State) : Host.Outcome State Fault Refusal :=
  .next (vecIssue 0x13 c w e s)

/-- RSUM (R209). -/
def execRsum (c : CoreId) (w : WalkerId) (e : Upset) (s : State) : Host.Outcome State Fault Refusal :=
  .next (vecIssue 0x20 c w e s)

/-- RMAX (R209). -/
def execRmax (c : CoreId) (w : WalkerId) (e : Upset) (s : State) : Host.Outcome State Fault Refusal :=
  .next (vecIssue 0x21 c w e s)

/-- RMIN (R209). -/
def execRmin (c : CoreId) (w : WalkerId) (e : Upset) (s : State) : Host.Outcome State Fault Refusal :=
  .next (vecIssue 0x22 c w e s)

/-- RSUMSQ (R209). -/
def execRsumsq (c : CoreId) (w : WalkerId) (e : Upset) (s : State) : Host.Outcome State Fault Refusal :=
  .next (vecIssue 0x23 c w e s)

/-- RARGMAX (R211). -/
def execRargmax (c : CoreId) (w : WalkerId) (e : Upset) (s : State) : Host.Outcome State Fault Refusal :=
  .next (vecIssue 0x24 c w e s)

/-- SOFTMAX (R212). -/
def execSoftmax (c : CoreId) (w : WalkerId) (e : Upset) (s : State) : Host.Outcome State Fault Refusal :=
  .next (vecIssue 0x28 c w e s)

/-- LAYERNORM (R213). -/
def execLayernorm (c : CoreId) (w : WalkerId) (e : Upset) (s : State) : Host.Outcome State Fault Refusal :=
  .next (vecIssue 0x29 c w e s)

/-- RMSNORM (R213). -/
def execRmsnorm (c : CoreId) (w : WalkerId) (e : Upset) (s : State) : Host.Outcome State Fault Refusal :=
  .next (vecIssue 0x2A c w e s)

/-- CONV (R222). -/
def execConv (c : CoreId) (w : WalkerId) (e : Upset) (s : State) : Host.Outcome State Fault Refusal :=
  .next (vecIssue 0x30 c w e s)

/-- SAMPLE (R218 to R221). -/
def execSample (c : CoreId) (w : WalkerId) (e : Upset) (s : State) : Host.Outcome State Fault Refusal :=
  .next (vecIssue 0x38 c w e s)

end Sys2Proof.Machine
end

