-- ==== Sys2Proof/Machine/Att.lean ====
section
/-! DEFINITION. The attention engine, the combine unit and key/value append (chapter 08). -/

namespace Sys2Proof.Machine

def Fc.attFormat : Nat := 0x140
def Fc.attParam : Nat := 0x141
def Fc.attSequence : Nat := 0x142
def Fc.attCombine : Nat := 0x143

/-- EMPTY_ROW (R255). -/
def fEmptyRow : Nat := 0x10000

/-! Fields of an ATT descriptor (R251) -/
def aAcc (w : Nat) : Nat := fld w 67 2
def aCausal (w : Nat) : Bool := bit w 69
def aWinEn (w : Nat) : Bool := bit w 70
def aKlenEn (w : Nat) : Bool := bit w 71
def aBiasEn (w : Nat) : Bool := bit w 72
def aTarget (w : Nat) : Bool := bit w 73
def aStatsOut (w : Nat) : Bool := bit w 74
def aGqa (w : Nat) : Nat := 2 ^ fld w 75 2
def aArith (w : Nat) : Nat := fld w 80 16
def aFmtQ (w : Nat) : Nat := fld w 96 5
def aFmtKv (w : Nat) : Nat := fld w 104 5
def aFmtOut (w : Nat) : Nat := fld w 112 5
def aFmtBias (w : Nat) : Nat := fld w 120 5
def aRows (w : Nat) : Nat := fld w 128 7
def aBase (w : Nat) : Nat := fld w 136 6
def aKeys (w : Nat) : Nat := fld w 144 11
def aD (w : Nat) : Nat := fld w 160 9
def aWindow (w : Nat) : Nat := fld w 176 16
def aQ (w : Nat) : Nat := fld w 192 19
def aK (w : Nat) : Nat := fld w 224 19
def aV (w : Nat) : Nat := fld w 256 19
def aKs (w : Nat) : Nat := fld w 288 19
def aVs (w : Nat) : Nat := fld w 320 19
def aOut (w : Nat) : Nat := fld w 352 22
def aAux (w : Nat) : Nat := fld w 384 19
def aPosrec (w : Nat) : Nat := fld w 416 19
def aScale (w : Nat) : Word32 := BitVec.ofNat 32 (fld w 448 32)
def aStrideQ (w : Nat) : Nat := fld w 480 16
def aStrideOut (w : Nat) : Nat := fld w 496 16

/-- ROWS or D is zero: nothing but the slot handshakes (R252). -/
def aNoop (w : Nat) : Bool := aRows w == 0 || aD w == 0

/-- Bytes of a key's elements and of its scales (R234). -/
def kvRowBytes (f d : Nat) : Nat := d * elemBits f / 8
def kvScales (f d : Nat) : Nat := if isScaled f then d / 32 * scaleBytes f else 0

/-- Formats that the engine accepts (R233). -/
def kvFormat (f : Nat) : Bool := f == 1 || f == 8 || f == 9 || f == 0x13
def outFormat (f : Nat) : Bool := decide (f ≤ 4)

/-- Row range and head dimension (R232, R234). -/
def rowsWrong (w : Nat) : Bool := decide (64 < aBase w + aRows w) || decide (256 < aD w)
def dimWrong (w : Nat) : Bool := decide (64 < aRows w) || decide (256 < aD w) || (isScaled (aFmtKv w) && aD w % 32 != 0)

/-- SGN bits: no operand of the engine is an integer whose signedness is selected (R87). -/
def attSigns (k : Ctl) : Bool := signsWrong k false false false

/-! The statistics file (R231, R232, R242) -/

/-- A row's statistics as values. -/
structure Triple where
  m : Val
  l : Val
  o : List Val
  deriving Inhabited

/-- Bytes of a triple row (R242). -/
def tripleLen (d : Nat) : Nat := roundUp (8 + 4 * d) 64

def Triple.empty (d : Nat) : Triple := { m := .inf true, l := ofInt 0, o := List.replicate d (ofInt 0) }

/-- The open rows of the file, `d` elements of output each. -/
def rowOf (s : State) (c i d : Nat) : Triple :=
  let r := (s.core c).stats.get i
  { m := ofW r.m, l := ofW r.l, o := (List.range d).map fun j => ofW (r.o.get j) }

def setTriple (s : State) (c i : Nat) (t : Triple) : State :=
  let old := (s.core c).stats.get i
  let o := ((List.range t.o.length).zip t.o).foldl (fun (o : SMap Word32) x => o.set x.1 (toW x.2)) old.o
  s.modCore c fun x => { x with stats := x.stats.set i { live := true, m := toW t.m, l := toW t.l, o := o } }

/-- Close rows. -/
def closeRows (s : State) (c w : Nat) : State :=
  s.modCore c fun x => { x with
    stats := (List.range (aRows w)).foldl (fun t r => t.set (aBase w + r) default) x.stats }

/-- Every row of the descriptor is OPEN. -/
def rowsOpen (s : State) (c w : Nat) : Bool :=
  (List.range (aRows w)).all fun r => ((s.core c).stats.get (aBase w + r)).live

/-- A triple as bytes, the tail zero. -/
def tripleBytes (t : Triple) : List Byte :=
  let body := ([t.m, t.l] ++ t.o).flatMap fun v => leBytes 4 (toW v).toNat
  body ++ List.replicate (tripleLen t.o.length - body.length) 0

/-- A triple from a reader of FP32 words. -/
def tripleFrom (rd : Nat → Word32) (d : Nat) : Triple :=
  { m := ofW (rd 0), l := ofW (rd 1), o := (List.range d).map fun j => ofW (rd (2 + j)) }

/-! Scores and masks (R235 to R237) -/

/-- The position record: QPOS0, KPOS0, KLEN. -/
def posWord (s : State) (c w i : Nat) : Nat := leNat (spdRead s c (aPosrec w + 4 * i) 4)

/-- Some mask is enabled. -/
def anyMask (w : Nat) : Bool := aCausal w || aWinEn w || aKlenEn w

/-- Key `j` is masked for row `r` (R237). -/
def masked (w qpos kpos klen r j : Nat) : Bool :=
  let k := kpos + j
  let q := qpos + r / aGqa w
  (aCausal w && decide (q < k)) || (aWinEn w && decide (k + aWindow w ≤ q)) || (aKlenEn w && decide (klen ≤ k))

/-- An element of a key before scaling, and its scale code or scale value. -/
def keyElem (rd : Nat → Byte) (k : Ctl) (w j i : Nat) : Ar Val :=
  let f := aFmtKv w
  let raw := elemVal f true (elemCode rd (aK w + j * kvRowBytes f (aD w)) f i)
  match fmtOf f with | some g => flushIn k.flush g raw | none => Ar.pure raw

/-- The score of a row against key `j` (R236). -/
def scoreOf (rd : Nat → Byte) (k : Ctl) (w : Nat) (q : List Val) (bias : Ar Val) (j : Nat) : Ar Val :=
  let f := aFmtKv w
  let d := aD w
  let sb := aKs w + j * kvScales f d
  Ar.bind (Ar.fold (fun dot b =>
    Ar.bind (Ar.fold (fun p i =>
      Ar.bind (keyElem rd k w j i) fun y => Ar.bind (mulX (q.getD i (ofInt 0)) y) (addF k.ovf p)) (ofInt 0)
        ((List.range (min 32 (d - 32 * b))).map (32 * b + ·))) fun p =>
    Ar.bind (if isMx f then blockScale k p [(rd (sb + b)).toNat]
      else if isInt4g f then mulF k.ovf p (scaleVal rd sb f b) else Ar.pure p) (addF k.ovf dot))
    (ofInt 0) (List.range (ceilDiv d 32))) fun dot =>
  Ar.bind (mulF k.ovf dot (ofW (aScale w))) fun s =>
    if aBiasEn w then Ar.bind bias (addF k.ovf s) else Ar.pure s

/-- Element `d` of value `j` (R238). -/
def valueElem (rd : Nat → Byte) (k : Ctl) (w j d : Nat) : Ar Val :=
  let f := aFmtKv w
  readElem rd k.flush (aV w + j * kvRowBytes f (aD w)) (aVs w + j * kvScales f (aD w)) f true d

/-- A BF16 probability (R238). -/
def bfRound (ovf : Bool) (v : Val) : Ar Val := Ar.map (decodeFp bf16) (toFp bf16 false ovf false v)

/-! The running statistics (R238, R239) -/

/-- One row meets one block: keys by their place in the block with their scores, masked ones `none`; `vals j` is value
row `j` of the block. A block whose unmasked scores are all −∞ leaves a row unchanged, but for a row that has met no
larger score: there exp(−∞ − (−∞)) is invalid and the row becomes NaN (R237, R239; DEDUCED, log 57). -/
def meetBlock (ovf : Bool) (t : Triple) (scores : List (Option Val)) (vals : Nat → List Val) : Ar Triple :=
  let mb := scores.foldl (fun m s => match s with | some v => maxV m v | none => m) (.inf true)
  if mb == .inf true && (t.m != .inf true || scores.all Option.isNone) then Ar.pure t else
  let mn := maxV t.m mb
  Ar.bind (if t.m == .inf true then Ar.pure (ofInt 0) else Ar.bind (subF ovf t.m mn) (expF ovf)) fun a =>
  Ar.bind (Ar.each (fun (s : Option Val) =>
    match s with
    | none => Ar.pure none
    | some v => Ar.bind (subF ovf v mn) fun x => Ar.bind (expF ovf x) fun e => Ar.map some (bfRound ovf e)) scores) fun ps =>
  Ar.bind (reduceRow 0x20 ovf ps) fun sum =>
  Ar.bind (fmaF ovf t.l a sum) fun l =>
  let live := ((List.range ps.length).zip ps).filterMap fun x => x.2.map fun p => (p, vals x.1)
  Ar.map (fun o => { m := mn, l := l, o := o }) (Ar.each (fun (x : Nat × Val) =>
    Ar.bind (Ar.fold (fun acc (y : Val × List Val) =>
      Ar.bind (mulX y.1 (y.2.getD x.1 (ofInt 0))) (addF ovf acc)) (ofInt 0) live) fun u => fmaF ovf x.2 a u)
    ((List.range t.o.length).zip t.o))

/-- Blocks of an ATTEND: the key numbers of each (R238). -/
def blocksOf (w : Nat) : List (List Nat) :=
  (List.range (ceilDiv (aKeys w) 128)).map fun b => (List.range (min 128 (aKeys w - 128 * b))).map (128 * b + ·)

/-- The mask as the position record gives it. -/
def skipMask (s : State) (c w : Nat) : Nat → Nat → Bool :=
  if anyMask w then masked w (posWord s c w 0) (posWord s c w 1) (posWord s c w 2) else fun _ _ => false

/-- A block is skipped: every key is masked for every row (R240). -/
def blockSkipped (mask : Nat → Nat → Bool) (w : Nat) (b : List Nat) : Bool :=
  b.all fun j => (List.range (aRows w)).all fun r => mask r j

/-- One row meets the blocks that are not skipped. -/
def meetRow (rd : Nat → Byte) (k : Ctl) (w : Nat) (mask : Nat → Nat → Bool) (blocks : List (List Nat)) (r : Nat) (t : Triple) :
    Ar Triple :=
  let d := aD w
  if blocks.isEmpty then Ar.pure t else
  Ar.bind (Ar.each (readElem rd k.flush (aQ w + r * aStrideQ w) 0 (aFmtQ w) false) (List.range d)) fun q =>
    Ar.fold (fun t b =>
      let bias (j : Nat) : Ar Val := readElem rd k.flush (aAux w) 0 (aFmtBias w) false (r * aKeys w + j)
      Ar.bind (Ar.each (fun j =>
        if mask r j then Ar.pure none else Ar.map some (scoreOf rd k w q (bias j) j)) b) fun scores =>
      Ar.bind (Ar.each (fun j => if mask r j then Ar.pure [] else Ar.each (valueElem rd k w j) (List.range d)) b) fun vals =>
        meetBlock k.ovf t scores fun i => vals.getD i []) t blocks

/-! ATTEND -/

/-- Rows as an ATTEND opens or continues them (R232). -/
def openRow (s : State) (c w r : Nat) : Triple :=
  match aAcc w with
  | 0 => Triple.empty 256
  | 1 => rowOf s c (aBase w + r) 256
  | _ =>
    let t := tripleFrom (fun i => BitVec.ofNat 32 (leNat (spdRead s c (aOut w + r * tripleLen (aD w) + 4 * i) 4))) (aD w)
    { t with o := t.o ++ List.replicate (256 - aD w) (ofInt 0) }

/-- Run an ATTEND whose checks have passed. -/
def attendRun (s : State) (c w : Nat) : State :=
  let k := ctlFor s c (aArith w)
  let mask := skipMask s c w
  let blocks := blocksOf w
  let met := blocks.filter fun b => !blockSkipped mask w b
  let s1 := (List.range (aRows w)).foldl (fun t r =>
    let start := openRow s c w r
    let (row, t1) := runAr t c .att (meetRow (rdSpd s c) k w mask met r { start with o := start.o.take (aD w) })
    setTriple t1 c (aBase w + r) { row with o := row.o ++ start.o.drop (aD w) }) s
  (s1.radd (Reg.attBlocks c) blocks.length).radd (Reg.attSkipped c) (blocks.length - met.length)

/-- What an ATTEND reads (R143, R240). -/
def attendChk (s : State) (e : Upset) (c w : Nat) : Chk :=
  let f := aFmtKv w
  let d := aD w
  let n := aKeys w
  let b := kvRowBytes f d
  let z := kvScales f d
  let inside (a len : Nat) : Chk := Chk.need (decide (a + len ≤ 0x60000)) Fc.addrUnmapped
  let bias := (List.range (aRows w)).map fun r => (r * n, n)
  let triples := if aAcc w = 2 then spdReadChk s e c (aOut w) (aRows w * tripleLen d) else .ok
  if n = 0 then triples else
  let head := Chk.all [triples, readRowsChk s e c (aQ w) (aStrideQ w) (aRows w) (rowLen (aFmtQ w) d),
    if anyMask w then spdReadChk s e c (aPosrec w) 16 else .ok,
    inside (aK w) (n * b), inside (aV w) (n * b), inside (aKs w) (n * z), inside (aVs w) (n * z)]
  let met := (blocksOf w).filter fun k => !blockSkipped (skipMask s c w) w k
  Chk.all (head :: (met.map fun k =>
    let j := k.headD 0
    let m := k.length
    Chk.all [spdReadChk s e c (aK w + j * b) (m * b), spdReadChk s e c (aV w + j * b) (m * b),
      spdReadChk s e c (aKs w + j * z) (m * z), spdReadChk s e c (aVs w + j * z) (m * z)]) ++
    (if aBiasEn w then bias.map fun x =>
      let w4 := elemBits (aFmtBias w) / 8
      spdReadChk s e c (aAux w + x.1 * w4) (x.2 * w4) else []))

/-- A format is not accepted (R233). -/
def attendFormat (w : Nat) : Bool :=
  !(decide (1 ≤ aFmtQ w) && decide (aFmtQ w ≤ 4)) || !kvFormat (aFmtKv w) || (aBiasEn w && decide (1 < aFmtBias w))

/-- A field rule is broken (R232, R234, R237, R252). -/
def attendParam (k : Ctl) (w : Nat) : Bool :=
  let sc := ofW (aScale w)
  rowsWrong w || dimWrong w || decide (1024 < aKeys w) || (aWinEn w && aWindow w == 0) || sc.isNan || sc.isInf ||
    (anyMask w && aPosrec w % 16 != 0) || (aAcc w == 2 && aOut w % 64 != 0) || attSigns k

/-- ATTEND (R232 to R240). -/
def attendBody (c : Nat) (e : Upset) (s0 : State) (w : Nat) : Ran :=
  let s := upset s0 e
  if aNoop w then .done s id
  else if codesReserved (aArith w) ([aFmtQ w, aFmtKv w] ++ if aBiasEn w then [aFmtBias w] else []) ∨ aAcc w = 3 then
    .fault Fc.reserved 0
  else if attendFormat w then .fault Fc.attFormat 0
  else if attendParam (ctlFor s c (aArith w)) w then .fault Fc.attParam 0
  else if aAcc w = 1 ∧ !rowsOpen s c w then .fault Fc.attSequence 0
  else (attendChk s e c w).run s fun _ => .done (attendRun s c w) id

/-- ATTEND (R238). -/
def execAttend (c : CoreId) (w : WalkerId) (e : Upset) (s : State) : Host.Outcome State Fault Refusal :=
  .next (issue s c.val w.val 3 0 (attendBody c.val e))

/-! FINISH (R241) -/

/-- A row sum of +0: the row met no unmasked key (R241). -/
def plusZero (v : Val) : Bool := v.isZero && !v.neg?

/-- The output of a row, and whether it met no unmasked key. -/
def outputOf (ovf : Bool) (t : Triple) : Ar (List Val) :=
  if plusZero t.l then Ar.withFlag fEmptyRow (t.o.map fun _ => ofInt 0) else Ar.each (fun v => divF ovf v t.l) t.o

/-- The statistics of a row as bytes. -/
def statBytes (t : Triple) : List Byte := leBytes 4 (toW t.m).toNat ++ leBytes 4 (toW t.l).toNat

/-- FINISH (R241). -/
def finishBody (c : Nat) (e : Upset) (s0 : State) (w : Nat) : Ran :=
  let s := upset s0 e
  let k := ctlFor s c (aArith w)
  let d := aD w
  if aNoop w then .done s id
  else if codesReserved (aArith w) [aFmtOut w] then .fault Fc.reserved 0
  else if !outFormat (aFmtOut w) then .fault Fc.attFormat 0
  else if rowsWrong w || attSigns k then .fault Fc.attParam 0
  else if !rowsOpen s c w then .fault Fc.attSequence 0
  else
    ((writeRowsChk s c (aOut w) (aStrideOut w) (aRows w) (rowLen (aFmtOut w) d)).both
      (if aStatsOut w then spdChk s c (aAux w) (8 * aRows w) else .ok)).run s fun _ =>
        let rows := (List.range (aRows w)).map fun r => rowOf s c (aBase w + r) d
        let (lines, s1) := runAr s c .att (Ar.each (fun t =>
          Ar.bind (outputOf k.ovf t) fun ys => Ar.map Prod.fst (writeLine (aFmtOut w) k ys)) rows)
        let desc := (s.core c).nextId
        let s2 := writeRows s1 c (aOut w) (aStrideOut w) lines false desc
        let s3 := if aStatsOut w then spdWrite s2 c (aAux w) (rows.flatMap statBytes) 0 false desc else s2
        .done (closeRows s3 c w) id

/-- FINISH (R241). -/
def execFinish (c : CoreId) (w : WalkerId) (e : Upset) (s : State) : Host.Outcome State Fault Refusal :=
  .next (issue s c.val w.val 3 1 (finishBody c.val e))

/-! Combine records (R243 to R245): the header as one number, byte 0 lowest -/

def combHead (s : State) (q a : Nat) : Nat := s.rdN (qsrAddr q a) 64
def rParts (h : Nat) : Nat := fld h 0 6
def rRows (h : Nat) : Nat := fld h 6 7
def rD (h : Nat) : Nat := fld h 13 9
def rFmt (h : Nat) : Nat := fld h 22 5
def rArmed (h : Nat) : Bool := bit h 27
def rStats (h : Nat) : Bool := bit h 28
def rLanded (h : Nat) : Nat := fld h 32 32
def rMerged (h : Nat) : Nat := fld h 64 32
def rArith (h : Nat) : Nat := fld h 96 16
def rDest (h : Nat) : Nat := fld h 112 5
def rSlot (h : Nat) : Option Nat := if bit h 126 then some (fld h 120 6) else none
def rResult (h : Nat) : Nat := fld h 128 19
def rStatsAt (h : Nat) : Nat := fld h 160 19
def rStride (h : Nat) : Nat := fld h 192 16

/-- All the parts that the header expects have been merged (R245 FINALISING). -/
def allMerged (h : Nat) : Bool := rArmed h && decide (rParts h ≤ popCount 32 (rMerged h))

/-- Write the header of a record. -/
def setHead (s : State) (q a h : Nat) : State := qsrWrite s q a (leBytes 64 h) 0

/-- Where result row `r`, and row `r` of part `p`, of a record lie. -/
def resultAt (a d r : Nat) : Nat := a + 64 + r * tripleLen d
def partAt (a rows d p r : Nat) : Nat := a + 64 + (p + 1) * rows * tripleLen d + r * tripleLen d

/-- A part lands (R244, R245) (DEDUCED, log 57). -/
def landPart (s : State) (q a p : Nat) : State :=
  let h := combHead s q a
  let s1 := setHead s q a (setFld h (32 + p) 1 1)
  let s2 := if rArmed h then s1 else s1.ror (Reg.attCombStatus q) 1
  s2.modQuire q fun x => { x with
    comb := (x.comb.filter fun v => v.final || v.record != a || v.part != p) ++ [{ record := a, part := p, final := false }] }

/-- The landing of a part would be refused (R245) (DEDUCED, log 57). -/
def landRefused (h p : Nat) : Bool := bit (rLanded h) p || (bit (rMerged h) p && !allMerged h)

/-- EXPORT (R242, R244). -/
def exportBody (c : Nat) (e : Upset) (s0 : State) (w : Nat) : Ran :=
  let s := upset s0 e
  let d := aD w
  let len := tripleLen d
  let q := c / 32
  let p := aWindow w
  if aNoop w then .done s id
  else if rowsWrong w ∨ aOut w % 64 ≠ 0 ∨ (aTarget w ∧ 32 ≤ p) then .fault Fc.attParam 0
  else if !rowsOpen s c w then .fault Fc.attSequence 0
  else
    let rows := (List.range (aRows w)).map fun r => tripleBytes (rowOf s c (aBase w + r) d)
    if !aTarget w then
      (spdChk s c (aOut w) (aRows w * len)).run s fun _ =>
        .done (closeRows (writeRows s c (aOut w) len rows false (s.core c).nextId) c w) id
    else
      ((qsrChk s q (aOut w) 64).both (qsrChk s q (partAt (aOut w) (aRows w) d p 0) (aRows w * len))).run s fun _ =>
        if landRefused (combHead s q (aOut w)) p then .stop (s.ror (Reg.attCombStatus q) 2) Fc.attCombine else
        let s1 := ((List.range rows.length).zip rows).foldl (fun s r =>
          qsrWrite s q (partAt (aOut w) (aRows w) d p r.1) r.2 0) s
        .done (landPart (closeRows s1 c w) q (aOut w) p) id

/-- EXPORT (R244). -/
def execExportRows (c : CoreId) (w : WalkerId) (e : Upset) (s : State) : Host.Outcome State Fault Refusal :=
  .next (issue s c.val w.val 3 2 (exportBody c.val e))

/-- The header that ARM writes, LANDED kept (R243, R244). -/
def armHead (c w h : Nat) : Nat :=
  at_ 0 6 (aWindow w) + at_ 6 7 (aRows w) + at_ 13 9 (aD w) + at_ 22 5 (aFmtOut w) + at_ 27 1 1 + at_ 28 1 (b2n (aStatsOut w)) +
    at_ 32 32 (rLanded h) + at_ 64 32 (rMerged h) + at_ 96 16 (aArith w) + at_ 112 5 (c % 32) +
    (match hProd w with | some k => at_ 120 6 k + at_ 126 1 1 | none => 0) +
    at_ 128 19 (aQ w) + at_ 160 19 (aAux w) + at_ 192 16 (aStrideQ w)

/-- ARM (R244, R245) (DEDUCED, log 57). -/
def armBody (c : Nat) (s : State) (w : Nat) : Ran :=
  let d := aD w
  let q := c / 32
  let n := fld (aWindow w) 0 16
  if aNoop w then .done s fun f => { f with prod := none }
  else if codesReserved (aArith w) [aFmtOut w] then .fault Fc.reserved 0
  else if !outFormat (aFmtOut w) then .fault Fc.attFormat 0
  else if n = 0 ∨ 32 < n ∨ 64 < aRows w ∨ 256 < d ∨ aOut w % 64 ≠ 0 ∨ attSigns (ctlFor s c (aArith w)) then .fault Fc.attParam 0
  else
    (Chk.all [qsrChk s q (aOut w) (64 + (n + 1) * aRows w * tripleLen d),
      writeRowsChk s c (aQ w) (aStrideQ w) (aRows w) (rowLen (aFmtOut w) d),
      if aStatsOut w then spdChk s c (aAux w) (8 * aRows w) else .ok]).run s fun _ =>
        let h := combHead s q (aOut w)
        if rArmed h then .fault Fc.attSequence 0 else
        .done (setHead s q (aOut w) (armHead c w h)) fun f => { f with prod := none }

/-- ARM (R244). -/
def execArm (c : CoreId) (w : WalkerId) (s : State) : Host.Outcome State Fault Refusal :=
  .next (issue s c.val w.val 3 4 (armBody c.val))

/-! The combine unit (R244, R245) -/

/-- A triple in the quire store, and its poison. -/
def storeTriple (s : State) (q off d : Nat) : Triple := tripleFrom (fun i => BitVec.ofNat 32 (s.rdN (qsrAddr q (off + 4 * i)) 4)) d

/-- Merge a part's row into the result row (R244) (DEDUCED, log 57). -/
def mergeRow (ovf first : Bool) (r i : Triple) : Ar Triple :=
  if first then Ar.pure i
  else if i.m == .inf true then Ar.pure r
  else if r.m == .inf true then Ar.pure i
  else
    let mn := maxV r.m i.m
    Ar.bind (Ar.bind (subF ovf r.m mn) (expF ovf)) fun ar =>
    Ar.bind (Ar.bind (subF ovf i.m mn) (expF ovf)) fun ai =>
    let join (x y : Val) : Ar Val := Ar.bind (mulF ovf x ar) fun t => fmaF ovf y ai t
    Ar.bind (join r.l i.l) fun l =>
      Ar.map (fun o => { m := mn, l := l, o := o }) (Ar.each (fun (x : Val × Val) => join x.1 x.2) (r.o.zip i.o))

/-- A landed part that can be merged: its record is armed, not being finalised, and still shows the part as landed. -/
def mergeable (s : State) (q : Nat) (v : CombEvent) : Bool :=
  let h := combHead s q v.record
  !v.final && rArmed h && !allMerged h && bit (rLanded h) v.part

/-- Merge one part of a record. -/
def mergePart (s : State) (q a p : Nat) : State :=
  let h := combHead s q a
  let k := ctlFor s (32 * q + rDest h) (rArith h)
  let d := rD h
  let s1 := (List.range (rRows h)).foldl (fun t r =>
    let src := partAt a (rRows h) d p r
    let dst := resultAt a d r
    let (row, t1) := runAr t (32 * q + rDest h) .att
      (mergeRow k.ovf (rMerged h == 0) (storeTriple t q dst d) (storeTriple t q src d))
    let bad := qsrPoison t q src (tripleLen d)
    qsrWrite t1 q dst (tripleBytes row) (if bad ≠ 0 then bad else if rMerged h = 0 then 0 else qsrPoison t q dst (tripleLen d))) s
  let h1 := setFld (setFld h (32 + p) 1 0) (64 + p) 1 1
  let s2 := (setHead s1 q a h1).radd (Reg.attCombMerges q) 1
  if allMerged h1 then
    s2.modQuire q fun x => { x with comb := x.comb ++ [{ record := a, part := 0, final := true }] }
  else s2

/-- COMBINE_MERGE: the unit merges the part that landed first among those it may merge (R244). -/
def execCombineMerge (q : QuireId) (s : State) : Host.Outcome State Fault Refusal :=
  match (s.quire q.val).comb.find? (mergeable s q.val) with
  | none => .next s
  | some v =>
    let s1 := s.modQuire q.val fun x => { x with comb := x.comb.filter (· != v) }
    .next (mergePart s1 q.val v.record v.part)

/-- A record whose parts are all merged, at a stage: 0 results to be written, 1 written. -/
def finalising (s : State) (q stage : Nat) : Option CombEvent :=
  (s.quire q).comb.find? fun v => v.final && v.part == stage && allMerged (combHead s q v.record)

/-- Write the result rows, and their statistics, into the consumer's scratchpad (R244). -/
def writeResult (s : State) (q a : Nat) : State :=
  let h := combHead s q a
  let c := 32 * q + rDest h
  let k := ctlFor s c (rArith h)
  let rows := (List.range (rRows h)).map fun r => (r, storeTriple s q (resultAt a (rD h) r) (rD h))
  let s1 := rows.foldl (fun t x =>
    let (bytes, t1) := runAr t c .att (Ar.bind (outputOf k.ovf x.2) fun ys => Ar.map Prod.fst (writeLine (rFmt h) k ys))
    let bad := qsrPoison s q (resultAt a (rD h) x.1) (tripleLen (rD h))
    let t2 := spdWrite t1 c (rResult h + x.1 * rStride h) bytes bad false 0
    if rStats h then spdWrite t2 c (rStatsAt h + 8 * x.1) (statBytes x.2) bad false 0 else t2) s
  let lines := rows.flatMap fun x =>
    linesOf (rResult h + x.1 * rStride h) (rowLen (rFmt h) (rD h)) ++ (if rStats h then linesOf (rStatsAt h + 8 * x.1) 8 else [])
  let s2 := flushWhere s1 c fun g => lines.contains g.line.val
  if rows.any fun x => plusZero x.2.l then s2.ror (Reg.attCombStatus q) 4 else s2

/-- COMBINE_FINALISE: with all parts merged, the unit writes the result; a FULL slot of the consumer holds it back
(R148, R244). -/
def execCombineFinalise (q : QuireId) (s : State) : Host.Outcome State Fault Refusal :=
  match finalising s q.val 0 with
  | none => .next s
  | some v =>
    let h := combHead s q.val v.record
    let full := match rSlot h with | some k => ((s.core (32 * q.val + rDest h)).slots.get k).full | none => false
    if full then .next s else
    .next ((writeResult s q.val v.record).modQuire q.val fun x => { x with
      comb := x.comb.map fun y => if y = v then { y with part := 1 } else y })

/-- COMBINE_RESULT_LANDED: the consumer's slot is set FULL, ARMED and MERGED are cleared (R245). -/
def execCombineResultLanded (q : QuireId) (s : State) : Host.Outcome State Fault Refusal :=
  match finalising s q.val 1 with
  | none => .next s
  | some v =>
    let h := combHead s q.val v.record
    let c := 32 * q.val + rDest h
    let s1 := match rSlot h with | some k => slotProduced s c k | none => s
    let s2 := setHead s1 q.val v.record (setFld (setFld h 27 1 0) 64 32 0)
    .next (s2.modQuire q.val fun x => { x with comb := x.comb.filter (· != v) })

/-! APPEND (R247) -/

/-- APPEND (R247). -/
def appendBody (c : Nat) (e : Upset) (s0 : State) (w : Nat) : Ran :=
  let s := upset s0 e
  let k := ctlFor s c (aArith w)
  let d := aD w
  let f := aFmtKv w
  let b := kvRowBytes f d
  let z := kvScales f d
  if aNoop w then .done s id
  else if codesReserved (aArith w) [aFmtQ w, f] then .fault Fc.reserved 0
  else if 2 < aFmtQ w ∨ !kvFormat f then .fault Fc.attFormat 0
  else if dimWrong w ∨ attSigns k then .fault Fc.attParam 0
  else
    (Chk.all [readRowsChk s e c (aQ w) (aStrideQ w) (aRows w) (rowLen (aFmtQ w) d), spdChk s c (aK w) (aRows w * b),
      spdChk s c (aKs w) (aRows w * z)]).run s fun _ =>
        let rd := rdSpd s c
        let desc := (s.core c).nextId
        let (lines, s1) := runAr s c .att (Ar.each (fun r =>
          Ar.bind (Ar.each (readElem rd k.flush (aQ w + r * aStrideQ w) 0 (aFmtQ w) false) (List.range d)) (writeLine f k))
          (List.range (aRows w)))
        let s2 := writeRows (writeRows s1 c (aK w) b (lines.map (·.1)) false desc) c (aKs w) z (lines.map (·.2)) false desc
        .done (s2.radd (Reg.attAppended c) (aRows w)) id

/-- APPEND (R247). -/
def execAppendRows (c : CoreId) (w : WalkerId) (e : Upset) (s : State) : Host.Outcome State Fault Refusal :=
  .next (issue s c.val w.val 3 3 (appendBody c.val e))

end Sys2Proof.Machine
end

