-- ==== Sys2Proof/Machine/Hash.lean ====
section
/-! DEFINITION. SHA3-256 (R503): the Keccak permutation on 25 lanes of 64 bits, lane (x, y) at x + 5y. -/

namespace Sys2Proof.Machine

/-- Rotate a 64-bit lane left. -/
def rot64 (v : BitVec 64) (n : Nat) : BitVec 64 := v.rotateLeft n

/-- Lane (x, y) of a Keccak state, coordinates modulo 5. -/
def lane (a : List (BitVec 64)) (x y : Nat) : BitVec 64 := a.getD (x % 5 + 5 * (y % 5)) 0

/-- Rotation offsets of the rho step, lane (x, y) at x + 5y. -/
def rhoOffsets : List Nat :=
  [0, 1, 62, 28, 27, 36, 44, 6, 55, 20, 3, 10, 43, 25, 39, 41, 45, 15, 21, 8, 18, 2, 61, 56, 14]

/-- Round constants of the iota step. -/
def roundConsts : List (BitVec 64) :=
  [0x0000000000000001, 0x0000000000008082, 0x800000000000808A, 0x8000000080008000,
   0x000000000000808B, 0x0000000080000001, 0x8000000080008081, 0x8000000000008009,
   0x000000000000008A, 0x0000000000000088, 0x0000000080008009, 0x000000008000000A,
   0x000000008000808B, 0x800000000000008B, 0x8000000000008089, 0x8000000000008003,
   0x8000000000008002, 0x8000000000000080, 0x000000000000800A, 0x800000008000000A,
   0x8000000080008081, 0x8000000000008080, 0x0000000080000001, 0x8000000080008008]

/-- One Keccak round. -/
def keccakRound (a : List (BitVec 64)) (rc : BitVec 64) : List (BitVec 64) :=
  let col := (List.range 5).map fun x => lane a x 0 ^^^ lane a x 1 ^^^ lane a x 2 ^^^ lane a x 3 ^^^ lane a x 4
  let d := (List.range 5).map fun x => col.getD ((x + 4) % 5) 0 ^^^ rot64 (col.getD ((x + 1) % 5) 0) 1
  let t := (List.range 25).map fun i => a.getD i 0 ^^^ d.getD (i % 5) 0
  let r := (List.range 25).map fun i => rot64 (t.getD i 0) (rhoOffsets.getD i 0)
  -- pi: lane (x, y) moves to (y, 2x + 3y); lane (X, Y) of the result comes from (X + 3Y, X)
  let b := (List.range 25).map fun i => lane r (i % 5 + 3 * (i / 5)) (i % 5)
  let c := (List.range 25).map fun i =>
    lane b (i % 5) (i / 5) ^^^ (~~~(lane b (i % 5 + 1) (i / 5)) &&& lane b (i % 5 + 2) (i / 5))
  setAt c 0 (c.getD 0 0 ^^^ rc)

/-- The permutation: 24 rounds. -/
def keccak (a : List (BitVec 64)) : List (BitVec 64) := roundConsts.foldl keccakRound a

/-- The message with the domain bits 01 and the padding of SHA-3, at a rate of 136 bytes. -/
def sha3Pad (m : List Byte) : List Byte :=
  let k := 136 - m.length % 136
  if k = 1 then m ++ [0x86] else m ++ 0x06 :: List.replicate (k - 2) 0 ++ [0x80]

/-- Absorb the padded message block by block. -/
def absorb : Nat → List (BitVec 64) → List Byte → List (BitVec 64)
  | 0, a, _ => a
  | n + 1, a, m =>
    let blk := m.take 136
    let a1 := (List.range 25).map fun i =>
      if i < 17 then a.getD i 0 ^^^ BitVec.ofNat 64 (leNat ((blk.drop (8 * i)).take 8)) else a.getD i 0
    absorb n (keccak a1) (m.drop 136)

/-- SHA3-256 of a message, as 32 bytes, little-endian in one number (R7, R503). -/
def sha3 (m : List Byte) : BitVec 256 :=
  let p := sha3Pad m
  let a := absorb (p.length / 136) (List.replicate 25 0) p
  BitVec.ofNat 256 (leNat (((a.take 4).map fun v => leBytes 8 v.toNat).flatten))

/-- The 32 bytes of a digest. -/
def digestBytes (d : BitVec 256) : List Byte := leBytes 32 d.toNat

end Sys2Proof.Machine
end

