-- ==== Sys2Proof/Machine/Link.lean ====
section
/-! DEFINITION. Links (chapters 14, 15): training and width, frames, credits, replay, routes, the pointing pass'
view of a link, and what a link that goes DOWN loses. Link 32 is the Couch link. A run carries one packet in one
frame as far as the retry buffer goes (DESIGN CHOICE, log 17). -/

namespace Sys2Proof.Machine

def Fc.couchDown : Nat := 0x170
def Fc.vatRebuild : Nat := 0x160

/-- This device (R405): slot, pod and identifier. -/
def mySlot (s : State) : Nat := fld s.mod.straps.toNat 2 4
def myPod (s : State) : Nat := s.rfld Reg.chnCtrl 0 10
def myDev (s : State) : Nat := myPod s * 16 + mySlot s

/-! Flags and counters of a link -/

/-- Set a sticky flag of a link, by its CHN_LINK_FLAGSn bit (R424, R445): the Couch link has bits 0 to 4 at the same
places, LOST_PACKETS at bit 8, and none of the others. -/
def linkFlag (s : State) (l b : Nat) : State :=
  if l = 32 then
    if b ≤ 4 then s.ror Reg.cchStatus (2 ^ b) else if b = 9 then s.ror Reg.cchStatus 0x100 else s
  else s.ror (Reg.chnLinkFlags l) (2 ^ b)

def linkCorr (l : Nat) : Nat := if l = 32 then Reg.cchCorr else Reg.chnCorr l
def linkUncorr (l : Nat) : Nat := if l = 32 then Reg.cchUncorr else Reg.chnUncorr l
def linkRetry (l : Nat) : Nat := if l = 32 then Reg.cchRetry else Reg.chnRetry l

/-! Lane groups and width (R402, R425, R426) -/

/-- The lane groups a link offers: four, or on the Couch link eight or four by the COUCH_LANES strap. -/
def offered (s : State) (l : Nat) : Nat :=
  if l = 32 then (if bit s.mod.straps.toNat 8 then 0xFF else 0x0F) else 0x0F

/-- The groups used, of those usable. -/
def useGroups (l usable : Nat) : Nat :=
  let gs := bitsOf 8 usable
  let n := if l = 32 ∧ gs.length = 8 then 8 else if 4 ≤ gs.length then 4 else if 2 ≤ gs.length then 2 else gs.length
  -- a chain link has four groups, so three usable ones give two
  (gs.take n).foldl (fun m g => m + 2 ^ g) 0

/-- Width code of a set of groups in use: 0 none, 1 for 4 lanes, 2 for 8, 3 for 16, 4 for 32. -/
def widthCode (groups : Nat) : Nat :=
  match popCount 8 groups with
  | 0 => 0
  | 1 => 1
  | 2 => 2
  | 4 => 3
  | _ => 4

/-- UP at the full width offered, DEGRADED below it (R401, R441). -/
def upState (s : State) (l groups : Nat) : LinkSt :=
  if popCount 8 groups = popCount 8 (offered s l) then .up else .degraded

/-- The link carries packets. -/
def Link.isUp (L : Link) : Bool := L.st = .up || L.st = .degraded

/-- Flits of receive buffer per virtual channel (R397, R427). -/
def bufFlits (l : Nat) : VcCount :=
  if l = 32 then { req := 1024, rsp := 1024, exp := 256 } else { req := 512, rsp := 1024, exp := 512 }

/-! What the device expects of its links (R534, R535) -/

/-- The LINK entry of link n, and its fields. -/
def topoEntry (s : State) (n : Nat) : Nat := leNat ((s.wmk.topo.drop (16 + 4 * n)).take 4)
def topoKind (e : Nat) : Nat := fld e 21 2

/-- A link's peer and width match its entry. -/
def linkMatches (s : State) (n : Nat) : Bool :=
  let e := topoEntry s n
  let L := s.link n
  let wide := decide (fld e 19 2 ≤ widthCode L.groups.toNat)
  match topoKind e with
  | 0 => true
  | 1 => L.peerDev.toNat == fld e 0 14 && L.peerLink.toNat == fld e 14 5 && wide
  | _ => wide

/-- A topology mismatch is set, and its ring entry made or folded (R536, R538). -/
def topoMismatch (s : State) : State :=
  let s1 := s.rput Reg.plnReady 4 true
  ringAdd s1 { kind := 0x37, cls := .event, unitType := 0, unit := 0,
               detail := detailOf [(28, 4, s1.rnat Reg.plnTopoLinks), (32, 2, s1.rnat Reg.plnTopoChecks % 65536)] }

/-- Record whether a link agrees (R536, R538). -/
def topoLink (s : State) (n : Nat) (ok : Bool) : State := s.rput Reg.plnTopoLinks n ok

/-- Bring-up is over: the device is chain-ready, or has been context-ready (R401, R538). -/
def afterBringUp (s : State) : Bool := s.rbit Reg.plnReady 2 || s.rfld Reg.plnBootPhase 0 4 == 7

/-! Sending (R393, R397, R399, R416) -/

/-- Data flits of a packet after its header flit (R395). -/
def dataFlits (n : Nat) : Nat := if n ≤ 208 then 0 else ceilDiv n 256

/-- The virtual channel of a chain packet: 0 REQ, 1 RSP, 2 EXP (R395). -/
def chnVc (p : ChnPkt) : Nat := if p.typ = 3 then 2 else if 8 ≤ p.typ.toNat then 1 else 0

def VcCount.at_ (v : VcCount) (c : Nat) : Nat := if c = 0 then v.req else if c = 1 then v.rsp else v.exp
def VcCount.add (v : VcCount) (c n : Nat) : VcCount :=
  if c = 0 then { v with req := v.req + n } else if c = 1 then { v with rsp := v.rsp + n } else { v with exp := v.exp + n }
def VcCount.sub (v : VcCount) (c n : Nat) : VcCount :=
  if c = 0 then { v with req := v.req - n } else if c = 1 then { v with rsp := v.rsp - n } else { v with exp := v.exp - n }

/-- The link may start this packet now: UP or DEGRADED, credits for every flit, room in the retry buffer, and no
packet before it still held. -/
def canSend (L : Link) (p : ChnPkt) : Bool :=
  L.isUp && decide (1 + dataFlits p.data.length ≤ L.credits.at_ (chnVc p)) && decide (L.retry.length < 512)

/-- Put a packet on a link. -/
def putPacket (s : State) (n : Nat) (p : ChnPkt) : State :=
  let s1 := s.modLink n fun L => { L with
    credits := L.credits.sub (chnVc p) (1 + dataFlits p.data.length)
    retry := L.retry ++ [{ fseq := L.txNext, chn := [p], cch := [] }]
    txNext := L.txNext + 1
    gcmTx := if L.enc then L.gcmTx + 1 else L.gcmTx }
  { s1 with out := { s1.out with chn := s1.out.chn ++ [(n, p)] } }

/-- Send on a link, or hold the packet there (R397, R407) (DESIGN CHOICE, log 72). -/
def sendOn (s : State) (n : Nat) (p : ChnPkt) : State :=
  let L := s.link n
  if L.held.isEmpty && canSend L p then putPacket s n p
  else s.modLink n fun L => { L with held := L.held ++ [p], waitAck := L.waitAck || !L.isUp }

/-- A packet with its header fields. -/
def mkChn (s : State) (typ dst tag addr len : Nat) : ChnPkt :=
  { typ := BitVec.ofNat 4 typ, src := BitVec.ofNat 14 (myDev s), dst := BitVec.ofNat 14 dst,
    tag := BitVec.ofNat 16 tag, addr := BitVec.ofNat 48 addr, len := BitVec.ofNat 13 len, reason := 0,
    expert := 0, poison := 0, data := [] }

/-- A MSG packet on a link, before or after acceptance: the messages of a key exchange pass on a HELD link (R521)
(DESIGN CHOICE, log 35). -/
def sendMsg (s : State) (n dst code : Nat) (data : List Byte) : State :=
  let p := { mkChn s 2 dst 0 code data.length with data := data }
  { s with out := { s.out with chn := s.out.chn ++ [(n, p)] } }

/-! Routes (R405 to R407) -/

/-- Link r of the pair to a slot of the pod (R406). -/
def pairRank (here slot : Nat) : Nat := (slot + 16 - here + 15) % 16

/-- The link a packet takes, and the other one of its pair (R407). -/
def route (s : State) (p : ChnPkt) : Nat × Nat :=
  let d := p.dst.toNat
  if d / 16 ≠ myPod s then (if d % 2 = 0 then (15, 31) else (31, 15))
  else
    let r := pairRank (mySlot s) (d % 16)
    let odd := match p.typ.toNat with
      | 0 | 1 => decide (p.addr.toNat / 4096 % 2 = 1)
      | 3 => decide (p.expert.toNat % 2 = 1)
      | _ => false
    if odd then (r + 16, r) else (r, r + 16)

/-- The link can take the packet, now or after its retrain or drain (R407). -/
def takesPackets (L : Link) : Bool := L.isUp || L.st = .retrain || L.st = .draining

/-- The link for a packet: the chosen one, or the other when the chosen one is OFF, DOWN, HELD or in training
(R407); none when neither can take it, or when the packet names this device. Behind packets that wait on a link for the
other one a packet waits too, so that it overtakes none (R408). -/
def pickLink (s : State) (p : ChnPkt) : Option Nat :=
  let (a, b) := route s p
  if p.dst.toNat = myDev s then none
  else if takesPackets (s.link a) || (!(s.link a).held.isEmpty && takesPackets (s.link b)) then some a
  else if takesPackets (s.link b) then some b
  else none

/-! Remote transfers (R395, R410) -/

/-- The transfer of a descriptor fails with DMV_REMOTE at its source, unless that has been discarded (R404, R410). -/
def failXfer (s : State) (x : Xfer) : State :=
  let s1 : State := { s with chain := { s.chain with
    xfers := s.chain.xfers.filter fun y => !(y.core == x.core && y.desc == x.desc) } }
  if (s.core x.core).inflight.any (·.id == x.desc) then coreFault (s1.radd Reg.chnRemoteFail 1) x.core Fc.dmvRemote 0
  else s1

/-- Send a request packet of a transfer; without a link the transfer fails (R410). -/
def sendRequest (s : State) (p : ChnPkt) (x : Xfer) : State :=
  let t := s.chain.nextTag
  let q := { p with tag := t }
  match pickLink s q with
  | none => (failXfer s x).ror Reg.chnStatus 0x40
  | some n =>
    sendOn { s with chain := { s.chain with
      xfers := s.chain.xfers ++ [{ x with tag := t, link := n }], nextTag := t + 1 } } n q

/-! Losing a link (R404, R442, R538) -/

/-- A failure of import: the page keeps its previous state, and every context stalled on it faults (R312). -/
def importFails (s : State) (p : Nat) : State :=
  let e := s.page p
  let slot := e.other
  let s1 := unbind s e.frame.toNat
  let s2 := (s1.modPage p fun e => { e with
    st := .exported, frame := BitVec.ofNat 20 slot, other := 0, bad := false, waiters := [] }).ror Reg.vatStatus 8
  let s3 := e.waiters.foldl (fun s x => faultCtx s x Fc.vatRebuild none 0) s2
  ringAdd s3 { kind := 0x46, cls := .event, unitType := 13, unit := e.owner.toNat, ctx := e.owner.toNat,
               detail := detailOf [(28, 4, p)] }

/-- The context of a request to the companion. -/
def useCtx : CchUse → Nat
  | .dmv x _ _ _ _ => x
  | .dmvWrite x _ _ => x
  | .posted x => x
  | _ => 0

/-- An export that cannot go on returns its page to LIVE and frees its swap slot (R442) (DEDUCED, log 51). -/
def exportFails (s : State) (page : Nat) : State :=
  let slot := (s.page page).other
  settle { s with vat := { s.vat with
    map := s.vat.map.mod page fun e => { e with st := .live, other := 0 }
    swap := s.vat.swap.set slot 0
    swapPoison := s.vat.swapPoison.set slot 0 } } page

/-- What the loss of the Couch link does (R442). -/
def couchLost (s : State) : State :=
  let reqs := s.couch.reqs
  let s0 : State := { s with couch := { s.couch with cache := [], dir := ⟨[]⟩, snoops := [], reqs := [] } }
  -- responses that waited for a copy of the companion are written now
  let s1 := (List.range 256).foldl (fun s m => flushOutbox 64 s m) s0
  let s2 := reqs.foldl (fun s r =>
    match r.use with
    | .vatExport p => exportFails s p
    | .vatImport p _ => importFails s p
    | _ => s) s1
  let xs := reqs.foldl (fun l r => if useCtx r.use = 0 then l else insNat (useCtx r.use) l) []
  xs.foldl (fun s x => faultCtx s x Fc.couchDown none 0) s2

/-- A link goes DOWN from RETRAIN or on a tag mismatch: unacknowledged frames are discarded, and the transfers that
had a packet among them fail (R404, R416, R442). -/
def linkDown (s : State) (l : Nat) : State :=
  let L := s.link l
  let tags := (L.retry.map fun f => f.chn.filterMap fun p => if p.typ.toNat < 2 ∨ p.typ = 3 then some p.tag else none).flatten
  let lostX := s.chain.xfers.filter fun x => x.link == l && tags.contains x.tag
  let lost := if l = 32 then !s.couch.reqs.isEmpty else decide (lostX ≠ [])
  let s1 := linkFlag (s.modLink l fun L => { L with st := .down, retry := [], accepted := false }) l 4
  let s2 := if lost then linkFlag s1 l 9 else s1
  if l = 32 then
    ringAdd (couchLost (s2.ror Reg.plnAlertCause 8))
      { kind := 0x35, cls := .permanent, unitType := 0, unit := 0, detail := detailOf [(28, 1, b2n lost)],
        interrupting := lost }
  else
    let s3 := lostX.foldl (fun s x => if s.chain.xfers.any (fun y => y.tag = x.tag) then failXfer s x else s) s2
    let s4 := ringAdd s3
      { kind := 0x32, cls := .permanent, unitType := 8, unit := l, detail := detailOf [(28, 1, b2n lost)],
        interrupting := lost && (L.retired != 0 || L.good = 15) }
    if s4.rbit Reg.plnReady 2 then topoMismatch (topoLink s4 l false) else s4

/-- A link that has found no peer goes DOWN (R401). -/
def trainDown (s : State) (l : Nat) : State :=
  let s1 := linkFlag (s.modLink l fun L => { L with st := .down }) l 4
  if l = 32 then ringAdd (s1.ror Reg.plnAlertCause 8) { kind := 0x35, cls := .permanent, unitType := 0, unit := 0 }
  else
    let s2 := ringAdd s1 { kind := 0x32, cls := .permanent, unitType := 8, unit := l }
    if s2.rbit Reg.plnReady 2 then topoMismatch (topoLink s2 l false) else s2

/-- Lane groups are retired until the next module reset (R400, R581): cause 1 frames, 2 training. -/
def retireGroups (s : State) (l mask cause : Nat) : State :=
  (bitsOf 8 mask).foldl (fun s g =>
    if bit (s.link l).retired.toNat g then s else
    let s1 := linkFlag (s.modLink l fun L => { L with retired := BitVec.ofNat 8 (setFld L.retired.toNat g 1 1) }) l 3
    ringAdd s1 { kind := 0x31, cls := .permanent, unitType := if l = 32 then 10 else 9
                 unit := if l = 32 then g else l * 4 + g, detail := detailOf [(28, 1, cause)], retired := true }) s

/-! Training (R401, R441) -/

/-- Start the training of a link (R401) (DEDUCED, log 73). -/
def startTraining (s : State) (l : Nat) : State :=
  s.modLink l fun L => { (default : Link) with
    st := .detect, retired := L.retired, held := L.held, expHeld := L.expHeld }

/-- DETECT: signal on at least one lane group (R401). -/
def execDetect (l : LinkId) (groups : BitVec 8) (s : State) : Host.Outcome State Fault Refusal :=
  let n := l.val
  let L := s.link n
  let g := groups.toNat &&& offered s n
  if L.st = .detect ∧ g ≠ 0 then
    .next (s.modLink n fun L => { L with st := .equalize, good := BitVec.ofNat 8 g })
  else .next s

/-- DETECT_TIMEOUT: no signal in time; DOWN (R401, R441) (DESIGN CHOICE, log 27). -/
def execDetectTimeout (l : LinkId) (s : State) : Host.Outcome State Fault Refusal :=
  if (s.link l.val).st = .detect then .next (trainDown s l.val) else .next s

/-- EQUALIZE_DONE: equalisation has ended, and the groups that failed are retired (R401). -/
def execEqualizeDone (l : LinkId) (failed : BitVec 8) (s : State) : Host.Outcome State Fault Refusal :=
  let n := l.val
  if (s.link n).st = .equalize then
    .next ((retireGroups s n (failed.toNat &&& offered s n) 2).modLink n fun L => { L with st := .align })
  else .next s

/-- ALIGN_DONE: groups without FEC lock are retired, and the width is chosen; without a usable group the link goes
DOWN (R400 to R402). -/
def execAlignDone (l : LinkId) (locked : BitVec 8) (s : State) : Host.Outcome State Fault Refusal :=
  let n := l.val
  let L := s.link n
  if L.st ≠ .align then .next s else
  let tried := L.good.toNat &&& (255 - L.retired.toNat)
  let s1 := retireGroups s n (tried &&& (255 - locked.toNat)) 2
  let usable := tried &&& locked.toNat
  if usable = 0 then .next (trainDown s1 n)
  else .next (s1.modLink n fun L => { L with
    st := .exchange, good := BitVec.ofNat 8 usable, groups := BitVec.ofNat 8 (useGroups n usable) })

/-! The manager (R417 to R420) -/

/-- The device leaves the manager role: every group it runs is torn down (R420) (DEDUCED, log 73). -/
def demote (s : State) (epoch slot : Nat) : State :=
  let gs := (s.roll.groups.cells.filter fun g => g.2.st ≠ .free).map (·.1)
  let s1 := gs.foldl (fun s g => dropGroup s g 0) s
  let s2 := { s1 with chain := { s1.chain with role := 0 } }.ror Reg.chnStatus 4
  ringAdd s2 { kind := 0x34, cls := .event, unitType := 0, unit := 0,
               detail := detailOf [(28, 2, epoch), (30, 1, slot), (31, 1, 2)] }

/-- A member sees a role, a slot and a manager epoch (R419, R420): it follows the highest epoch, and a manager that
sees a higher one, or another manager of lower slot at its own epoch, demotes itself. -/
def seeManager (s : State) (slot : Nat) (isMgr : Bool) (epoch : Nat) : State :=
  let e := s.chain.epoch.toNat
  if epoch < e then s
  else if e < epoch then
    let s1 := if s.chain.role = 1 then demote s epoch slot else s
    { s1 with chain := { s1.chain with
      epoch := BitVec.ofNat 16 epoch
      mgrSlot := if isMgr then BitVec.ofNat 4 slot else s1.chain.mgrSlot
      mgrValid := isMgr
      mgrBeatAt := s1.now } }
  else if !isMgr then s
  else if s.chain.role = 1 then
    if slot < mySlot s then
      let s1 := demote s epoch slot
      { s1 with chain := { s1.chain with mgrSlot := BitVec.ofNat 4 slot, mgrValid := true, mgrBeatAt := s1.now } }
    else s
  else if !s.chain.mgrValid ∨ slot < s.chain.mgrSlot.toNat then
    { s with chain := { s.chain with mgrSlot := BitVec.ofNat 4 slot, mgrValid := true, mgrBeatAt := s.now } }
  else s

/-- A CTRL flit's role, epoch and heartbeat, as far as it comes from a device of the pod (R396, R418, R420). -/
def seeCtrl (s : State) (f : CtrlFlit) : State :=
  if f.srcDev.toNat / 16 ≠ myPod s then s else
  let slot := f.srcDev.toNat % 16
  let s1 := seeManager s slot (f.role = 1) f.epoch.toNat
  if f.role = 1 ∧ s1.chain.mgrValid ∧ s1.chain.mgrSlot.toNat = slot ∧ f.heartbeat ≠ s1.chain.mgrBeat then
    { s1 with chain := { s1.chain with mgrBeat := f.heartbeat, mgrBeatAt := s1.now, silent := false } }
  else s1

/-! HELD and what follows (R401, R416, R521) -/

/-- A HELD link that is accepted, whose ends agree on encryption and whose keys are made, carries traffic. -/
def leaveHeld (s : State) (n : Nat) : State :=
  let L := s.link n
  if L.st = .held ∧ L.accepted ∧ !L.encDiffers ∧ (!L.enc ∨ L.key = .done) then
    s.modLink n fun L => { L with st := upState s n L.groups.toNat }
  else s

/-- Start the key exchange of a link that both ends encrypt: this end's certificate goes out (R521). -/
def startKeys (s : State) (n : Nat) : State :=
  let L := s.link n
  if !L.enc ∨ L.encDiffers then s else
  let cert := Config.certAt ((List.range 0x10000).map fun i => s.nv.flash.get (0x1140000 + i)) 0
  let s1 := s.modLink n fun L => { L with key := .certWait, transcript := cert }
  sendMsg s1 n L.peerDev.toNat 18 cert

/-- A link that has trained is taken by the rule for links after bring-up: accepted at once when its peer and width
match its entry, else PEER_CHANGED (R401). -/
def lateLink (s : State) (n : Nat) : State :=
  if !afterBringUp s then s
  else if topoKind (topoEntry s n) ≠ 0 && linkMatches s n then
    leaveHeld (topoLink (s.modLink n fun L => { L with accepted := true }) n true) n
  else linkFlag s n 5

/-- EXCHANGE_DONE: the peer's CTRL flits are recorded (R401, R416, R420, R441) (DEDUCED, log 73). -/
def execExchangeDone (l : LinkId) (peer : CtrlFlit) (s : State) : Host.Outcome State Fault Refusal :=
  let n := l.val
  let L := s.link n
  if L.st ≠ .exchange then .next s else
  let both := L.good.toNat &&& peer.groups.toNat
  if both = 0 then .next (trainDown s n) else
  let groups := useGroups n both
  let own := decide (n < 32) && s.rbit (Reg.chnLinkCtl n) 1
  let s1 := s.modLink n fun L => { L with
    groups := BitVec.ofNat 8 groups, good := BitVec.ofNat 8 both
    peerDev := peer.srcDev, peerLink := peer.link, peerRole := peer.role, peerEpoch := peer.epoch
    peerEnc := peer.enc, enc := own && peer.enc, encDiffers := decide (n < 32) && own != peer.enc
    txNext := 0, rxNext := 0, retry := [], nakSent := false, rxHeld := default, owed := default
    credits := { req := peer.creditReq.toNat, rsp := peer.creditRsp.toNat, exp := peer.creditExp.toNat }
    gcmTx := 0, replays := 0, discards := [], key := .none, accepted := false
    oldWidth := widthCode groups }
  if n = 32 then
    let s2 := (s1.rset Reg.cchCompFrames (BitVec.ofNat 32 peer.compFrames.toNat)).rclr Reg.plnAlertCause 8
    .next (s2.modLink n fun L => { L with st := upState s n groups })
  else
    let s2 := s1.modLink n fun L => { L with st := .held }
    let s3 := if (s2.link n).encDiffers then linkFlag s2 n 6 else s2
    -- R420: strapped as manager or standby, it finds a manager with an epoch above zero
    let strap := fld s3.mod.straps.toNat 0 2
    let slot := peer.srcDev.toNat % 16
    let pod := peer.srcDev.toNat / 16 == myPod s3
    let s4 := if pod ∧ peer.role = 1 ∧ peer.epoch ≠ 0 ∧ (strap = 1 ∨ strap = 2) ∧ s3.chain.epoch < peer.epoch then
        let s3 := if s3.chain.role = 1 then demote s3 peer.epoch.toNat slot else s3
        { s3 with chain := { s3.chain with role := 2, epoch := peer.epoch, mgrValid := true
                                           mgrSlot := BitVec.ofNat 4 slot, mgrBeatAt := s3.now } }
      else seeCtrl s3 peer
    .next (lateLink (startKeys s4 n) n)

/-! Retrain and drain (R400, R401, R404, R421) -/

/-- Enter RETRAIN (R401). -/
def startRetrain (s : State) (l : Nat) : State :=
  let s1 := linkFlag (s.modLink l fun L => { L with st := .retrain, oldWidth := widthCode L.groups.toNat }) l 2
  if l = 32 then s1 else s1.radd (Reg.chnRetrain l) 1

/-- Uncorrectable codewords of a lane group in the last millisecond (R400). -/
def groupErrs (L : Link) (g : Nat) : Nat := (L.discards.flatMap (·.2)).count g

/-- The lane group in use with the most uncorrectable codewords (R400). -/
def worstGroup (L : Link) : Option Nat :=
  (bitsOf 8 L.groups.toNat).foldl (fun best g =>
    match best with
    | some b => if groupErrs L b < groupErrs L g then some g else best
    | none => some g) none

/-- LINK_PERMANENT_ERROR: eight replays of one frame without acceptance, or 64 frames discarded within 1 ms: retrain,
and the worst lane group is retired (R400, R401). -/
def execLinkPermanentError (l : LinkId) (s : State) : Host.Outcome State Fault Refusal :=
  let n := l.val
  let L := s.link n
  if L.isUp ∧ (8 ≤ L.replays ∨ 64 ≤ L.discards.length) then
    let s1 := match worstGroup L with
      | some g => retireGroups s n (2 ^ g) 1
      | none => s
    .next ((startRetrain s1 n).modLink n fun L => { L with replays := 0, discards := [] })
  else .next s

/-- RETRAIN_DONE: retrained with the same peer and a group left, the link carries traffic again; a different peer
takes it DOWN (R401, R404). -/
def execRetrainDone (l : LinkId) (groups : BitVec 8) (peer : CtrlFlit) (s : State) : Host.Outcome State Fault Refusal :=
  let n := l.val
  let L := s.link n
  if L.st ≠ .retrain then .next s else
  let usable := groups.toNat &&& offered s n &&& (255 - L.retired.toNat) &&& peer.groups.toNat
  let same := decide (n = 32) || (L.peerDev = peer.srcDev && L.peerLink = peer.link)
  if usable = 0 ∨ !same then .next (linkDown s n) else
  let g := useGroups n usable
  let w := widthCode g
  let s1 := s.modLink n fun L => { L with
    groups := BitVec.ofNat 8 g, good := BitVec.ofNat 8 usable
    st := if L.disableRec then .draining else upState s n g, disableRec := false
    replays := if L.retry.isEmpty then L.replays else L.replays + 1 }
  let s2 := if L.retry.isEmpty then s1 else linkFlag (s1.radd (linkRetry n) 1) n 1
  if n = 32 then .next s2 else
  let s3 := ringAdd s2 { kind := 0x30, cls := .transient, unitType := 8, unit := n,
                         detail := detailOf [(28, 1, L.oldWidth), (29, 1, w)] }
  let s4 := if w ≠ L.oldWidth then linkFlag s3 n 10 else s3
  .next (if w < L.oldWidth ∧ s4.rbit Reg.plnReady 2 then topoMismatch (topoLink s4 n (linkMatches s4 n)) else s4)

/-- RETRAIN_TIMEOUT: not retrained within 500 ms; DOWN (R401, R404) (DESIGN CHOICE, log 27). -/
def execRetrainTimeout (l : LinkId) (s : State) : Host.Outcome State Fault Refusal :=
  if (s.link l.val).st = .retrain then .next (linkDown s l.val) else .next s

/-- DRAIN_COMPLETE: the retry buffer of a DRAINING link is empty; OFF, and a recorded enable trains it (R401). -/
def execDrainComplete (l : LinkId) (s : State) : Host.Outcome State Fault Refusal :=
  let n := l.val
  let L := s.link n
  if L.st = .draining ∧ L.retry.isEmpty then
    let s1 := s.modLink n fun L => { (default : Link) with
      st := .off, retired := L.retired, held := L.held, expHeld := L.expHeld }
    .next (if L.enableRec then startTraining s1 n else s1)
  else .next s

/-- DOWN_RETRY: a DOWN link trains again after 1 s, a chain link only with BG_TRAIN_EN set (R401, R441). -/
def execDownRetry (l : LinkId) (s : State) : Host.Outcome State Fault Refusal :=
  let n := l.val
  if (s.link n).st = .down ∧ (n = 32 ∨ s.rbit Reg.chnCtrl 10) then
    .next (startTraining s n)
  else .next s

/-- Enable a link (R401); true: recorded, answered PENDING_ENABLE. -/
def enableLink (s : State) (n : Nat) : State × Bool :=
  let s0 := s.rput (Reg.chnLinkCtl n) 0 true
  match (s.link n).st with
  | .off => (startTraining s0 n, false)
  | .draining => (s0.modLink n fun L => { L with enableRec := true }, true)
  | .retrain => (s0.modLink n fun L => { L with disableRec := false }, false)
  | _ => (s0, false)

/-- Disable a link (R401, R421) (DEDUCED, log 73). -/
def disableLink (s : State) (n : Nat) : State :=
  let s0 := s.rput (Reg.chnLinkCtl n) 0 false
  match (s.link n).st with
  | .up | .degraded => s0.modLink n fun L => { L with st := .draining, enableRec := false }
  | .retrain => s0.modLink n fun L => { L with disableRec := true }
  | .draining => s0.modLink n fun L => { L with enableRec := false }
  | _ => s0

/-- CHN_LINK_ENABLE_SET (R401). -/
def execChnLinkEnableSet (n : ChainId) (s : State) : Host.Outcome State Fault Refusal := .next (enableLink s n.val).1

/-- CHN_LINK_ENABLE_CLEAR (R401). -/
def execChnLinkEnableClear (n : ChainId) (s : State) : Host.Outcome State Fault Refusal := .next (disableLink s n.val)

/-! Frames (R392, R397, R399, R400) -/

/-- The lane group that carried codeword `c` of a frame (R391, R426). -/
def codewordGroup (l : Nat) (L : Link) (fseq c : Nat) : Nat :=
  let gs := bitsOf 8 L.groups.toNat
  if l = 32 ∧ gs.length = 8 then 4 * (fseq % 2) + c else gs.getD (c % max 1 gs.length) 0

/-- Frames up to the one acknowledged leave the retry buffer (R399). -/
def ackFrames (l : List TxFrame) (ack : BitVec 12) : List TxFrame :=
  match firstIdx (fun f => f.fseq = ack) l with
  | some i => l.drop (i + 1)
  | none => l

/-- Replay the unacknowledged frames (R399). -/
def replay (s : State) (l : Nat) : State :=
  linkFlag ((s.modLink l fun L => { L with replays := L.replays + 1 }).radd (linkRetry l) 1) l 1

/-- A discarded frame: counted, and a NAK is due (R399, R400). -/
def discardFrame (s : State) (l : Nat) (f : Frame) : State :=
  let bad := (List.range 4).filter (bit f.failed.toNat)
  (s.modLink l fun L => { L with
    nakSent := true
    discards := (L.discards.filter fun d => decide (s.now < d.1 + 1000000)) ++
      [(s.now, bad.map (codewordGroup l L f.fseq.toNat))] }).radd (linkUncorr l) 1

/-- Flits of a kind in a frame: KIND codes 1 REQ, 2 RSP, 3 EXP or SNP (R392). -/
def flitsOf (f : Frame) (k : Nat) : Nat := ((List.range 10).filter fun i => fld f.kinds.toNat (2 * i) 2 == k).length

/-- The flits exceed what the credits given allow (R397). -/
def overCredit (l : Nat) (h : VcCount) : Bool :=
  decide ((bufFlits l).req < h.req) || decide ((bufFlits l).rsp < h.rsp) || decide ((bufFlits l).exp < h.exp)

/-- The link passes frames. -/
def passesFrames (L : Link) : Bool := L.isUp || L.st = .held || L.st = .draining

/-- FRAME_RECEIVE: a frame is accepted or discarded, acknowledgements and a NAK take effect, and its CTRL flits are
read (R392, R397, R399, R400, R416, R420). -/
def execFrameReceive (l : LinkId) (frame : Frame) (s : State) : Host.Outcome State Fault Refusal :=
  if !(decide (frame.ctrl.length ≤ 10)) then .fault .illFormed else
  let n := l.val
  let L := s.link n
  if !passesFrames L then .next s else
  let s0 := if frame.corrected = 0 then s
    else linkFlag (s.radd (linkCorr n) (popCount 4 frame.corrected.toNat)) n 0
  if frame.failed ≠ 0 ∨ !frame.crcOk ∨ frame.fseq ≠ L.rxNext then .next (discardFrame s0 n frame)
  else if n < 32 ∧ L.enc ∧ !frame.tagOk then
    .next (linkDown (ringAdd (linkFlag s0 n 7) { kind := 0x33, cls := .permanent, unitType := 8, unit := n }) n)
  else
    let left := ackFrames L.retry frame.ack
    let add (v : VcCount) (f : CtrlFlit) : VcCount :=
      { req := v.req + f.creditReq.toNat, rsp := v.rsp + f.creditRsp.toNat, exp := v.exp + f.creditExp.toNat }
    let rx : VcCount := { req := L.rxHeld.req + flitsOf frame 1, rsp := L.rxHeld.rsp + flitsOf frame 2
                          exp := L.rxHeld.exp + flitsOf frame 3 }
    let s1 := s0.modLink n fun L => { L with
      rxNext := L.rxNext + 1, nakSent := false, retry := left
      replays := if left.length < L.retry.length then 0 else L.replays
      credits := frame.ctrl.foldl add L.credits
      rxHeld := if overCredit n rx then L.rxHeld else rx }
    let s2 := if n < 32 then frame.ctrl.foldl seeCtrl s1 else s1
    let s3 := if frame.nak && !left.isEmpty then replay s2 n else s2
    .next (if overCredit n rx then
        let s4 := linkFlag s3 n 8
        if (s4.link n).isUp then startRetrain s4 n else s4
      else s3)

/-- REPLAY_TIMEOUT: ACK has not advanced for 4 µs with frames outstanding (R399) (DESIGN CHOICE, log 27). -/
def execReplayTimeout (l : LinkId) (s : State) : Host.Outcome State Fault Refusal :=
  let L := s.link l.val
  if passesFrames L ∧ !L.retry.isEmpty then .next (replay s l.val) else .next s

/-- The CTRL flit that a link sends (R396, R427): identity, role, epoch, heartbeat, credits, groups. -/
def ctrlFlit (s : State) (l : Nat) (credit : VcCount) : CtrlFlit :=
  { srcDev := if l = 32 then 0 else BitVec.ofNat 14 (myDev s), role := if l = 32 then 0 else s.chain.role
    link := if l = 32 then 0 else BitVec.ofNat 5 l, epoch := if l = 32 then 0 else s.chain.epoch
    heartbeat := if l = 32 then 0 else s.chain.heartbeat
    creditReq := BitVec.ofNat 11 credit.req, creditRsp := BitVec.ofNat 11 credit.rsp
    creditExp := BitVec.ofNat 11 credit.exp, groups := (s.link l).good
    enc := decide (l < 32) && s.rbit (Reg.chnLinkCtl l) 1, compFrames := 0 }

/-- CTRL_FLIT_SEND: waiting credits are returned and the other fields told (R396, R397); in EXCHANGE the buffer sizes are
announced. -/
def execCtrlFlitSend (l : LinkId) (s : State) : Host.Outcome State Fault Refusal :=
  let n := l.val
  let L := s.link n
  if L.st = .exchange then
    .next { s with out := { s.out with ctrl := s.out.ctrl ++ [(n, ctrlFlit s n (bufFlits n))] } }
  else if passesFrames L then
    let give : VcCount := { req := min L.owed.req 2047, rsp := min L.owed.rsp 2047, exp := min L.owed.exp 2047 }
    let s1 := s.modLink n fun L => { L with
      owed := { req := L.owed.req - give.req, rsp := L.owed.rsp - give.rsp, exp := L.owed.exp - give.exp } }
    .next { s1 with out := { s1.out with ctrl := s1.out.ctrl ++ [(n, ctrlFlit s n give)] } }
  else .next s

/-- The transfer a request packet belongs to. -/
def xferOf (s : State) (p : ChnPkt) : Option Xfer := s.chain.xfers.find? fun x => x.tag = p.tag

/-- HELD_PACKET_ROUTE: the oldest packet held on a link goes out (R407): on its link once that is UP or DEGRADED and, after
a retrain or drain, every frame it holds has been acknowledged, else on the other of the pair; with no link left its transfer fails. -/
def execHeldPacketRoute (n : ChainId) (s : State) : Host.Outcome State Fault Refusal :=
  let k := n.val
  let L := s.link k
  match L.held with
  | [] => .next s
  | p :: rest =>
    let s1 := s.modLink k fun L => { L with held := rest, waitAck := if L.isUp then false else L.waitAck && !rest.isEmpty }
    if L.isUp then
      if (!L.waitAck || L.retry.isEmpty) && canSend L p then .next (putPacket s1 k p) else .next s
    else if L.st = .retrain ∨ L.st = .draining then .next s
    else
      let other := (k + 16) % 32
      if takesPackets (s1.link other) then
        .next (sendOn { s1 with chain := { s1.chain with
          xfers := s1.chain.xfers.map fun x => if x.tag = p.tag ∧ p.typ.toNat < 8 then { x with link := other } else x } } other p)
      else if 8 ≤ p.typ.toNat ∨ p.typ = 2 then .next (s1.ror Reg.chnStatus 0x40)
      else
        match xferOf s1 p with
        | some x => .next ((failXfer s1 x).ror Reg.chnStatus 0x40)
        | none => .next (s1.ror Reg.chnStatus 0x40)

/-- Every link enters RETRAIN (R554). -/
def refclkLinks (s : State) : State :=
  (List.range 33).foldl (fun s l => if (s.link l).isUp then startRetrain s l else s) s

/-- REFCLK_SERDES_LOST: the links retrain; the flag and the alert cause that names R554 are set (R554, R557). -/
def execRefclkSerdesLost (s : State) : Host.Outcome State Fault Refusal :=
  .next (sensorEvents (ringAdd (refclkLinks ((s.ror Reg.clkStatus 1).ror Reg.plnAlertCause 4))
    { kind := 0x41, cls := .permanent, unitType := 0, unit := 0 }))

end Sys2Proof.Machine
end

