-- ==== Sys2Proof/Machine/Dmv.lean ====
section
/-! DEFINITION. Data movement: the DMV descriptors MOVE, FILL and LCOPY (R155, R184, R189, R196, R197, R414), and the
landing of what they send to scratchpads (R148). -/

namespace Sys2Proof.Machine

/-! Fields of a DMV descriptor (R196) -/
def dTranspose (w : Nat) : Bool := bit w 67
def dMcast (w : Nat) : Bool := bit w 68
def dCommit (w : Nat) : Bool := bit w 69
def dSrcMode (w : Nat) : Nat := fld w 72 2
def dDstMode (w : Nat) : Nat := fld w 74 2
def dEsize (w : Nat) : Nat := fld w 76 2
def dDev (w : Nat) : Nat := fld w 80 14
def dSrc (w : Nat) : Nat := fld w 128 48
def dDst (w : Nat) : Nat := fld w 192 48
def dSrcStride (w : Nat) : Nat := fld w 256 32
def dDstStride (w : Nat) : Nat := fld w 288 32
def dRows (w : Nat) : Nat := fld w 320 16
def dRowBytes (w : Nat) : Nat := fld w 352 24
def dMask (w : Nat) : Nat := fld w 384 32
def dPattern (w : Nat) : Nat := fld w 416 32

/-- ROWS or ROW_BYTES is zero: nothing but the slot handshakes (R197). -/
def dNoop (w : Nat) : Bool := dRows w == 0 || dRowBytes w == 0

/-- A byte on its way, with the origin of its poison, 0 for none (R143, R588). -/
abbrev Mark := Byte × Nat

/-- The first poison in a list of bytes. -/
def firstMark (l : List Mark) : Nat := l.foldl (fun p b => if p = 0 then b.2 else p) 0

/-- Cut a range at the multiples of `m`: addresses and lengths. -/
def cutRange (m : Nat) : Nat → Nat → Nat → List (Nat × Nat)
  | 0, _, _ => []
  | k + 1, a, n => if n = 0 then [] else
      let h := min n (m - a % m)
      (a, h) :: cutRange m k (a + h) (n - h)
def pieces (m a n : Nat) : List (Nat × Nat) := cutRange m (n / m + 2) a n

/-! What a MOVE may touch (R75, R172, R197, R439, R480) -/

/-- The quire store bytes hold part of the loaded image or its tables (R172). -/
def inImage (s : State) (q off : Nat) : Bool :=
  s.arm.parts.cells.any fun P => P.2.quires.getLsbD q && P.2.program.any fun g => decide (off < g.bytes)

/-- A unit of quire `q` on chip: it exists and is of the core's partition (R75). -/
def quireChk (s : State) (c q : Nat) : Chk :=
  if !isBacked s q then .fault Fc.addrUnmapped 0
  else Chk.need (bit (s.part (partOf s c)).quires.toNat q) Fc.addrFenced

/-- What a MOVE of core `c` meets at a range that lies in one unit of the address map. -/
def placeChk (s : State) (c : Nat) (wr : Bool) (a n : Nat) : Chk :=
  match region a with
  | .stacked _ =>
    if anyGone s a n then .fault Fc.addrUnmapped 0
    else Chk.need (mayReach s (s.core c).ctx a n (!wr) wr) Fc.addrFenced
  | .qsr q off => (quireChk s c q).both (if wr && inImage s q off then .fault Fc.dmvParam 0 else qsrChk s q off n)
  | .spd d off => (quireChk s c (d / 32)).both (spdChk s d off n)
  | .sts d _ => (quireChk s c (d / 32)).both (.fault Fc.dmvParam 0)
  | .control _ => .fault Fc.addrFenced 0
  | .companion o => Chk.need (decide (o + n ≤ compLimit s)) Fc.addrUnmapped
  | .unmapped => .fault Fc.addrUnmapped 0

/-- What a MOVE meets at a row. -/
def rowChk (s : State) (c : Nat) (wr : Bool) (n a : Nat) : Chk :=
  Chk.all ((pieces 0x20000 a n).map fun p => placeChk s c wr p.1 p.2)

/-! Local reads and writes -/

/-- The bytes of a range within one line, with their poison; the fabric port passes it on (R143). -/
def readPiece (s : State) (a n : Nat) : List Mark :=
  match region a with
  | .spd c off => (spdRead s c off n).map fun b => (b, linePoison s c (off / 64))
  | .stacked _ => (s.rd a n).map fun b => (b, memPoison s a n)
  | _ => (s.rd a n).map fun b => (b, s.poison.get (a / 64))

/-- The bytes of a row. -/
def readRow (s : State) (a n : Nat) : List Mark := (pieces 64 a n).flatMap fun p => readPiece s p.1 p.2

/-- A range of a scratchpad is made of whole lines that carry the rectified tag (R224). -/
def tagged (s : State) (a n : Nat) : Bool :=
  match region a with
  | .spd _ _ => a % 64 == 0 && n % 64 == 0 && (linesOf a n).all fun l => s.rect.get l
  | _ => false

/-- Write a row: to stacked memory block by block, on chip line by line. `tag i k`: the `k` bytes from index `i` come
with the rectified tag. -/
def writeRow (s : State) (a : Nat) (d : List Mark) (tag : Nat → Nat → Bool) (desc : Nat) : State :=
  let m := match region a with | .stacked _ => 4096 | _ => 64
  (pieces m a d.length).foldl (fun s p =>
    let part := (d.drop (p.1 - a)).take p.2
    let bs := part.map (·.1)
    match region p.1 with
    | .stacked _ => calWriteBlock s p.1 bs (firstMark part != 0) (tag (p.1 - a) p.2)
    | .qsr q off => qsrWrite s q off bs (firstMark part)
    | .spd k off => spdWrite s k off bs (firstMark part) false desc
    | _ => s) s

/-! Packets -/

/-- The POISON mask of a packet's data (R394, R428). -/
def maskOf (d : List Mark) : BitVec 64 :=
  BitVec.ofNat 64 ((List.range 64).foldl (fun v i => v + at_ i 1 (b2n (firstMark ((d.drop (64 * i)).take 64) != 0))) 0)

/-- The data of a packet with the poison its mask marks; it arose outside the device. -/
def marksOf (data : List Byte) (mask : BitVec 64) : List Mark :=
  (List.range data.length).map fun i => (data.getD i 0, if mask.getLsbD (i / 64) then 1 else 0)

/-- The packets of a write to companion memory: whole lines as WR within 4 KiB, parts of a line as WR_PARTIAL (R428,
R429). `a` is the companion address. -/
def compPackets : Nat → Nat → List Mark → List CchPkt
  | 0, _, _ => []
  | k + 1, a, d =>
    if d.isEmpty then []
    else if a % 64 ≠ 0 ∨ d.length < 64 then
      let n := min d.length (64 - a % 64)
      { partialPkt a ((d.take n).map (·.1)) with poison := maskOf (d.take n) } :: compPackets k (a + n) (d.drop n)
    else
      let n := min (d.length / 64 * 64) (4096 - a % 4096)
      { mkCch 2 false 0 a n with data := (d.take n).map (·.1), poison := maskOf (d.take n) }
        :: compPackets k (a + n) (d.drop n)

/-- Companion memory as the device knows it after a packet of its own (R430). -/
def compStore (s : State) (a : Nat) (d : List Mark) : State :=
  (pieces 64 a d.length).foldl (fun s p =>
    let part := (d.drop (p.1 - a)).take p.2
    let s1 := s.wr p.1 (part.map (·.1))
    if firstMark part ≠ 0 then s1.setPoison (p.1 / 64) (firstMark part)
    else if p.2 = 64 then s1.setPoison (p.1 / 64) 0 else s1) s

/-! The Vat's side of a ROSTER transfer (R189, R294, R302, R310, R311) -/

/-- Where a row of a ROSTER side lies: a page and an offset in it; or the page it waits for; or its fault. -/
inductive Spot where
  | at_ (page off : Nat)
  | wait (page : Nat)
  | bad (code : Nat)
  deriving DecidableEq, Repr

/-- A page as a transfer finds it. -/
def pageSpot (s : State) (wr : Bool) (p off : Nat) : Spot :=
  let e := s.page p
  if wr && decide (1 < e.count) then .bad Fc.dmvShared
  else match e.st with
    | .live => .at_ p off
    | .moving => if wr then .wait p else .at_ p off
    | .free | .retired => .bad Fc.dmvParam
    | _ => .wait p

/-- Row `r` of a ROSTER side of walker `W`'s descriptor (R189). -/
def rosterSpot (s : State) (c : Nat) (W : Walker) (word : Nat) (wr : Bool) (off r : Nat) : Spot :=
  match nRoster (imNest (coreImg s c) W.nest) with
  | none => .bad Fc.dmvParam
  | some d =>
    let i := (W.tile (hLevel word)).s.getD d 0 + r
    if 8192 ≤ i ∨ 0x200000 < off % 0x200000 + dRowBytes word then .bad Fc.dmvParam else
    let e := s.rdN (qsrAddr (c / 32) (0x3C0000 + 32 * i)) 32
    let list := fld e 96 19
    let k := off / 0x200000
    if k = 4095 ∧ fld e 115 12 ≠ 0 then pageSpot s wr list (off % 0x200000)
    else if k + 2 ≤ fld e 115 12 then
      match pageSpot s false list 0 with
      | .at_ _ _ => pageSpot s wr (listEntry s list k) (off % 0x200000)
      | x => x
    else .bad Fc.dmvParam

/-- The partition that rebuilds a context's pages (R307). -/
def rebuildPart (s : State) (x : Nat) : Option Nat :=
  if (s.ctx x).par.rebuildEn then some (s.ctx x).par.rebuild.toNat else none

/-- Ask for a page that is not LIVE: its rebuild is queued, or its import starts (R308, R310, R311). -/
def fetchPage (s : State) (p : Nat) (dies : List Nat) : State :=
  match (s.page p).st with
  | .dropped =>
    match rebuildPart s (s.page p).owner.toNat with
    | some rp =>
      if (s.vat.queue.get rp).contains p then s
      else { s with vat := { s.vat with queue := s.vat.queue.mod rp (· ++ [p]) } }
    | none => s
  | .exported => startImport s p dies
  | _ => s

/-- A transfer of a core stalls on a page (R311, R312). -/
def stallOn (s : State) (c p : Nat) : State :=
  (fetchPage s p (partDies s (partOf s c))).modPage p fun e =>
    { e with waiters := insNat (s.core c).ctx e.waiters }

/-! A side of a MOVE -/

/-- The rows of a side: a page plus one and an offset, or 0 and an address; or what stops it. -/
inductive Side where
  | rows (l : List (Nat × Nat))
  | wait (pages : List Nat)
  | bad (code : Nat)
  deriving DecidableEq, Repr

/-- Put the spots of a ROSTER side together: a fault first, then the pages it waits for. -/
def gatherSpots (l : List Spot) : Side :=
  match l.find? (fun x => match x with | .bad _ => true | _ => false) with
  | some (.bad code) => .bad code
  | _ =>
    let ws := l.filterMap fun x => match x with | .wait p => some p | _ => none
    if ws.isEmpty then .rows (l.filterMap fun x => match x with | .at_ p off => some (p + 1, off) | _ => none)
    else .wait ws

/-- The rows of a side in a mode, `n` of them. -/
def sideRows (s : State) (c w word : Nat) (wr : Bool) (mode base stride n : Nat) : Side :=
  if mode = 1 then
    match (s.core c).walkers[w]? with
    | some W => gatherSpots ((List.range n).map (rosterSpot s c W word wr base))
    | none => .bad Fc.dmvParam
  else .rows ((List.range n).map fun r => (0, base + r * stride))

/-- The device address of a row. -/
def rowAddr (s : State) (r : Nat × Nat) : Nat :=
  if r.1 = 0 then r.2 else (s.page (r.1 - 1)).frame.toNat * 0x200000 + r.2

/-- Rows as they are written: transposed, element (r, e) of the source is element r of row e (R197)
(DEDUCED, log 33). -/
def destData (word : Nat) (rows : List (List Mark)) : List (List Mark) :=
  if dTranspose word then
    let sz := 2 ^ dEsize word
    (List.range (dRowBytes word / sz)).map fun e => rows.flatMap fun r => (r.drop (e * sz)).take sz
  else rows

/-- Rows of the destination and the bytes in each. -/
def destShape (word : Nat) : Nat × Nat :=
  if dTranspose word then (dRowBytes word / 2 ^ dEsize word, dRows word * 2 ^ dEsize word)
  else (dRows word, dRowBytes word)

/-- The other core's scratchpad that a MOVE produces a slot in (R148). -/
def farSlot (c word : Nat) : Option (Nat × Nat) :=
  match hProd word, region (dDst word) with
  | some k, .spd d _ => if dDstMode word = 0 ∧ !dMcast word ∧ d ≠ c then some (d, k) else none
  | _, _ => none

/-! Delivering (R148, R184, R395, R414) -/

/-- The remote packets of a MOVE's data: WR packets cut at 4 KiB of the remote address, or one EXPD a row. -/
def remotePackets (s : State) (word : Nat) (srcs dsts : List (Nat × Nat)) (rows : List (List Mark)) : List ChnPkt :=
  if bit (dDst word) 47 then
    let x := dDst word % 65536
    let ent := s.rdN (s.rnat Reg.chnExpertBaseLo + 0x100000000 * s.rnat Reg.chnExpertBaseHi + 8 * x) 8
    ((srcs.zip rows)).map fun r =>
      { mkChn s 3 (fld ent 0 14) 0 (rowAddr s r.1) r.2.length with
        expert := BitVec.ofNat 16 x, data := r.2.map (·.1), poison := maskOf r.2 }
  else
    (dsts.zip rows).flatMap fun r => (pieces 4096 r.1.2 r.2.length).map fun p =>
      let part := (r.2.drop (p.1 - r.1.2)).take p.2
      { mkChn s 1 (dDev word) 0 p.1 p.2 with data := part.map (·.1), poison := maskOf part }

/-- Send the data of a MOVE to where it goes; answers the packets and deliveries then outstanding. -/
def deliver (s : State) (c id word : Nat) (srcs dsts : List (Nat × Nat)) (rows : List (List Mark))
    (tag : Nat → Nat → Nat → Bool) : State × Nat :=
  let x := (s.core c).ctx
  if dMcast word then
    (s.modQuire (c / 32) fun q => { q with deliveries := q.deliveries ++ [
      { remote := false, mask := BitVec.ofNat 32 (dMask word), dst := dDst word, stride := dDstStride word
        rowBytes := dRowBytes word, data := rows.flatten, prod := hProd word, leader := c, desc := id }] }, 1)
  else if dDstMode word = 2 then
    (remotePackets s word srcs dsts rows).foldl (fun r p =>
      (sendRequest r.1 p { tag := 0, link := 0, write := true, ctx := x, core := c, desc := id, dest := 0, len := 0 },
        r.2 + 1)) (s, 0)
  else
    match farSlot c word with
    | some (d, k) =>
      (s.modQuire (d / 32) fun q => { q with deliveries := q.deliveries ++ [
        { remote := true, mask := BitVec.ofNat 32 (2 ^ (d % 32)), dst := (dDst word - spdBase) % 0x80000
          stride := dDstStride word, rowBytes := dRowBytes word, data := rows.flatten, prod := some k, leader := c
          desc := id }] }, 1)
    | none =>
      ((List.range rows.length).zip ((dsts.zip rows))).foldl (fun r row =>
        let a := rowAddr r.1 row.2.1
        let d := row.2.2
        match region a with
        | .companion o =>
          (compPackets 70000 o d).foldl (fun r p =>
            (requestCch (dropCached r.1 p.addr.toNat p.len.toNat) p (.dmvWrite x c id), r.2 + 1))
            (compStore r.1 a d, r.2)
        | _ => (writeRow r.1 a d (tag row.1) id, r.2)) (s, 0)

/-- Every packet of the data has a link (R410); an expert's entry is VALID (R414). The flags that go with a failure. -/
def remoteReady (s : State) (word : Nat) (pkts : List ChnPkt) : Option State :=
  let ent := s.rdN (s.rnat Reg.chnExpertBaseLo + 0x100000000 * s.rnat Reg.chnExpertBaseHi + 8 * (dDst word % 65536)) 8
  if dDstMode word = 2 ∧ bit (dDst word) 47 ∧ !bit ent 14 then some ((s.ror Reg.chnStatus 8).radd Reg.chnRemoteFail 1)
  else if pkts.any fun p => (pickLink s p).isNone then some ((s.ror Reg.chnStatus 0x40).radd Reg.chnRemoteFail 1)
  else none

/-- Change an in-flight descriptor. -/
def modInFlight (s : State) (c id : Nat) (f : InFlight → InFlight) : State :=
  s.modCore c fun x => { x with inflight := x.inflight.map fun d => if d.id = id then f d else d }

def flightOf (s : State) (c id : Nat) : Option InFlight := (s.core c).inflight.find? (·.id == id)

/-- The rows of a transfer from its staged bytes. -/
def stagedRows (d : InFlight) : List (List Mark) :=
  let w := d.word.toNat
  (List.range (dRows w)).map fun r => (List.range (dRowBytes w)).map fun i =>
    (d.buf.get (r * dRowBytes w + i), d.marks.get (r * dRowBytes w + i))

/-- Stage bytes of a transfer from index `lin` on. -/
def stage (d : InFlight) (lin : Nat) (bs : List Mark) : InFlight :=
  (bs.zip (List.range bs.length)).foldl (fun d b =>
    { d with buf := d.buf.set (lin + b.2) b.1.1, marks := d.marks.set (lin + b.2) b.1.2 }) d

/-- Banks at the destination still take the data. -/
def landChk (s : State) (word : Nat) (dsts : List (Nat × Nat)) : Chk :=
  if dDstMode word = 2 ∨ dMcast word then .ok else
  Chk.all (dsts.map fun r =>
    let a := rowAddr s r
    match region a with
    | .qsr q off => qsrChk s q off (destShape word).2
    | .spd d off => spdChk s d off (destShape word).2
    | _ => .ok)

/-- A packet of a MOVE's source data has arrived; after the last one the data go on to their destination (R197). -/
def dmvArrived (s : State) (c id lin : Nat) (bs : List Mark) : State :=
  match flightOf s c id with
  | none => s
  | some d0 =>
    let d := { stage d0 lin bs with wait := d0.wait - 1 }
    let s1 := modInFlight s c id fun _ => d
    if d.wait ≠ 0 then s1 else
    let w := d.word.toNat
    let rows := destData w (stagedRows d)
    match landChk s1 w d.dsts with
    | .fault code o => coreFault s1 c code o
    | _ =>
      let pk := if dDstMode w = 2 then remotePackets s1 w [] d.dsts rows else []
      match remoteReady s1 w pk with
      | some s2 => coreFault s2 c Fc.dmvRemote 0
      | none =>
        let (s2, n) := deliver s1 c id w [] d.dsts rows (fun _ _ _ => false)
        modInFlight s2 c id fun d => { d with pending := false, wait := n, buf := ⟨[]⟩, marks := ⟨[]⟩ }

/-- One packet of a transfer's writes has been acknowledged. -/
def dmvAcked (s : State) (c id : Nat) : State := modInFlight s c id fun d => { d with wait := d.wait - 1 }

/-! MOVE (R197) -/

/-- The rules of a MOVE's own fields (R184, R196, R197, R414). -/
def moveParam (c word : Nat) : Bool :=
  dSrcMode word != 3 && dDstMode word != 3 && !(dSrcMode word == 2 && dDstMode word == 2) &&
  (!dMcast word || (dDstMode word == 0 && !dTranspose word && bit (dMask word) (c % 32))) &&
  (!dTranspose word || (dEsize word != 3 && dDstMode word == 0 && decide (dRows word ≤ 256) &&
    decide (dRowBytes word % 2 ^ dEsize word = 0) && decide (dRowBytes word / 2 ^ dEsize word ≤ 256) &&
    (match region (dDst word) with | .spd d _ => d == c | _ => false))) &&
  (!(dDstMode word == 2 && bit (dDst word) 47) || decide (dRowBytes word ≤ 4096))

/-- A COMMIT descriptor belongs to an item of a DRAW nest (R182). -/
def commitOk (s : State) (c w word : Nat) : Bool :=
  !dCommit word ||
  match (s.core c).walkers[w]? with
  | some W => nSplit (imNest (coreImg s c) W.nest) == 2 && W.item.isSome
  | none => false

/-- A COMMIT descriptor is counted toward its item (R182). -/
def openCommit (s : State) (c w word : Nat) : State × Option (Nat × Nat) :=
  match dCommit word, currentItem s c w with
  | true, some i =>
    (s.modCore c fun x => { x with openItems := x.openItems.map fun o =>
      if o.nest = x.nest ∧ o.item = i then { o with left := o.left + 1 } else o }, some ((s.core c).nest, i))
  | _, _ => (s, none)

/-- The lowest position of a MASK (R184). -/
def leaderOf (mask : Nat) : Nat := ((bitsOf 32 mask).head?).getD 0

/-- Ask for a piece of the source that lies outside the device, `lin` its index in the transfer: companion bytes that
the Couch cache holds are there at once (R431) (DEDUCED, log 34). -/
def fetchPiece (s : State) (c id lin : Nat) (remote : Bool) (dev a n : Nat) : State × Option (List Mark) :=
  let x := (s.core c).ctx
  if remote then
    (sendRequest s (mkChn s 0 dev 0 a n)
      { tag := 0, link := 0, write := false, ctx := x, core := c, desc := id, dest := lin, len := n }, none)
  else
    let o := a - compBase
    let lo := o / 64 * 64
    let hi := roundUp (o + n) 64
    let miss := (linesOf o n).filter fun l => !s.couch.cache.contains l
    let at_ (s : State) : State := { s with couch := { s.couch with
      reqs := s.couch.reqs.map fun r => if r.tag + 1 = s.couch.nextTag then { r with addr := o } else r } }
    if !s.rbit Reg.cchCtrl 0 then (requestCch s (mkCch 1 false 0 o n) (.dmv x c id lin n), none)
    else if miss.isEmpty then (s, some (readRow s a n))
    else (at_ (requestCch (s.radd Reg.cchCacheMiss miss.length) (mkCch 0 false 0 lo (hi - lo)) (.dmv x c id lin n)), none)

/-- The source lies outside the device: remote, or companion memory (checked row by row) (DEDUCED, log 33). -/
def srcOutside (s : State) (word : Nat) (rows : List (Nat × Nat)) : Bool :=
  dSrcMode word == 2 || rows.any fun r => match region (rowAddr s r) with | .companion _ => true | _ => false

/-- What the source meets. -/
def srcChk (s : State) (c word : Nat) (rows : List (Nat × Nat)) : Chk :=
  if dSrcMode word ≠ 0 then .ok else Chk.all (rows.map fun r => rowChk s c false (dRowBytes word) r.2)

/-- What the destination meets: the rows, and the slot in another core's scratchpad (R147, R148)
(DEDUCED, log 33). -/
def dstChk (s : State) (c word : Nat) (rows : List (Nat × Nat)) : Chk :=
  if dMcast word then
    Chk.all ((List.range (dRows word)).map fun r => spdChk s c (dDst word + r * dDstStride word) (dRowBytes word))
  else if dDstMode word ≠ 0 then .ok
  else
    (Chk.all (rows.map fun r => rowChk s c true (destShape word).2 r.2)).both
      (match farSlot c word with
      | some (d, k) => Chk.need ((s.core d).slots.get k).defined Fc.slotParam
      | none => .ok)

/-- The Vat pages of a transfer are touched and held against eviction while it runs (R302, R304). -/
def usePages (s : State) (rows : List (Nat × Nat)) : State × List Nat :=
  let ps := rows.foldl (fun l r => if r.1 = 0 then l else insNat (r.1 - 1) l) []
  (ps.foldl (fun s p => (touch s p).modPage p fun e => { e with busy := e.busy + 1 }) s, ps)

/-- The transfer of a MOVE whose checks have passed. -/
def moveRun (s : State) (c w word : Nat) (srcs dsts : List (Nat × Nat)) : Ran :=
  let id := (s.core c).nextId
  let n := dRowBytes word
  let (s0, cm) := openCommit s c w word
  let (s1, ps) := usePages s0 (srcs ++ dsts)
  if srcOutside s1 word srcs then
    let remote := dSrcMode word == 2
    let cut := (List.range srcs.length).zip srcs |>.flatMap fun r =>
      (pieces 4096 (rowAddr s1 r.2) n).map fun p => (r.1 * n + (p.1 - rowAddr s1 r.2), p.1, p.2)
    let lost := if remote then remoteReady s1 0 (cut.map fun p => mkChn s1 0 (dDev word) 0 p.2.1 p.2.2) else none
    match lost with
    | some s2 => .stop s2 Fc.dmvRemote
    | none =>
      let base : InFlight := default
      let (s2, d, k) := cut.foldl (fun (r : State × InFlight × Nat) p =>
        match fetchPiece r.1 c id p.1 remote (dDev word) p.2.1 p.2.2 with
        | (s, some bs) => (s, stage r.2.1 p.1 bs, r.2.2)
        | (s, none) => (s, r.2.1, r.2.2 + 1)) (s1, base, 0)
      if k = 0 then
        let rows := destData word (stagedRows { d with word := BitVec.ofNat 512 word })
        let pk := if dDstMode word = 2 then remotePackets s2 word srcs dsts rows else []
        match remoteReady s2 word pk with
        | some s3 => .stop s3 Fc.dmvRemote
        | none =>
          let (s3, m) := deliver s2 c id word srcs dsts rows (fun _ _ _ => false)
          .done s3 fun x => { x with
            wait := m, commit := cm, pages := ps, dsts := dsts
            prod := if dMcast word then none else x.prod }
      else .done s2 fun x => { x with
        wait := k, pending := true, commit := cm, pages := ps, dsts := dsts, buf := d.buf, marks := d.marks
        prod := if dMcast word then none else x.prod }
  else
    let s2 := srcs.foldl (fun s r => decodeRange s (rowAddr s r) n) s1
    let rows := destData word (srcs.map fun r => readRow s2 (rowAddr s2 r) n)
    let pk := if dDstMode word = 2 then remotePackets s2 word srcs dsts rows else []
    match remoteReady s2 word pk with
    | some s3 => .stop s3 Fc.dmvRemote
    | none =>
      let tag (r i k : Nat) : Bool := !dTranspose word && tagged s2 (rowAddr s2 (srcs.getD r (0, 0)) + i) k
      let (s3, m) := deliver s2 c id word srcs dsts rows tag
      .done s3 fun x => { x with
        wait := m, commit := cm, pages := ps, dsts := dsts, prod := if dMcast word then none else x.prod }

/-- MOVE. -/
def moveBody (c w : Nat) (e : Upset) (s0 : State) (word : Nat) : Ran :=
  let s := upset s0 e
  if !commitOk s c w word then .fault Fc.dmvParam 0
  else if dNoop word then
    let (s1, cm) := openCommit s c w word
    .done s1 fun x => { x with commit := cm }
  else if !moveParam c word then .fault Fc.dmvParam 0
  else if dMcast word ∧ leaderOf (dMask word) ≠ c % 32 then
    (dstChk s c word []).run s fun _ =>
      let (s1, cm) := openCommit s c w word
      .done s1 fun x => { x with pending := true, commit := cm, prod := none }
  else
    let srcs := sideRows s c w word false (dSrcMode word) (dSrc word) (dSrcStride word) (dRows word)
    let dsts := sideRows s c w word true (dDstMode word) (dDst word) (dDstStride word) (destShape word).1
    match srcs, dsts with
    | .bad code, _ => .fault code 0
    | _, .bad code => .fault code 0
    | .wait ps, .wait qs => .wait ((ps ++ qs).foldl (fun s p => stallOn s c p) s)
    | .wait ps, _ => .wait (ps.foldl (fun s p => stallOn s c p) s)
    | _, .wait qs => .wait (qs.foldl (fun s p => stallOn s c p) s)
    | .rows a, .rows b => ((srcChk s c word a).both (dstChk s c word b)).run s fun _ => moveRun s c w word a b

/-- MOVE (R197). -/
def execMove (c : CoreId) (w : WalkerId) (e : Upset) (s : State) : Host.Outcome State Fault Refusal :=
  .next (issue s c.val w.val 5 0 (moveBody c.val w.val e))

/-! FILL and LCOPY (R155, R197) -/

/-- FILL: byte i of the scratchpad receives pattern byte i mod 4. -/
def fillBody (c w : Nat) (s : State) (word : Nat) : Ran :=
  let n := dRows word * dRowBytes word
  if !commitOk s c w word then .fault Fc.dmvParam 0 else
  (spdChk s c (dDst word) n).run s fun _ =>
    let (s1, cm) := openCommit s c w word
    let bs := (List.range n).map fun i => BitVec.ofNat 8 (fld (dPattern word) (8 * ((dDst word + i) % 4)) 8)
    .done (spdWrite s1 c (dDst word) bs 0 false (s1.core c).nextId) fun x => { x with commit := cm }

/-- FILL (R155). -/
def execFill (c : CoreId) (w : WalkerId) (s : State) : Host.Outcome State Fault Refusal :=
  .next (issue s c.val w.val 5 1 (fillBody c.val w.val))

/-- LCOPY: the whole source is read before anything is written (DEDUCED, log 33). -/
def lcopyBody (c w : Nat) (e : Upset) (s0 : State) (word : Nat) : Ran :=
  let s := upset s0 e
  let n := dRows word * dRowBytes word
  if !commitOk s c w word then .fault Fc.dmvParam 0 else
  ((spdReadChk s e c (dSrc word) n).both (spdChk s c (dDst word) n)).run s fun _ =>
    let (s1, cm) := openCommit s c w word
    .done (spdWrite s1 c (dDst word) (spdRead s1 c (dSrc word) n) 0 false (s1.core c).nextId) fun x =>
      { x with commit := cm }

/-- LCOPY (R155). -/
def execLcopy (c : CoreId) (w : WalkerId) (e : Upset) (s : State) : Host.Outcome State Fault Refusal :=
  .next (issue s c.val w.val 5 2 (lcopyBody c.val w.val e))

/-! Deliveries (R148, R184) -/

/-- A delivery's rows are written into a scratchpad of the quire, and its gather entries flushed. -/
def landRows (s : State) (c : Nat) (v : Delivery) : State :=
  let n := max 1 v.rowBytes
  let s1 := (List.range (v.data.length / n)).foldl (fun s r =>
    writeRow s (spdAddr c (v.dst + r * v.stride)) ((v.data.drop (r * n)).take n) (fun _ _ => false) 0) s
  let ls := (List.range (v.data.length / n)).flatMap fun r => linesOf (v.dst + r * v.stride) n
  flushWhere s1 c fun g => ls.contains g.line.val

/-- The MCAST descriptor of a core that waits for the delivery (R184). -/
def awaiting (s : State) (c : Nat) (v : Delivery) : Option InFlight :=
  (s.core c).inflight.find? fun d => d.eng = .dmv && dMcast d.word.toNat && hOp d.word.toNat == 0 &&
    !dNoop d.word.toNat && (if c = v.leader then d.id == v.desc else d.pending)

/-- The slot that a delivery produces is clear. -/
def slotClear (s : State) (c : Nat) (v : Delivery) : Bool :=
  match v.prod with
  | none => true
  | some k => !((s.core c).slots.get k).full

/-- What a delivery meets at the banks of a scratchpad (R144, R158). -/
def landingChk (s : State) (c : Nat) (v : Delivery) : Chk :=
  let n := max 1 v.rowBytes
  Chk.all ((List.range (v.data.length / n)).map fun r => spdChk s c (v.dst + r * v.stride) n)

/-- A delivery that a bank does not take is dropped, and faults its issuer (R144, R158, R159). -/
def dropDelivery (s : State) (q i : Nat) (cs : List Nat) (v : Delivery) (code : Nat) : State :=
  let s1 := s.modQuire q fun x => { x with deliveries := dropAt x.deliveries i }
  let s2 := if code = Fc.pwrGated then
      cs.foldl (fun t c => if landingChk s c v = .ok then t else t.ror (Reg.spdStatus c) 8) s1
    else s1
  coreFault s2 v.leader code 0

/-- MULTICAST_DELIVERY: the oldest multicast of the quire's hub lands in every masked core at once, when each has its
descriptor in flight, its slot clear and its banks awake (R54, R158, R184). -/
def execMulticastDelivery (q : QuireId) (s : State) : Host.Outcome State Fault Refusal :=
  match firstIdx (fun v : Delivery => !v.remote) (s.quire q.val).deliveries with
  | none => .next s
  | some i =>
    match (s.quire q.val).deliveries[i]? with
    | none => .next s
    | some v =>
      let cs := (bitsOf 32 v.mask.toNat).map (32 * q.val + ·)
      if !cs.all (fun c => (awaiting s c v).isSome && slotClear s c v) then .next s else
      match Chk.all (cs.map fun c => landingChk s c v) with
      | .stall => .next s
      | .fault code _ => .next (dropDelivery s q.val i cs v code)
      | .ok =>
        let s1 := cs.foldl (fun s c =>
          match awaiting s c v with
          | none => s
          | some d =>
            let s1 := modInFlight (landRows s c v) c d.id fun d => { d with pending := false, wait := 0 }
            match v.prod with | some k => slotProduced s1 c k | none => s1) s
        .next (s1.modQuire q.val fun x => { x with deliveries := dropAt x.deliveries i })

/-- REMOTE_PRODUCER_LANDED: a MOVE from another core lands in the scratchpad when its slot is clear and its banks are
awake, and sets FULL (R148, R158). -/
def execRemoteProducerLanded (c : CoreId) (s : State) : Host.Outcome State Fault Refusal :=
  let n := c.val
  match firstIdx (fun v : Delivery => v.remote && v.mask.getLsbD (n % 32)) (s.quire (n / 32)).deliveries with
  | none => .next s
  | some i =>
    match (s.quire (n / 32)).deliveries[i]? with
    | none => .next s
    | some v =>
      if !slotClear s n v then .next s else
      match landingChk s n v with
      | .stall => .next s
      | .fault code _ => .next (dropDelivery s (n / 32) i [n] v code)
      | .ok =>
        let s1 := (landRows s n v).modQuire (n / 32) fun x => { x with deliveries := dropAt x.deliveries i }
        let s2 := match v.prod with | some k => slotProduced s1 n k | none => s1
        .next (dmvAcked s2 v.leader v.desc)

end Sys2Proof.Machine
end

