-- ==== Sys2Proof/Machine/RegOps.lean ====
section
/-! DEFINITION. Reading and writing the registers of the control space (R10 to R13, R68, R102, R466 to R470, R561,
R576): the values that registers show, what a write changes, and when a write is discarded. -/

namespace Sys2Proof.Machine

/-! What registers show -/

/-- Two-bit power state of a bank (R164). -/
def bankCode (b : Bank) : Nat :=
  match b.st with
  | .off => 0
  | .waking => 1
  | .on => 2
  | .draining => 3

/-- Sixteen banks' states. -/
def bankWord (f : Nat → Bank) (lo : Nat) : Nat :=
  (List.range 16).foldl (fun v i => v + at_ (2 * i) 2 (bankCode (f (lo + i)))) 0

/-- A bitmap of the numbers below `n` for which `p` holds. -/
def bitmapOf (n : Nat) (p : Nat → Bool) : Nat := (List.range n).foldl (fun v i => v + at_ i 1 (b2n (p i))) 0

/-- Training state code (R401). -/
def linkCode : LinkSt → Nat
  | .off => 0
  | .detect => 1
  | .equalize => 2
  | .align => 3
  | .exchange => 4
  | .held => 5
  | .up => 6
  | .degraded => 7
  | .retrain => 8
  | .down => 9
  | .draining => 10

/-- Width shown for a link: none before groups are in use. -/
def shownWidth (L : Link) : Nat := widthCode L.groups.toNat

/-- CHN_LINK_STATEn (R424). -/
def linkStateReg (L : Link) : Nat :=
  at_ 0 4 (linkCode L.st) + at_ 4 2 (shownWidth L) + at_ 6 4 L.groups.toNat + at_ 10 4 L.retired.toNat +
    at_ 14 14 L.peerDev.toNat + at_ 28 1 (b2n L.enc)

/-- Code of a partition's state (R475, R502). -/
def partCode : PartSt → Nat
  | .free => 0
  | .ready => 1
  | .resetting => 2
  | .destroying => 3

/-- A partition's tasks that run or are preempted. -/
def taskCount (P : Part) : Nat := (P.works.cells.filter fun w => decide (w.1 < 16)).length

/-- PLN_PART_STATEp (R502). -/
def partStateReg (P : Part) : Nat :=
  at_ 0 2 (partCode P.st) + at_ 2 1 (b2n P.program.isSome) +
    at_ 3 1 (b2n (match P.program with | some g => g.isStep | none => false)) + at_ 4 1 (b2n !P.table.isEmpty) +
    at_ 5 5 (taskCount P) + at_ 10 7 (popCount 128 P.quires.toNat - 1)

/-- Offsets of the sticky registers of a group (R574). -/
def stickyGroup : Nat → List Nat
  | 0 => (List.range 4096).flatMap fun c => [Reg.mmaFlags c, Reg.vecFlags c, Reg.attFlags c, Reg.staFlags c]
  | 1 => (List.range 4096).map Reg.spdStatus ++ (List.range 128).map Reg.qsrStatus
  | 2 => (List.range 4096).map Reg.dckStatus
  | 3 => [Reg.vatStatus]
  | 4 => Reg.trmStatus :: (List.range 8).map Reg.trmDieStatus
  | 5 => (List.range 24).map Reg.calStatus
  | 6 => (List.range 24).map Reg.hbmStatus
  | 7 => Reg.chnStatus :: (List.range 32).map Reg.chnLinkFlags
  | 8 => [Reg.cchStatus]
  | 9 => [Reg.wmkStatus]
  | 10 => [Reg.thmStatus, Reg.clkStatus]
  | 11 => (List.range 8).map Reg.plnFabricStatus
  | 12 => [Reg.plnArmStatus, Reg.plnSchedStatus, Reg.plnBootStatus]
  | 13 => [Reg.strStatus]
  | 14 => (List.range 128).map Reg.attCombStatus
  | 15 => [Reg.plnErrStatus]
  | _ => []

/-- The group that a sticky register belongs to. -/
def groupOf (off : Nat) : Option Nat := (List.range 16).find? fun g => (stickyGroup g).contains off

/-- Bit g of PLN_ERR_SUMMARY (R576): some listed register of the group is not zero. Sticky registers reset to zero, so
only listed ones can hold a bit. -/
def summaryReg (s : State) : Nat :=
  let ks := (s.regs.keys.filter fun k => match regRow k with | some r => r.acc = .w1c | none => false).filter fun k =>
    s.rnat k != 0
  bitmapOf 16 fun g => ks.any fun k => groupOf k == some g

/-- PLN_ARITH_QSUM word `i` (R102). -/
def qsumReg (s : State) (i : Nat) : Nat :=
  let ks := s.regs.keys.filter fun k => decide (0x80000 ≤ k) && decide (k < 0x90000) && s.rnat k != 0
  bitmapOf 32 fun j => ks.any fun k => (k - 0x80000) / 16 / 32 == 32 * i + j

/-- The offset lies in a row of `count` registers; its index. -/
def within (off base stride count : Nat) : Option Nat :=
  if base ≤ off ∧ (off - base) / stride < count ∧ (off - base) % stride = 0 then some ((off - base) / stride) else none

/-- THM_QUIREq (R573). -/
def thmQuireReg (s : State) (q : Nat) : Nat :=
  let c := clockOf s q
  at_ 0 8 ((s.mod.junc.get q).head?.getD 0).toNat + at_ 8 6 c + at_ 14 1 (b2n (stackLimitOf s q == c && decide (c < 48))) +
    at_ 15 1 (b2n (juncLimitOf s q == c && decide (c < 48))) + at_ 16 1 (b2n (cmdLimitOf s q == c && decide (c < 48)))

/-- The words of the registers that show state held elsewhere, by offset; none: the register is stored. -/
def computedReg (s : State) (off : Nat) : Option Nat :=
  let m := s.pkg.mapped
  if off = Reg.plnStraps then some s.mod.straps.toNat
  else if off = Reg.plnEnabledCount then
    let n := (backedQuires s).length
    some (if m then at_ 0 8 n + at_ 8 13 (32 * n) else 0)
  else if let some d := within off (Reg.plnDieQmap 0) 4 8 then
    some (if m then bitmapOf 16 (fun p => isBacked s (16 * d + p)) + at_ 16 1 (b2n (s.pkg.westFree.getLsbD d)) +
      at_ 17 1 (b2n (s.pkg.eastFree.getLsbD d)) else 0)
  else if let some q := within off (Reg.plnQuireSpare 0) 4 128 then
    some (if m then at_ 0 2 (s.pkg.sheetSpare.get q).toNat + at_ 2 1 (s.pkg.pressSpare.get q).toNat +
      at_ 3 2 (match (s.pkg.backing.get q).toNat with | 1 => 0 | 2 => 1 | 3 => 2 | _ => 3) else 0)
  else if let some i := within off (Reg.plnArithQsum 0) 4 4 then some (qsumReg s i)
  else if let some c := within off (Reg.spdPwrStateLo 0) 32 4096 then some (bankWord (spdBank s c) 0)
  else if let some c := within off (Reg.spdPwrStateHi 0) 32 4096 then some (bankWord (spdBank s c) 16 % 65536)
  else if let some q := within off (Reg.qsrPwrStateLo 0) 32 128 then some (bankWord (qsrBank s q) 0)
  else if let some q := within off (Reg.qsrPwrStateHi 0) 32 128 then some (bankWord (qsrBank s q) 16)
  else if let some i := within off 0xE0000 16 2048 then some (counterOf s (i / 16) (i % 16)).value.toNat
  else if let some i := within off 0xE0004 16 2048 then some (counterOf s (i / 16) (i % 16)).done.toNat
  else if let some i := within off 0xE0008 16 2048 then some (counterOf s (i / 16) (i % 16)).epoch.toNat
  else if let some c := within off (Reg.staSlots 0) 16 4096 then
    some (bitmapOf 32 fun k => ((s.core c).strSlots.get k).stream != 0)
  else if off = Reg.vatTick then some s.vat.tick.toNat
  else if off = Reg.vatPagesUsed then some s.vat.map.cells.length
  else if off = Reg.vatSwapUsed then some s.vat.swap.cells.length
  else if let some d := within off (Reg.vatFree 0) 16 8 then some (vatFree s d)
  else if let some d := within off (Reg.trmDieLive 0) 16 8 then
    some (s.roll.scores.cells.filter fun e => e.2.live && e.1 % 8 == d).length
  else if let some k := within off (Reg.calSlotQueued 0) 4 4 then some (queuedOf s k)
  else if off = Reg.chnDevice then some (at_ 0 14 (myDev s) + at_ 14 4 (mySlot s))
  else if off = Reg.chnRole then
    some (at_ 0 2 (fld s.mod.straps.toNat 0 2) + at_ 2 2 s.chain.role.toNat + at_ 4 4 s.chain.mgrSlot.toNat +
      at_ 8 1 (b2n s.chain.mgrValid) + at_ 16 16 s.chain.epoch.toNat)
  else if let some n := within off (Reg.chnLinkState 0) 32 32 then some (linkStateReg (s.link n))
  else if let some n := within off (Reg.chnLinkPeer 0) 32 32 then
    let L := s.link n
    some (at_ 0 5 L.peerLink.toNat + at_ 5 2 L.peerRole.toNat + at_ 16 16 L.peerEpoch.toNat)
  else if off = Reg.cchLinkState then
    let L := s.link 32
    some (at_ 0 4 (linkCode L.st) + at_ 4 3 (shownWidth L) + at_ 7 8 L.groups.toNat + at_ 15 8 L.retired.toNat +
      at_ 23 1 (fld s.mod.straps.toNat 8 1))
  else if off = Reg.plnCtxActive then some (activeContexts s).length
  else if let some p := within off (Reg.plnPartState 0) 16 128 then some (partStateReg (s.part p))
  else if let some p := within off (Reg.plnPartCycleLo 0) 16 128 then some (fld (s.part p).cycle.toNat 0 32)
  else if let some p := within off (Reg.plnPartCycleHi 0) 16 128 then some (fld (s.part p).cycle.toNat 32 32)
  else if let some p := within off (Reg.plnPartSlot 0) 16 128 then
    let P := s.part p
    some (at_ 0 8 P.slot + at_ 8 12 (match P.table[P.slot]? with | some e => e.2.toNat | none => 0))
  else if off = Reg.wmkFuses then
    some (at_ 0 7 s.nv.svnMin.toNat + at_ 7 2 s.nv.fwRevoked.toNat + at_ 9 4 Config.ownerValid.toNat +
      at_ 13 4 s.nv.ownerRevoked.toNat)
  else if let some i := within off (Reg.wmkMr 0 0) 4 128 then some (fld (s.wmk.mr.get (i / 8)).toNat (32 * (i % 8)) 32)
  else if let some q := within off (Reg.thmQuire 0) 4 128 then some (thmQuireReg s q)
  else if off = Reg.plnErrSummary then some (summaryReg s)
  else none

/-- DBL_STATEm (R437). -/
def doorbellState (s : State) (m : Nat) : Nat :=
  let b := s.box m
  at_ 0 6 b.cmdRead.toNat + at_ 8 6 b.rspWrite.toNat + at_ 16 1 (b2n b.notifyPending)

/-- What a read of a register returns (R10, R13): WO registers and reserved offsets read as zero. -/
def readReg (s : State) (off : Nat) : Word32 :=
  match regRow off with
  | none =>
    match within off 0x1100008 64 256 with
    | some m => BitVec.ofNat 32 (doorbellState s m)
    | none => 0
  | some r =>
    if r.acc = .wo then 0 else
    match computedReg s off with
    | some v => BitVec.ofNat 32 v
    | none => s.rget off

/-! What an RWL write asks (R12) -/

/-- The scratchpad of a core is idle (R164). -/
def spdIdle (s : State) (c : Nat) : Bool :=
  let C := s.core c
  C.inflight.isEmpty && C.gather.isEmpty && !(s.quire (c / 32)).deliveries.any (fun v => v.mask.getLsbD (c % 32)) &&
    !C.banks.cells.any fun b => b.2.st = .waking && b.2.phase

/-- No stream is LOADING, RESIDENT or WRITING (R284): such a stream holds a slot. -/
def strIdle (s : State) : Bool := !s.cores.cells.any fun c => c.2.strSlots.cells.any fun k => k.2.stream != 0

/-- The block that an RWL register belongs to is idle. -/
def blockIdle (s : State) (b : RwlBlock) (off : Nat) : Bool :=
  match b with
  | .none => true
  | .spd => spdIdle s ((off - 0xA0000) / 32)
  | .dck => (s.core ((off - 0xD0000) / 16)).part == 0 && (s.core ((off - 0xD0000) / 16)).inflight.isEmpty
  | .str => strIdle s
  | .vat => s.vat.map.cells.isEmpty
  | .cal => calIdle s
  | .chn => (List.range 32).all fun n => (s.link n).st = .off || (s.link n).st = .down || (s.link n).st = .held
  | .cch => s.couch.cache.isEmpty

/-- LOCKED_WRITE of the block (R12) (DEDUCED, log 63). -/
def lockedWrite (s : State) (b : RwlBlock) (off : Nat) : State :=
  match b with
  | .none => s
  | .spd => s.ror (Reg.spdStatus ((off - 0xA0000) / 32)) 0x80
  | .dck => s.ror (Reg.dckStatus ((off - 0xD0000) / 16)) 8
  | .str => s.ror Reg.strStatus 4
  | .vat => s.ror Reg.vatStatus 0x80
  | .cal => (List.range 24).foldl (fun s k => s.ror (Reg.calStatus k) 0x100) s
  | .chn => s.ror Reg.chnStatus 0x80
  | .cch => s.ror Reg.cchStatus 0x200

/-! Configuration sets (R468, R470) -/

/-- The register belongs to the overlay set (R468). -/
def inOverlaySet (off : Nat) : Bool :=
  [Reg.thmDramHi, Reg.thmDramLo, Reg.hbmScrubCtrl, Reg.vatCtrl, Reg.calCtrl, Reg.cchCtrl, Reg.thmJuncHi, Reg.thmJuncLo,
    Reg.thmPwrLimit].contains off ||
  (within off (Reg.vatLow 0) 16 8).isSome || (within off (Reg.dckCtrl 0) 16 4096).isSome ||
  (within off (Reg.spdPwrCtl 0) 32 4096).isSome || (within off (Reg.qsrPwrCtl 0) 32 128).isSome ||
  (within off (Reg.chnLinkCtl 0) 32 32).isSome || (within off (Reg.chnWinBase 0) 16 64).isSome ||
  (within off (Reg.chnWinFrames 0) 16 64).isSome || (within off (Reg.chnWinCtl 0) 16 64).isSome ||
  (within off (Reg.thmCeil 0) 4 128).isSome

/-- A writable register of the plinth range that a direct write does not reach (R468, R470). -/
def baseOnly (off : Nat) : Bool := decide (off < 0x100000) && !inOverlaySet off

/-! Values as written (R388, R561) -/

/-- The value that a field takes from a write. -/
def clampWrite (s : State) (off v : Nat) : Nat :=
  if off = Reg.thmJuncHi then min v 103
  else if off = Reg.thmJuncLo then min v (s.rnat Reg.thmJuncHi - 2)
  else if off = Reg.thmDramHi then min v 92
  else if off = Reg.thmDramLo then min v (s.rnat Reg.thmDramHi - 2)
  else if off = Reg.thmPwrLimit then clampPower v
  else if (within off (Reg.thmCeil 0) 4 128).isSome then max 12 (min 48 v)
  else v

/-- Bank power requests from a PWR_CTL write (R160). -/
def pwrBits (s : State) (v n : Nat) (ref : Nat → Option BankRef) : State :=
  (List.range n).foldl (fun s b =>
    match ref b with
    | some r => if bit v b then (powerUp s r).1 else powerDown s r
    | none => s) s

def spdRef (c b : Nat) : Option BankRef :=
  if h : c < 4096 then if h2 : b < 24 then some (.spd ⟨c, h⟩ ⟨b, h2⟩) else none else none
def qsrRef (q b : Nat) : Option BankRef :=
  if h : q < 128 then if h2 : b < 32 then some (.qsr ⟨q, h⟩ ⟨b, h2⟩) else none else none

/-- A value takes effect in an RW or RWL register (DEDUCED, log 70). -/
def putReg (s : State) (r : RegRow) (off v0 : Nat) : State :=
  let v := clampWrite s off ((v0 % 2 ^ 32) &&& r.mask)
  if let some c := within off (Reg.spdCtrl 0) 32 4096 then setWreg s c (fld v 0 5)
  else if let some c := within off (Reg.spdPwrCtl 0) 32 4096 then pwrBits s v 24 (spdRef c)
  else if let some q := within off (Reg.qsrPwrCtl 0) 32 128 then pwrBits s v 32 (qsrRef q)
  else if let some n := within off (Reg.chnLinkCtl 0) 32 32 then
    let was := s.rbit off 0
    let s1 := s.rput off 1 (bit v 1)
    if bit v 0 && !was then (enableLink s1 n).1 else if !bit v 0 && was then disableLink s1 n else s1
  else s.rset off (BitVec.ofNat 32 v)

/-- A direct write to a register of 4 bytes (R10 to R13, R466, R470). WO registers are not reached here
(DEDUCED, log 70). -/
def writeReg (s : State) (off v : Nat) : State :=
  match regRow off with
  | none => s
  | some r =>
    match r.acc with
    | .ro | .wo => s
    | .w1c => s.rset off (s.rget off &&& ~~~(BitVec.ofNat 32 (v &&& r.mask)))
    | .rw | .rwl =>
      if !s.rbit Reg.plnReady 1 then s
      else if baseOnly off && !bit s.mod.straps.toNat 9 then s.ror Reg.plnArmStatus 0x10
      else if r.acc = .rwl && !blockIdle s r.blk off then lockedWrite s r.blk off
      else putReg s r off v

end Sys2Proof.Machine
end

