-- ==== Sys2Proof/Machine/Mailbox.lean ====
section
/-! DEFINITION. The mailbox rings (R449 to R453, R458, R591, R592): the entry at the head of a command ring, when it
starts, the answers that come before a command's own rules, and the parameter blocks and lists a command reads. -/

namespace Sys2Proof.Machine

/-! The command entry (R452) -/

def eOpcode (e : Line) : Nat := lineN e 0 2
def eExpert (e : Line) : Bool := bit (lineN e 4 1) 0
def eOrdered (e : Line) : Bool := bit (lineN e 4 1) 1
def eContext (e : Line) : Nat := lineN e 6 2 % 4096
/-- `n` bits of a field that starts at bit 0 of byte `b`. -/
def eField (e : Line) (b n : Nat) : Nat := fld e.toNat (8 * b) n

/-- The entry at the head of a mailbox's command ring. -/
def headEntry (s : State) (m : Nat) : Line :=
  BitVec.ofNat 512 (s.rdN (csAddr (cmdOff m (s.box m).cmdRead.toNat)) 64)

/-- The line that holds the head entry, in the directory's numbering. -/
def headLine (s : State) (m : Nat) : Nat := cmdOff m (s.box m).cmdRead.toNat / 64

/-- The Armature may read the head entry: a doorbell covers it, and the companion does not hold it modified (R435). -/
def headReadable (s : State) (m : Nat) : Bool := s.couch.dir.get (headLine s m) != 2

/-- Some command waits that a doorbell covers, and the firmware runs (R438, R527). -/
def headCovered (s : State) (m : Nat) : Bool := s.rbit Reg.plnReady 0 && (s.box m).covered != 0

/-- The head command may start (R451): places, response entries, and ORDERED. A mailbox that is being revoked starts
nothing (R472). -/
def mayStart (s : State) (m : Nat) : Bool :=
  let b := s.box m
  headCovered s m && headReadable s m && decide (b.inProg.length < 16) && decide (b.inProg.length < b.free) &&
    b.revoking.isNone && (!eOrdered (headEntry s m) || b.inProg.isEmpty)

/-- The opcode of the head command. -/
def headOp (s : State) (m : Nat) : Nat := eOpcode (headEntry s m)

/-! The opcodes (R457, R452, R463) -/

/-- The named fields of a payload, as first bit and width, with EXPERT as given (R453). -/
def payload (op : Nat) (expert : Bool) : Option (List (Nat × Nat)) :=
  match op with
  | 0x0001 => some []
  | 0x0002 => some [(128, 4), (136, 1), (192, 64)]
  | 0x0003 => some [(128, 4)]
  | 0x0004 => some [(128, 12), (144, 9), (160, 2), (192, 32)]
  | 0x0005 => some [(192, 64)]
  | 0x0006 => some []
  | 0x0101 => some [(128, 7), (192, 128)]
  | 0x0102 => some [(128, 7)]
  | 0x0103 => some [(128, 64)]
  | 0x0104 => some []
  | 0x0105 => some [(128, 8)]
  | 0x0106 => some [(128, 8)]
  | 0x0107 => some [(128, 20), (160, 20), (192, 3)]
  | 0x0201 => some [(128, 64)]
  | 0x0202 => some [(128, 16)]
  | 0x0301 => some [(128, 64)]
  | 0x0302 => some [(128, 12)]
  | 0x0303 => some [(128, 12), (144, 16), (192, 64)]
  | 0x0304 => some [(128, 12), (192, 64)]
  | 0x0401 => some [(128, 24), (160, 5), (168, 4), (176, 6), (192, 64)]
  | 0x0402 => some [(128, 16), (160, 24), (192, 64)]
  | 0x0403 => some ((if expert then [(144, 1)] else []) ++ [(128, 16), (160, 24), (192, 64)])
  | 0x0404 => some [(128, 16), (160, 24), (192, 64)]
  | 0x0405 => some [(128, 24), (160, 1), (192, 64)]
  | 0x0406 => some [(128, 24), (192, 64), (256, 64)]
  | 0x0501 => some [(128, 20)]
  | 0x0502 => some [(128, 20)]
  | 0x0503 => some []
  | 0x0601 => some [(128, 7), (144, 9), (192, 64)]
  | 0x0602 => some [(128, 7)]
  | 0x0701 => some [(128, 7)]
  | 0x0702 => some [(128, 7)]
  | 0x0801 => some [(128, 7)]
  | 0x0901 => some [(128, 1), (160, 32), (192, 16)]
  | 0x0902 => some [(128, 2), (160, 16)]
  | 0x0A01 => some [(128, 256)]
  | 0x0A02 => some [(128, 2)]
  | 0x0B01 => some [(128, 23), (192, 64)]
  | 0x0B02 => some ((128, 1) :: if expert then [(129, 2), (136, 4)] else [])
  | 0x0B03 => some [(128, 1), (136, 4), (160, 20), (192, 64)]
  | 0x0C01 => some [(128, 4), (136, 32), (176, 6), (192, 16), (256, 128)]
  | 0x0C02 => some []
  | 0x0D01 => some [(128, 32), (160, 1)]
  | 0x0D02 => some [(128, 32), (160, 1)]
  | 0x0D03 => some [(128, 14), (144, 16), (192, 32), (224, 1)]
  | 0x0D04 => some [(128, 24)]
  | 0x0E01 => some [(128, 4), (160, 32), (192, 32)]
  | _ => none

/-- Commands that are answered DENIED on mailboxes 1 to 255 (R457). -/
def zeroOnly : List Nat :=
  [0x0002, 0x0003, 0x0005, 0x0006, 0x0101, 0x0102, 0x0103, 0x0104, 0x0105, 0x0106, 0x0107, 0x0501, 0x0502, 0x0601,
    0x0602, 0x0701, 0x0702, 0x0801, 0x0902, 0x0B01, 0x0B02, 0x0B03, 0x0C01, 0x0D02, 0x0D03]

/-- Commands served on mailbox 0 before the device is context-ready (R527). -/
def servedEarly : List Nat :=
  [0x0001, 0x0901, 0x0D01, 0x0D02, 0x0D03, 0x0D04, 0x0E01, 0x0C02, 0x0A02, 0x0A01, 0x0B01, 0x0B02, 0x0B03]

/-- The command acts for the context of its entry (R591). -/
def contextBound (e : Line) : Bool :=
  [0x0104, 0x0105, 0x0107, 0x0201, 0x0202, 0x0301, 0x0302, 0x0303, 0x0304, 0x0401, 0x0402, 0x0403, 0x0404, 0x0405,
    0x0406, 0x0501, 0x0502, 0x0503, 0x0701, 0x0702].contains (eOpcode e) ||
  (eOpcode e == 0x0901 && bit (lineN e 16 1) 0) || (eOpcode e == 0x0902 && bit (lineN e 16 1) 0)

/-- The lowest bit of an entry that is reserved and nonzero (R14, R452). -/
def reservedBit (named : List (Nat × Nat)) (v n : Nat) : Option Nat :=
  let rest := named.foldl (fun v f => setFld v f.1 f.2 0) v
  if rest = 0 then none else (List.range n).find? (bit rest)

/-- The named fields of every entry's header (R452). -/
def headFields : List (Nat × Nat) := [(0, 16), (16, 16), (32, 2), (48, 12)]

/-- A reserved field of the entry is nonzero: its byte offset (R14, R592). -/
def entryReserved (e : Line) : Option Nat :=
  (reservedBit (headFields ++ (payload (eOpcode e) (eExpert e)).getD []) e.toNat 512).map (· / 8)

/-! Answers that come before a command's own rules -/

def denied : Ans := { status := stDenied }
def busy : Ans := { status := stBusy }
def noResource : Ans := { status := stNoResource }
def pendingEnable : Ans := { status := stPendingEnable }
def okAns : Ans := { status := stOk }

/-- The device has been context-ready and no failure has ended that: an entropy failure alone does not (R519, R527,
R542). PHASE 7 is READY. -/
def servesWork (s : State) : Bool :=
  s.rbit Reg.plnReady 3 || (s.wmk.entropy == .failed && s.rfld Reg.plnBootPhase 0 4 == 7 && !s.arm.refuse)

/-- Judged by the mailbox: BUSY before context-ready (R527), DENIED by the grant (R449), unknown opcodes, "0 only"
(R457), and what a FAULTED context's mailbox serves (R477). -/
def boxAnswer (s : State) (m : Nat) (e : Line) : Option Ans :=
  let op := eOpcode e
  if !servesWork s && (m != 0 || !servedEarly.contains op) then some busy
  else if m ≠ 0 ∧ ((s.box m).grantee = 0 ∨ eContext e ≠ (s.box m).grantee) then some denied
  else if (payload op false).isNone then some (invalidAt 0)
  else if m ≠ 0 ∧ zeroOnly.contains op then some denied
  else if m ≠ 0 ∧ (s.ctx (s.box m).grantee).st = .faulted ∧ op ≠ 0x0001 ∧ op ≠ 0x0901 then some denied
  else none

/-- Judged by the state of CONTEXT (R591). -/
def ctxAnswer (s : State) (e : Line) : Option Ans :=
  if !contextBound e then none else
  let x := eContext e
  if x = 0 then some (invalidAt 6) else
  match (s.ctx x).st with
  | .free => some (invalidAt 6)
  | .active => none
  | .tearing => if eOpcode e = 0x0104 then none else some denied
  | .faulted => if eOpcode e = 0x0104 ∨ eOpcode e = 0x0901 ∨ eOpcode e = 0x0902 then none else some denied

/-- The answer that precedes a command's own rules; none: the command's own rules judge it. -/
def precheck (s : State) (m : Nat) (e : Line) : Option Ans :=
  match boxAnswer s m e with
  | some a => some a
  | none =>
    match ctxAnswer s e with
    | some a => some a
    | none => (entryReserved e).map invalidAt

/-! Starting a command (R451) -/

/-- The head command starts: the read index advances and the command is in progress. Answers its serial number. -/
def startHead (s : State) (m : Nat) : State × Nat :=
  let e := headEntry s m
  let n := (s.box m).nextSn
  (s.modBox m fun b =>
    { b with
      cmdRead := b.cmdRead + 1, covered := b.covered - 1, nextSn := n + 1
      inProg := b.inProg ++ [{ sn := n, entry := e, waits := [], bits := 0, aux := 0 }] }, n)

/-- Answer the commands at the head whose opcode the table does not name (R457), as far as they may start. -/
def drainUnknown : Nat → State → Nat → State
  | 0, s, _ => s
  | n + 1, s, m =>
    if mayStart s m && (payload (headOp s m) false).isNone then
      let (s1, sn) := startHead s m
      drainUnknown n (respond s1 m sn ((boxAnswer s m (headEntry s m)).getD (invalidAt 0))) m
    else s

/-- Ask the companion for the head entry while it holds it modified (R435)
(DEDUCED, log 29; DEDUCED, log 76). -/
def askHead (s : State) (m : Nat) : State :=
  if headCovered s m && !headReadable s m then sendSnoop s (headLine s m) false else s

/-- What a mailbox does after its rings have changed: unknown opcodes at the head are answered
(DEDUCED, log 29; DEDUCED, log 76). -/
def serve (s : State) (m : Nat) : State := askHead (drainUnknown 64 s m) m

/-- What a command does: the state, and its answer; none: it is answered later. -/
abbrev Body := State → Nat → Nat → Line → State × Option Ans

/-- The head command of mailbox `m` is `op` and may start. -/
def atHead (s : State) (m op : Nat) : Bool := mayStart s m && headOp s m == op

/-- A command at the head of its ring starts, is judged, and acts (R451, R591). When the head holds another command,
or may not start yet, nothing happens (DESIGN CHOICE, log 4) (DEDUCED, log 76). -/
def onCommand (m op : Nat) (body : Body) (s : State) : State :=
  if !atHead s m op then askHead s m else
  let e := headEntry s m
  let (s1, sn) := startHead s m
  let (s2, a) := match precheck s m e with
    | some a => (s1, some a)
    | none => body s1 m sn e
  serve (match a with | some a => respond s2 m sn a | none => s2) m

/-! Areas that a command reads (R453) -/

/-- Read an area of a command: `bad` names the field when it cannot be read (DEDUCED, log 29). -/
def readArea (s : State) (x a n align : Nat) (bad : Ans) (k : State → State × Option Ans) : State × Option Ans :=
  if !areaReadable s x a n align then (s, some bad) else
  let s1 := cacheRead s a n
  if areaPoisoned s1 a n then (s1, some paramPoison) else k s1

/-- Read the parameter block that payload byte `f` names, `n` bytes long (R453): its fields, and its reserved bytes. -/
def readBlock (s : State) (x : Nat) (e : Line) (f n : Nat) (named : List (Nat × Nat))
    (k : State → Nat → State × Option Ans) : State × Option Ans :=
  let a := eField e f 64
  readArea s x a n 64 (invalidAt f) fun s1 =>
    let v := s1.rdN a n
    match reservedBit named v (8 * n) with
    | some b => (s1, some (invalidBlk (b / 8)))
    | none => k s1 v

/-- Bits of a parameter block from byte `b`. -/
def bField (v b n : Nat) : Nat := fld v (8 * b) n

/-- The PARTIAL, OK or PENDING_ENABLE answer of a command that names `n` units, from the bitmap of those done (R463). -/
def bitmapAns (n bits : Nat) (pending : Bool) (extra : List (Nat × Nat × Nat)) : Ans :=
  let all := bits == 2 ^ n - 1
  { status := if !all then stPartial else if pending then stPendingEnable else stOk
    result := (16, 32, bits) :: extra }

/-- The offset in the control space of the diagnostic window and of the attestation window of a mailbox (R464, R515). -/
def diagOff (m : Nat) : Nat := 0x3000000 + 0x10000 * m
def attOff (m : Nat) : Nat := 0x2000000 + 0x10000 * m

/-- Replace the contents of a window: the bytes written, zeros beyond (R464). -/
def putWindow (s : State) (off : Nat) (bs : List Byte) : State :=
  (s.zero (csAddr off) 0x10000).wr (csAddr off) bs

end Sys2Proof.Machine
end

