-- ==== Sys2Proof/Machine/Image.lean ====
section
/-! DEFINITION. Firmware images (R506, R507) and configuration images (R467, R468, R509, R534), the measurement
registers (R514), and the effective values of base and overlays (R469). -/

namespace Sys2Proof.Machine

/-! Bytes -/

/-- `n` bytes of a byte list from byte `off`, as a number. -/
def bsN (l : List Byte) (off n : Nat) : Nat := leNat ((l.drop off).take n)

/-- `n` bytes of boot flash (R505). -/
def flashBytes (s : State) (off n : Nat) : List Byte := (List.range n).map fun i => s.nv.flash.get (off + i)

/-- The bytes of an ASCII string. -/
def ascii (t : String) : List Byte := t.toList.map fun c => BitVec.ofNat 8 c.toNat

/-- Bytes of a public key and of a signature (R503). -/
def pubLen : Nat := 1312
def sigLen : Nat := 2420

/-! Measurement (R514) -/

/-- Extend a measurement register. -/
def extend (s : State) (m : Nat) (d : BitVec 256) : State :=
  { s with wmk := { s.wmk with mr := s.wmk.mr.set m (sha3 (digestBytes (s.wmk.mr.get m) ++ digestBytes d)) } }

/-! Firmware images (R506, R507) -/

/-- LENGTH of a firmware image's header. -/
def fwLength (img : List Byte) : Nat := bsN img 12 4

/-- The reserved fields of the header are zero. -/
def fwReserved (img : List Byte) : Bool :=
  bsN img 4 1 / 2 == 0 && bsN img 5 1 == 0 && bsN img 6 2 / 128 == 0 && bsN img 10 2 == 0 && bsN img 12 4 / 2 ^ 23 == 0 &&
    bsN img 1328 16 == 0

/-- KEYSLOT and SVN of a firmware image. -/
def fwSlotOf (img : List Byte) : Nat := bsN img 4 1 % 2
def fwSvnOf (img : List Byte) : Nat := bsN img 6 2

/-- A firmware image verifies (R507). -/
def fwVerifies (s : State) (img : List Byte) : Bool :=
  let n := fwLength img
  let key := (img.drop 16).take pubLen
  bsN img 0 4 == 0x46574931 && fwReserved img && decide (1344 ≤ n) && decide (n + sigLen ≤ 0x800000) &&
    decide (n + sigLen ≤ img.length) && decide (fwSvnOf img ≤ 64) &&
    sha3 key == Config.fwKeyDigest (fwSlotOf img) && !bit s.nv.fwRevoked.toNat (fwSlotOf img) &&
    decide (s.nv.svnMin.toNat ≤ fwSvnOf img) &&
    Config.verify key (ascii "FLB-FW") (img.take n) ((img.drop n).take sigLen)

/-- The bytes of an image, signature included, and their digest. -/
def fwDigest (img : List Byte) : BitVec 256 := sha3 (img.take (fwLength img + sigLen))

/-! Configuration images (R467, R468, R509) -/

/-- Owner public key of a slot (R505, R509). -/
def ownerKey (s : State) (k : Nat) : List Byte := flashBytes s (0x1130000 + k * 0x800) pubLen

/-- An owner slot that holds a valid key and is not revoked under `revoked`. -/
def ownerUsable (s : State) (revoked k : Nat) : Bool :=
  Config.ownerValid.getLsbD k && sha3 (ownerKey s k) == Config.ownerKeyDigest k && !bit revoked k

/-- LENGTH of a configuration image: header and body. -/
def cfgLength (img : List Byte) : Nat := bsN img 12 4

/-- The signature verifies under some usable owner slot (R509). -/
def cfgSigned (s : State) (revoked : Nat) (img : List Byte) : Bool :=
  let n := cfgLength img
  decide (n + sigLen ≤ img.length) && (List.range 4).any fun k => ownerUsable s revoked k &&
    Config.verify (ownerKey s k) (ascii "FLB-CFG") (img.take n) ((img.drop n).take sigLen)

/-- The register entries of an image. -/
def cfgEntries (img : List Byte) : List (Nat × Nat) :=
  (List.range (bsN img 16 2)).map fun i => (bsN img (64 + 8 * i) 4, bsN img (68 + 8 * i) 4)

/-- The records after the register entries: type word and data; none when they do not fit the body. -/
def cfgRecords : Nat → Nat → List Byte → Option (List (Nat × Nat × List Byte))
  | _, 0, l => if l.isEmpty then some [] else none
  | 0, _ + 1, _ => none
  | fuel + 1, n + 1, l =>
    let len := bsN l 4 4
    if l.length < 8 + roundUp len 8 then none else
    if ((l.drop (8 + len)).take (roundUp len 8 - len)).any (· != 0) then none else
    match cfgRecords fuel n (l.drop (8 + roundUp len 8)) with
    | some r => some ((bsN l 0 4, len, (l.drop 8).take len) :: r)
    | none => none

/-- An expected topology table breaks no rule of R534. -/
def topoOk (len : Nat) (t : List Byte) : Bool :=
  len == 144 && bsN t 0 2 / 0x4000 == 0 && bsN t 2 1 / 4 == 0 && bsN t 2 1 != 3 && bsN t 3 5 == 0 &&
    ((List.range 8).all fun d => decide (bsN t (8 + d) 1 ≤ 16)) &&
    (List.range 32).all fun n => bsN t (16 + 4 * n) 4 / 0x800000 == 0 && topoKind (bsN t (16 + 4 * n) 4) != 3

/-- A register entry names a register of the kind's set and sets no reserved bit (R468). -/
def entryOk (base : Bool) (e : Nat × Nat) : Bool :=
  decide (e.1 < 0x100000) &&
  match regRow e.1 with
  | some r => (r.acc == .rw || r.acc == .rwl) && (base || inOverlaySet e.1) && (e.2 &&& r.mask) == e.2
  | none => false

/-- The header and body of a configuration image keep their layout (R467, R468). -/
def cfgLayout (img : List Byte) : Option (List (List Byte)) :=
  let n := cfgLength img
  let base := bsN img 4 1 == 0
  let regs := bsN img 16 2
  if bsN img 0 4 ≠ 0x43464731 ∨ 1 < bsN img 4 1 ∨ 15 < bsN img 5 1 ∨ (base ∧ bsN img 5 1 ≠ 0) ∨ bsN img 6 2 ≠ 0 ∨
      bsN img 20 44 ≠ 0 ∨ (if base then 262144 else 4096) < n ∨ n < 64 + 8 * regs ∨ img.length < n ∨
      (!base ∧ bsN img 18 2 ≠ 0) ∨ !(cfgEntries img).all (entryOk base) then none
  else
    match cfgRecords (n / 8 + 1) (bsN img 18 2) ((img.take n).drop (64 + 8 * regs)) with
    | none => none
    | some rs =>
      if !rs.all (fun r => r.1 == 1 && topoOk r.2.1 r.2.2) then none
      else if base ∧ rs.length ≠ 1 then none
      else some (rs.map (·.2.2))

/-- The image kind and its overlay mode. -/
def cfgIsBase (img : List Byte) : Bool := bsN img 4 1 == 0
def cfgMode (img : List Byte) : Nat := bsN img 5 1 % 16

/-- Write a register entry of an image: its effect is that of an accepted write (R469). -/
def applyEntry (s : State) (e : Nat × Nat) : State :=
  match regRow e.1 with
  | some r => putReg s r e.1 e.2
  | none => s

/-- The Vat frames that the registers give each die and stack keep R285 and R378. -/
def vatLayoutOk (s : State) : Bool :=
  ((List.range 8).all fun d =>
    let fs := vatFrames s d
    fs.length == s.rnat (Reg.vatFrameCount d) && fs.all (frameDie · == d) &&
      (List.range 3).all fun i => decide (2560 ≤ (fs.filter (frameStack · == 3 * d + i)).length)) &&
  decide ((List.range 8).foldl (fun n d => n + s.rnat (Reg.vatFrameCount d)) 0 ≤ 524288)

/-- A base image verifies and breaks no rule (R468, R509): its topology table. -/
def baseOk (s : State) (img : List Byte) : Option (List Byte) :=
  if !cfgIsBase img ∨ !cfgSigned s s.nv.ownerRevoked.toNat img then none else
  match cfgLayout img with
  | some [t] => if vatLayoutOk ((cfgEntries img).foldl applyEntry { State.reset with pkg := s.pkg }) then some t else none
  | _ => none

/-- An overlay image verifies and breaks no rule (R468, R509). -/
def overlayOk (s : State) (img : List Byte) : Bool :=
  !cfgIsBase img && cfgSigned s s.nv.ownerRevoked.toNat img && (cfgLayout img).isSome

/-- The digest of a configuration image, signature included (R510). -/
def cfgDigest (img : List Byte) : BitVec 256 := sha3 (img.take (cfgLength img + sigLen))

/-! Effective values (R469) -/

/-- The last value that the base and a list of overlays write to a register; none: its reset value. -/
def effective (base : List (Nat × Word32)) (ovl : List Overlay) (off : Nat) : Option Word32 :=
  (base ++ ovl.flatMap (·.entries)).foldl (fun v e => if e.1 = off then some e.2 else v) none

/-- Every block whose RWL registers the entries write is idle (R469). -/
def entriesIdle (s : State) (es : List (Nat × Word32)) : Bool :=
  es.all fun e => match regRow e.1 with
    | some r => r.acc != .rwl || blockIdle s r.blk e.1
    | none => true

/-- Show the applied overlays in PLN_READY (R471). -/
def syncOverlays (s : State) : State :=
  s.rsetFld Reg.plnReady 5 16 (bitmapOf 16 fun m => s.wmk.overlays.any (·.mode.toNat == m))

/-- The entries of an image as stored with the base or an overlay. -/
def cfgStored (img : List Byte) : List (Nat × Word32) := (cfgEntries img).map fun e => (e.1, BitVec.ofNat 32 e.2)

end Sys2Proof.Machine
end

