-- ==== Sys2Proof/Machine/Stack.lean ====
section
/-! DEFINITION. The stack controllers (chapter 13): address layout, error classes, repair, pseudo-channel
retirement, temperature. -/

namespace Sys2Proof.Machine

/-! Layout (R364, R377) -/

/-- Frame in stack and unit within the frame of a unit number. -/
def unitFrame (u : Nat) : Nat := u / 4096
def unitIndex (u : Nat) : Nat := u % 4096

/-- Pseudo-channel and bank of a unit before any retirement (R364). -/
def unitPc (u : Nat) : Nat := (unitIndex u % 32) ^^^ (unitFrame u % 32)
def unitBank (u : Nat) : Nat := unitIndex u / 64

/-- Key of a row of a stack. -/
def rowKey (pc bank row : Nat) : Nat := (pc * 64 + bank) * 65536 + row

/-- Where a unit lies now: pseudo-channel, bank, row. A kept frame's units of a retired pseudo-channel take the
slots of R377. -/
def unitPlace (s : State) (k u : Nat) : Nat × Nat × Nat :=
  let S := s.stack k
  let gone := S.order.filter fun p => (S.pcs.get p).st = .retired
  let pc := unitPc u
  let r := gone.length
  match firstIdx (· == pc) (sortBy id gone) with
  | none => (pc, unitBank u, unitFrame u)
  | some j =>
    let w := sortBy id (S.withdrawn.take (1280 * r))
    let i := unitFrame u - (w.filter (· < unitFrame u)).length
    let n := i * r + j
    let alive := (List.range 32).filter fun p => !gone.contains p
    (alive.getD (n % (32 - r)) 0, unitBank u, w.getD (n / (32 - r)) 0)

/-- A frame leaves the Vat in an evacuation that has not ended (R379, R385). -/
def isLeaving (s : State) (f : Nat) : Bool :=
  let S := s.stack (frameStack f)
  S.withdrawn.contains (f % 40960) && S.order.any fun p => (S.pcs.get p).st != .retired

/-- A frame is protected: a stack's last frame, or outside the Vat (R373) (DESIGN CHOICE, log 23). -/
def isProtected (s : State) (f : Nat) : Bool := isLastFrame f || (!isVatFrame s f && !isLeaving s f)

/-! Repair (R372 to R375) -/

/-- Queue a repair log entry (R372). -/
def logRepair (s : State) (e : LogEnt) : State := { s with stk := { s.stk with logQ := s.stk.logQ ++ [e] } }

/-- Set the state of a row. -/
def setRow (s : State) (k key : Nat) (v : RowSt) : State :=
  s.modStack k fun S => { S with rows := S.rows.set key v }

/-- The ring entry of a repaired row: 1 soft repair, 2 remap, 3 frame retired (R581). -/
def rowEvent (s : State) (f pc bank how : Nat) : State :=
  ringAdd s { kind := 0x22, cls := .permanent, unitType := 7, unit := f, retired := true,
              detail := detailOf [(28, 1, pc), (29, 1, bank), (30, 1, how)] }

/-- A frame is retired and counted against a pseudo-channel; the 65th makes its retirement due (R373, R376). One that
leaves in an evacuation is only counted (R385). -/
def retireRow (s : State) (k pc bank row : Nat) : State :=
  let f := k * 40960 + row
  let s1 := (setRow s k (rowKey pc bank row) .retired).modStack k fun S => { S with
    pcs := S.pcs.mod pc fun p => { p with frames := p.frames + 1, due := p.due || decide (65 ≤ p.frames + 1) } }
  let s2 := s1.ror (Reg.hbmStatus k) 0x10
  let s3 := if isLeaving s f then s2 else retireFrame (s2.radd (Reg.hbmRetiredFrames k) 1) f
  logRepair (rowEvent s3 f pc bank 3) { kind := .frame, stack := k, pc := pc, bank := bank, row := row, spare := 0 }

/-- A free reserve row of a bank (R375) (DESIGN CHOICE, log 23). -/
def freeReserve (s : State) (k pc bank : Nat) : Option Nat :=
  (List.range 3072).find? fun i => Config.isReserve i && !((s.stack k).reserve.get (pc * 64 + bank)).contains i

/-- The remap entry of a row. -/
def remapOf (S : Stack) (pc bank row : Nat) : Option (Nat × RemapEnt) :=
  S.remap.cells.find? fun c => c.2.valid && c.2.pc.toNat == pc && c.2.bank.toNat == bank && c.2.row.toNat == row

/-- Point a remap entry at a reserve row (R375). -/
def putRemap (s : State) (k idx pc bank row spare : Nat) (prot : Bool) (moves : Nat) : State :=
  let s1 := s.modStack k fun S => { S with
    remap := S.remap.set idx
      { valid := true, pc := BitVec.ofNat 5 pc, bank := BitVec.ofNat 6 bank, row := BitVec.ofNat 16 row, prot := prot,
        spare := BitVec.ofNat 12 spare, moves := BitVec.ofNat 4 moves }
    reserve := S.reserve.mod (pc * 64 + bank) fun l => l ++ [spare] }
  let n := ((s1.stack k).remap.cells.filter (·.2.valid)).length
  s1.rset (Reg.hbmRemapUsed k) (BitVec.ofNat 32 n)

/-- A remap is needed and no entry or reserve row is free (R373) (DEDUCED, log 74). -/
def remapFull (s : State) (k pc bank row : Nat) : State :=
  let f := k * 40960 + row
  let s1 := s.ror (Reg.hbmStatus k) 0x20
  if !isProtected s f then retireRow s1 k pc bank row
  else if isLastFrame f then
    deviceFailure s1 { kind := 0x21, cls := .permanent, unitType := 7, unit := f,
                       detail := detailOf [(28, 1, pc), (29, 1, bank)] }
  else s1

/-- Remap a row under R375, or what R373 gives when it cannot be done. -/
def remapRow (s : State) (k pc bank row : Nat) : State :=
  let S := s.stack k
  let f := k * 40960 + row
  match (List.range 2048).find? (fun i => !(S.remap.get i).valid), freeReserve s k pc bank with
  | some i, some sp =>
    let s1 := (putRemap s k i pc bank row sp (isProtected s f) 0).ror (Reg.hbmStatus k) 8
    logRepair (rowEvent (setRow s1 k (rowKey pc bank row) .remapped) f pc bank 2)
      { kind := .remap, stack := k, pc := pc, bank := bank, row := row, spare := sp }
  | _, _ => remapFull s k pc bank row

/-- A data row has failed (R373) (DEDUCED, log 74). -/
def rowFail (s : State) (k pc bank row : Nat) : State :=
  let S := s.stack k
  let f := k * 40960 + row
  match S.rows.get (rowKey pc bank row) with
  | .normal =>
    if (S.used.get (pc * 64 + bank)).toNat < 4 then
      let s1 := s.modStack k fun S => { S with
        used := S.used.mod (pc * 64 + bank) (· + 1)
        rows := S.rows.set (rowKey pc bank row) .soft
        repairing := S.repairing ++ [(pc * 64 + bank, row)] }
      let s2 := (s1.ror (Reg.hbmStatus k) 4).radd (Reg.hbmSoftRepairs k) 1
      logRepair (rowEvent s2 f pc bank 1) { kind := .soft, stack := k, pc := pc, bank := bank, row := row, spare := 0 }
    else remapRow s k pc bank row
  | .soft | .hard => remapRow s k pc bank row
  | .remapped =>
    if !isProtected s f then retireRow s k pc bank row
    else match remapOf S pc bank row, freeReserve s k pc bank with
      | some (i, e), some sp =>
        logRepair (rowEvent ((putRemap s k i pc bank row sp true (min 15 (e.moves.toNat + 1))).ror (Reg.hbmStatus k) 8) f pc bank 2)
          { kind := .remap, stack := k, pc := pc, bank := bank, row := row, spare := sp }
      | _, _ => remapFull s k pc bank row
  | .retired => s

/-! Reads and writes of units (R366, R369, R370) -/

/-- Count a correction of a row, at most once in 1 ms; the 16th makes it fail (R369). -/
def countCorrection (s : State) (k pc bank row : Nat) : State :=
  let S := s.stack k
  let key := rowKey pc bank row
  let s1 := (s.ror (Reg.hbmStatus k) 1).radd (Reg.hbmCorrected k) 1
  match S.corr.find? (·.1 == key) with
  | some (_, n, t) =>
    if s.now < t + 1000000 then s1.modStack k fun S => { S with corr := (key, n, t) :: S.corr.filter (·.1 != key) }
    else if n + 1 < 16 then s1.modStack k fun S => { S with corr := (key, n + 1, s.now) :: S.corr.filter (·.1 != key) }
    else rowFail (s1.modStack k fun S => { S with corr := S.corr.filter (·.1 != key) }) k pc bank row
  | none => s1.modStack k fun S => { S with corr := ((key, 1, s.now) :: S.corr).take 256 }

/-- Poison the block of a unit and forget its bytes: the unit is written as zero, and a coded block that lost a
unit has nothing left to decode (R370, R355). -/
def poisonUnit (s : State) (k u : Nat) : State :=
  let a := k * stackBytes + u * 512
  let blk := a / 4096
  let s1 := if (blockEnt s blk).code = .raw then s.zero a 512 else s.zero (blk * 4096) 4096
  let s2 := modBlock s1 blk fun e => { e with poison := true }
  { s2 with arm := { s2.arm with poisonSeen := s2.arm.poisonSeen.filter (· != 2 + blk * 64) } }

/-- What the check code of one unit read leads to (R369, R370) (DESIGN CHOICE, log 24). -/
def unitFound (s : State) (k u : Nat) (found : ReadCheck) : State :=
  let (pc, bank, row) := unitPlace s k u
  let f := k * 40960 + unitFrame u
  match found with
  | .clean => s
  | .corrected => countCorrection s k pc bank row
  | .uncorrectable true _ => s
  | .uncorrectable false fails =>
    let s1 := (s.ror (Reg.hbmStatus k) 2).radd (Reg.hbmUncorr k) 1
    let s2 := ringAdd (poisonUnit s1 k u)
      { kind := 0x21, cls := if fails then .permanent else .transient, unitType := 7, unit := f,
        detail := detailOf [(28, 1, pc), (29, 1, bank), (30, 2, 1)] }
    if fails then rowFail s2 k pc bank row else s2

/-- The bank of a unit is under soft repair, so the request waits (R374, R385). -/
def bankBlocked (s : State) (k u : Nat) : Bool :=
  let (pc, bank, _) := unitPlace s k u
  (s.stack k).repairing.any (·.1 == pc * 64 + bank)

/-- STACK_READ: one unit is read, checked and decoded (R366, R370, R355). -/
def execStackRead (stk : StackId) (unit : BitVec 28) (found : ReadCheck) (s : State) :
    Host.Outcome State Fault Refusal :=
  let u := unit.toNat
  if 167772160 ≤ u then .fault .illFormed
  else if bankBlocked s stk.val u then .next s
  else .next (decodeCheck (unitFound s stk.val u found) ((stk.val * stackBytes + u * 512) / 4096))

/-- Bytes of `new` where the mask has a one, of `old` elsewhere. -/
def mergeBytes : Nat → Nat → List Byte → List Byte → List Byte
  | i, m, o :: os, n :: ns => (if bit m i then n else o) :: mergeBytes (i + 1) m os ns
  | _, _, os, _ => os

/-- STACK_WRITE: one unit is written; a partial write reads the unit first (R366). -/
def execStackWrite (stk : StackId) (unit : BitVec 28) (data : List Byte) (mask : BitVec 512) (found : ReadCheck)
    (s : State) : Host.Outcome State Fault Refusal :=
  let u := unit.toNat
  if 167772160 ≤ u ∨ data.length ≠ 512 then .fault .illFormed
  else if bankBlocked s stk.val u then .next s
  else
    let a := stk.val * stackBytes + u * 512
    let s1 := if mask = BitVec.allOnes 512 then s else unitFound s stk.val u found
    .next (partialBlock (s1.wr a (mergeBytes 0 mask.toNat (s1.rd a 512) data)) (a / 4096) false)

/-- PARITY_ERROR: a parity error is counted; the 16th within 1 ms is permanent, else the command waits for its
reissue (R369). -/
def execParityError (stk : StackId) (pc : PcId) (s : State) : Host.Outcome State Fault Refusal :=
  let k := stk.val
  let p := (s.stack k).pcs.get pc.val
  let errs := s.now :: p.errs.filter fun t => decide (s.now ≤ t + 1000000)
  let n := errs.length
  let s1 := (s.ror (Reg.hbmStatus k) 0x40).radd (Reg.hbmParity k) 1
  let s2 := s1.modStack k fun S => { S with pcs := S.pcs.mod pc.val fun p => { p with
    errs := errs, waiting := true, due := p.due || decide (16 ≤ n) } }
  .next (ringAdd s2 { kind := 0x20, cls := if 16 ≤ n then .permanent else .transient, unitType := 6,
                      unit := k * 32 + pc.val, retired := decide (16 ≤ n), detail := detailOf [(28, 1, p.reissues)] })

/-- PARITY_REISSUE: the command is reissued; a fourth failure is permanent (R369). -/
def execParityReissue (stk : StackId) (pc : PcId) (ok : Bool) (s : State) : Host.Outcome State Fault Refusal :=
  let k := stk.val
  let p := (s.stack k).pcs.get pc.val
  if !p.waiting then .next s
  else
    let set (f : Pc → Pc) : State := s.modStack k fun S => { S with pcs := S.pcs.mod pc.val f }
    if ok then .next (set fun p => { p with waiting := false, reissues := 0 })
    else if p.reissues + 1 < 4 then .next (set fun p => { p with reissues := p.reissues + 1 })
    else .next (ringAdd (set fun p => { p with waiting := false, reissues := 0, due := true })
      { kind := 0x20, cls := .permanent, unitType := 6, unit := k * 32 + pc.val, retired := true,
        detail := detailOf [(28, 1, 4)] })

/-- SOFT_REPAIR_COMPLETE: the oldest soft repair of the stack ends and unblocks its bank (R374). -/
def execSoftRepairComplete (stk : StackId) (s : State) : Host.Outcome State Fault Refusal :=
  .next (s.modStack stk.val fun S => { S with repairing := S.repairing.drop 1 })

/-- REFRESH: a bank is refreshed and keeps its data; at 85 °C or above the rate is doubled and flagged (R368). -/
def execRefresh (stk : StackId) (_pc : PcId) (_bank : Fin 64) (s : State) : Host.Outcome State Fault Refusal :=
  .next (s.rput (Reg.hbmTemp stk.val) 8 (decide (85 ≤ sext 8 (s.rfld (Reg.hbmTemp stk.val) 0 8))))

/-- PATROL_SCRUB: the scrub reads its next data unit (R371). -/
def execPatrolScrub (stk : StackId) (found : ReadCheck) (s : State) : Host.Outcome State Fault Refusal :=
  let k := stk.val
  let u := (s.stack k).scrubUnit
  if bankBlocked s k u then .next s else
  let s1 := unitFound s k u found
  let s2 := s1.modStack k fun S => { S with scrubUnit := (u + 1) % 167772160 }
  .next (s2.rset (Reg.hbmScrubPos k) (BitVec.ofNat 32 (unitFrame u)))

/-! Pseudo-channel retirement (R376 to R379) -/

/-- The highest `n` Vat frames of a stack, descending (R377). -/
def topVatFrames (s : State) (k n : Nat) : List Nat :=
  (((vatFrames s (k / 3)).filter fun f => frameStack f == k).reverse).take n

/-- PC_RETIRE: a pseudo-channel whose retirement is due begins evacuation; a third in one stack loses the stack
(R376, R379). -/
def execPcRetire (stk : StackId) (pc : PcId) (s : State) : Host.Outcome State Fault Refusal :=
  let k := stk.val
  let S := s.stack k
  let p := S.pcs.get pc.val
  if !p.due ∨ p.st ≠ .active then .next s
  else if 2 ≤ S.order.length then
    .next (deviceFailure (s.modStack k fun S => { S with pcs := S.pcs.mod pc.val fun p => { p with due := false } })
      { kind := 0x24, cls := .permanent, unitType := 5, unit := k, retired := true })
  else
    let d := k / 3
    let frames := topVatFrames s k 1280
    let fresh := frames.filter fun f => match s.vat.bound.get f with
      | 0 => true
      | p + 1 => (s.page p).st ≠ .retired
    let s1 := s.modStack k fun S => { S with
      order := S.order ++ [pc.val], withdrawn := S.withdrawn ++ frames.map (· % 40960)
      pcs := (S.pcs.mapAll fun _ q => if q.st = .copying then { q with st := .evacuating } else q).mod pc.val
        fun p => { p with st := .evacuating, due := false } }
    let s2 := ((s1.ror (Reg.hbmStatus k) 0x80).ror (Reg.hbmPcEvac k) (2 ^ pc.val)).radd (Reg.hbmRetiredFrames k) fresh.length
    let s3 : State := { s2 with vat := { s2.vat with gone := frames.foldl (fun g f => insNat f g) s2.vat.gone } }
    let s4 := s3.rset (Reg.vatFrameCount d) (BitVec.ofNat 32 (s3.rnat (Reg.vatFrameCount d) - frames.length))
    let s5 := frames.foldl (fun s f => retireFrame s f) s4
    .next (logRepair (s5.ror Reg.vatStatus 0x20)
      { kind := .pc, stack := k, pc := pc.val, bank := 0, row := 0, spare := 0 })

/-- Every withdrawn frame of a stack has been vacated (R379). -/
def allVacated (s : State) (k : Nat) : Bool :=
  (s.vat.gone.filter fun f => frameStack f == k).all fun f =>
    match s.vat.bound.get f with
    | 0 => true
    | p + 1 => (s.page p).st = .retired

/-- REDIRECT_COPY_START: every withdrawn frame is vacated and the redirect copy starts (R379). -/
def execRedirectCopyStart (stk : StackId) (pc : PcId) (s : State) : Host.Outcome State Fault Refusal :=
  let k := stk.val
  if ((s.stack k).pcs.get pc.val).st = .evacuating ∧ allVacated s k then
    .next (s.modStack k fun S => { S with pcs := S.pcs.mod pc.val fun p => { p with st := .copying } })
  else .next s

/-- REDIRECT_COPY_COMPLETE: the last slot is copied and the pseudo-channel is RETIRED (R379). -/
def execRedirectCopyComplete (stk : StackId) (pc : PcId) (s : State) : Host.Outcome State Fault Refusal :=
  let k := stk.val
  if ((s.stack k).pcs.get pc.val).st = .copying then
    let s1 := s.modStack k fun S => { S with pcs := S.pcs.mod pc.val fun p => { p with st := .retired } }
    let s2 := ((s1.ror (Reg.hbmStatus k) 0x100).ror (Reg.hbmPcRetired k) (2 ^ pc.val)).rclr (Reg.hbmPcEvac k) (2 ^ pc.val)
    .next (ringAdd s2 { kind := 0x23, cls := .permanent, unitType := 6, unit := k * 32 + pc.val, retired := true,
                        detail := detailOf [(28, 2, 1280)] })
  else .next s

/-! The repair log (R372): entries of 8 bytes in flash from 0x0115_0000 (DESIGN CHOICE, log 15) -/

/-- A log entry as 8 bytes: kind, stack, pseudo-channel, bank, row, spare. -/
def logBytes (e : LogEnt) : List Byte :=
  let kind := match e.kind with | .soft => 1 | .remap => 2 | .frame => 3 | .pc => 4
  leBytes 8 (at_ 0 4 kind + at_ 4 5 e.stack + at_ 9 5 e.pc + at_ 14 6 e.bank + at_ 20 16 e.row + at_ 36 12 e.spare)

/-- REPAIR_LOG_APPEND: the oldest waiting entry goes to boot flash, or the log is full (R372). -/
def execRepairLogAppend (s : State) : Host.Outcome State Fault Refusal :=
  match s.stk.logQ with
  | [] => .next s
  | e :: r =>
    let s1 : State := { s with stk := { s.stk with logQ := r } }
    if s.nv.logLen + 8 ≤ 0x400000 then
      .next { s1 with nv := { s1.nv with flash := memWrite s1.nv.flash (0x1150000 + s1.nv.logLen) (logBytes e)
                                         logLen := s1.nv.logLen + 8 } }
    else .next (s1.ror (Reg.hbmStatus e.stack) 0x1000)

/-! Temperature (R382 to R384) -/

/-- Publish LIMIT, LIMITED and EMERGENCY of a stack (R388). -/
def syncLimit (s : State) (k : Nat) : State :=
  let S := s.stack k
  let s1 := s.rsetFld (Reg.hbmTemp k) 11 10 (48 - S.drop.toNat)
  let s2 := (s1.rput (Reg.hbmTemp k) 9 (decide (S.drop ≠ 0))).rput (Reg.hbmTemp k) 10 S.emergency
  if S.drop ≠ 0 then s2.ror (Reg.hbmStatus k) 0x200 else s2

/-- Some stack is in emergency (R573). -/
def anyDramEmerg (s : State) : Bool := s.stk.ctls.cells.any fun c => c.2.emergency

/-- A temperature of a stack takes effect (R368, R382, R384). -/
def dramTemp (s : State) (k : Nat) (v : BitVec 8) : State :=
  let t := degC v
  let was := (s.stack k).emergency
  let s1 := (s.rsetFld (Reg.hbmTemp k) 0 8 v.toNat).rput (Reg.hbmTemp k) 8 (decide (85 ≤ t))
  let s2 := s1.modStack k fun S => { S with
    hotSince := if 97 ≤ t then some (S.hotSince.getD s.now) else none
    drop := if 95 ≤ t then 36 else S.drop
    emergency := if 95 ≤ t then true else if t ≤ (s.rnat Reg.thmDramLo : Int) then false else S.emergency }
  let s3 := if 95 ≤ t then s2.ror (Reg.hbmStatus k) 0x400 else s2
  let s4 := s3.rput Reg.plnAlertCause 6 (anyDramEmerg s3)
  let s5 := if 95 ≤ t ∧ !was then
      ringAdd s4 { kind := 0x42, cls := .event, unitType := 5, unit := k, detail := detailOf [(28, 1, v.toNat)] }
    else s4
  sensorEvents (syncLimit s5 k)

/-- DRAM_TEMP_READ: a reading, or a failed one; three failures in a row count as 95 °C (R382). -/
def execDramTempRead (stk : StackId) (reading : Option (BitVec 8)) (s : State) : Host.Outcome State Fault Refusal :=
  let k := stk.val
  match reading with
  | some v => .next (dramTemp (s.modStack k fun S => { S with tempFails := 0 }) k v)
  | none =>
    let n := (s.stack k).tempFails + 1
    if n < 3 then .next (s.modStack k fun S => { S with tempFails := n })
    else .next (dramTemp ((s.modStack k fun S => { S with tempFails := 0 }).ror (Reg.hbmStatus k) 0x800) k 95)

/-- One stack limit step (R383). -/
def stackStep (s : State) (k : Nat) : State :=
  let t := sext 8 (s.rfld (Reg.hbmTemp k) 0 8)
  let d := (s.stack k).drop.toNat
  let d' := if (s.rnat Reg.thmDramHi : Int) ≤ t then min 36 (d + 1)
    else if t ≤ (s.rnat Reg.thmDramLo : Int) then d - 1 else d
  syncLimit (s.modStack k fun S => { S with drop := BitVec.ofNat 6 d' }) k

/-- STACK_LIMIT: every stack limit steps (R383). -/
def execStackLimit (s : State) : Host.Outcome State Fault Refusal := .next ((List.range 24).foldl stackStep s)

end Sys2Proof.Machine
end

