-- ==== Sys2Proof/Machine/Boot.lean ====
section
/-! DEFINITION. From power-good to ready: bring-up (R525 to R546), the defect map and spares (R64 to R66), the repair
log and the memory test (R530 to R533), the pointing pass (R535 to R538), proof runs (R540 to R542), and die bridges
(R63, R584). -/

namespace Sys2Proof.Machine

/-! Boot phase (R546) -/

def bootPhase (s : State) : Nat := s.rfld Reg.plnBootPhase 0 4

/-- Show a phase; a halted bring-up stays HALTED (R529). -/
def setPhase (s : State) (p : Nat) : State := if bootPhase s = 9 then s else s.rsetFld Reg.plnBootPhase 0 4 p

/-- Bring-up halts: reason 1 CONFIG, 2 STACK, 3 BRIDGE (R543). -/
def halt (s : State) (reason : Nat) : State :=
  if bootPhase s = 9 then s else
  sensorEvents ((s.rsetFld Reg.plnBootPhase 0 8 (9 + 16 * reason)).ror Reg.plnAlertCause 2)

/-! The defect map (R64) -/

/-- Good cores of a physical quire among physical indices `lo` to `lo + n - 1`. -/
def goodCores (pq lo n : Nat) : Nat := popCount n (fld (Config.defects pq).toNat lo n)

/-- A physical quire is usable: not fused bad, 28 good sheet cores and 4 good press cores (R64). -/
def siteUsable (pq : Nat) : Bool :=
  !(Config.defects pq).getLsbD 36 && decide (28 ≤ goodCores pq 0 31) && decide (4 ≤ goodCores pq 31 5)

/-- Back logical quire `q` with a physical quire: 1 home, 2 west spare, 3 east spare; its pools are what is left. -/
def backWith (s : State) (q code pq : Nat) : State :=
  { s with pkg := { s.pkg with
    backing := s.pkg.backing.set q (BitVec.ofNat 3 code)
    sheetSpare := s.pkg.sheetSpare.set q (BitVec.ofNat 2 (goodCores pq 0 31 - 28))
    pressSpare := s.pkg.pressSpare.set q (BitVec.ofNat 1 (goodCores pq 31 5 - 4)) } }

/-- Take the spare on the side of position `p` of die `d`, or leave the position vacant (R64, R65). -/
def backWithSpare (s : State) (d p : Nat) : State :=
  let q := 16 * d + p
  if p % 4 ≤ 1 then
    if s.pkg.westFree.getLsbD d then
      let s1 := backWith s q 2 (18 * d + 16)
      { s1 with pkg := { s1.pkg with westFree := BitVec.ofNat 8 (setFld s1.pkg.westFree.toNat d 1 0) } }
    else { s with pkg := { s.pkg with backing := s.pkg.backing.set q 4, sheetSpare := s.pkg.sheetSpare.set q 0
                                      pressSpare := s.pkg.pressSpare.set q 0 } }
  else if s.pkg.eastFree.getLsbD d then
    let s1 := backWith s q 3 (18 * d + 17)
    { s1 with pkg := { s1.pkg with eastFree := BitVec.ofNat 8 (setFld s1.pkg.eastFree.toNat d 1 0) } }
  else { s with pkg := { s.pkg with backing := s.pkg.backing.set q 4, sheetSpare := s.pkg.sheetSpare.set q 0
                                    pressSpare := s.pkg.pressSpare.set q 0 } }

/-- Apply the fused defect map, die by die and position by position (R64). -/
def applyDefects (s : State) : State :=
  let spares (site : Nat) : BitVec 8 := BitVec.ofNat 8 (bitmapOf 8 fun d => siteUsable (18 * d + site))
  let s1 : State := { s with pkg := { s.pkg with mapped := true, westFree := spares 16, eastFree := spares 17 } }
  (List.range 128).foldl (fun s q =>
    let d := q / 16
    let p := q % 16
    if siteUsable (18 * d + p) then backWith s q 1 (18 * d + p) else backWithSpare s d p) s1

/-! The boot ROM (R508, R544) -/

/-- A boot selector copy with a valid digest: its SEQ and BANK (R505). -/
def selectorCopy (s : State) (i : Nat) : Option (Nat × Nat) :=
  let r := flashBytes s (i * 0x8000) 32
  if (digestBytes (sha3 (r.take 16))).take 16 = r.drop 16 then some (bsN r 0 4, bsN r 4 1 % 2) else none

/-- The copy that the boot ROM uses: copy, SEQ and BANK. -/
def selector (s : State) : Option (Nat × Nat × Nat) :=
  match selectorCopy s 0, selectorCopy s 1 with
  | some a, some b => if a.1 < b.1 then some (1, b) else some (0, a)
  | some a, none => some (0, a)
  | none, some b => some (1, b)
  | none, none => none

/-- The bytes of a firmware bank (R505). -/
def bankImage (s : State) (bank : Nat) : List Byte := flashBytes s (0x10000 + bank * 0x800000) 0x800000

/-- Every stack, every chain link and the Couch link start training (R525 step 4, R401, R441). -/
def startTrainingAll (s : State) : State :=
  (List.range 33).foldl (fun s l => if (s.link l).st = .off then startTraining s l else s) (setPhase s 4)

/-- The base is rejected (R468, R529). -/
def baseRejected (s : State) (img : List Byte) : State :=
  let s1 := s.ror Reg.plnArmStatus 8
  if cfgSigned s s.nv.ownerRevoked.toNat img then s1 else s1.ror Reg.wmkStatus 0x20

/-- The base is applied and measured (R468, R510, R525 step 3). -/
def applyBase (s : State) (img topo : List Byte) : State :=
  let s1 := extend ((cfgEntries img).foldl applyEntry s) 3 (cfgDigest img)
  let s2 : State := { s1 with wmk := { s1.wmk with base := cfgStored img, topo := topo } }
  s2.ror Reg.plnReady 2

/-- Step 3 from boot flash: a staged base that verifies replaces the current one first (R512). -/
def baseFromFlash (s : State) : State :=
  let staged := flashBytes s 0x1090000 0x80000
  let s1 : State := if (baseOk s staged).isSome then
    { s with nv := { s.nv with flash := memWrite s.nv.flash 0x1010000 staged } } else s
  let img := flashBytes s1 0x1010000 0x80000
  startTrainingAll (match baseOk s1 img with
  | some topo => applyBase s1 img topo
  | none => halt (baseRejected s1 img) 1)

/-- The firmware starts on a verified image (R508 step 4), and applies the defect map (R525 step 2). -/
def startFirmware (s : State) (img : List Byte) (bank : Nat) (fallback couch : Bool) : State :=
  let s1 := extend s 1 (fwDigest img)
  let boot := at_ 0 1 bank + at_ 1 1 (b2n fallback) + at_ 2 1 (b2n couch) + at_ 3 7 (fwSvnOf img) + at_ 10 1 (fwSlotOf img)
  let s2 := (((s1.rset Reg.wmkBoot (BitVec.ofNat 32 boot)).ror Reg.plnReady 1).rclr Reg.plnAlertCause 1)
  let s3 : State := { s2 with wmk := { s2.wmk with
    fwSvn := BitVec.ofNat 7 (fwSvnOf img), fwSlot := BitVec.ofNat 1 (fwSlotOf img), fwBank := BitVec.ofNat 1 bank
    stagedOk := !couch && fwVerifies s (bankImage s (1 - bank))
    ovlCopy := memWrite ⟨[]⟩ 0 (flashBytes s2 0x1110000 0x20000) } }
  let cert := Config.certAt (flashBytes s3 0x1140000 0x10000) 0
  let bad := decide (Config.certKey cert Config.rootDigest ≠ some Config.identityKey)
  let s4 := { s3 with wmk := { s3.wmk with certBad := bad } }
  applyDefects (setPhase (if bad then s4.ror Reg.wmkStatus 8 else s4) 3)

/-- The boot ROM waits for an image from the companion (R544). -/
def recovery (s : State) : State :=
  let s1 := if (s.link 32).st = .off then startTraining s 32 else s
  setPhase { s1 with wmk := { s1.wmk with bootWindow := true } } 8

/-- No image verifies: the alert rises and the boot ROM waits (R508, R544). -/
def noFirmware (s : State) : State := recovery (sensorEvents (s.ror Reg.plnAlertCause 1))

/-- BRING_UP_START: power is good and MOD_RESET_N is high (R525): straps are sampled, the boot ROM measures and
starts the firmware, and steps 2 and 3 follow. -/
def execBringUpStart (straps : BitVec 10) (s : State) : Host.Outcome State Fault Refusal :=
  if !s.mod.converters ∨ s.mod.tripped ∨ !s.mod.inReset then .next s else
  let s0 : State := { s with now := 0, mod := { s.mod with inReset := false, straps := straps } }
  let s1 := extend (s0.ror Reg.wmkEntropy 1) 0 Config.romDigest
  let s2 := extend s1 2 (sha3 (leBytes 4 straps.toNat ++ leBytes 4 (readReg s1 Reg.wmkFuses).toNat))
  if straps.getLsbD 6 then .next (recovery s2) else
  let bank := match selector s2 with | some (_, _, b) => b | none => 0
  if fwVerifies s2 (bankImage s2 bank) then .next (baseFromFlash (startFirmware s2 (bankImage s2 bank) bank false false))
  else if fwVerifies s2 (bankImage s2 (1 - bank)) then
    .next (baseFromFlash (startFirmware (s2.ror Reg.wmkStatus 1) (bankImage s2 (1 - bank)) (1 - bank) true false))
  else .next (noFirmware s2)

/-- The boot window closes for good: its offsets become the diagnostic windows, which read as zero (R464, R544). -/
def closeWindow (s : State) : State :=
  { s.zero (csAddr 0x3000000) 0x1000000 with wmk := { s.wmk with bootWindow := false } }

/-- A GO in PLN_BOOT_CTRL (R544, R546): the boot ROM, or the firmware, verifies and loads the window. -/
def bootLoad (s : State) (v : Nat) : State :=
  if !s.wmk.bootWindow ∨ !bit v 31 then s else
  let img := s.rd (csAddr 0x3000000) (fld v 0 23)
  let running := s.rbit Reg.plnReady 0
  let couch := s.mod.straps.getLsbD 6
  if !bit v 23 then
    if running then s
    else if fwVerifies s img then
      let s1 := startFirmware (s.rsetFld Reg.plnBootPhase 0 4 1) img 0 false true
      let s2 := s1.ror Reg.plnBootStatus 2
      if couch then s2 else closeWindow (baseFromFlash s2)
    else s.ror Reg.plnBootStatus 1
  else if !running then s
  else match baseOk s img with
    | some topo => closeWindow (startTrainingAll (applyBase s img topo))
    | none => (baseRejected s img).ror Reg.plnBootStatus 1

/-- BOOT_WINDOW_LOAD: a write of PLN_BOOT_CTRL (R544). -/
def execBootWindowLoad (value : Word32) (s : State) : Host.Outcome State Fault Refusal := .next (bootLoad s value.toNat)

/-! Stacks: training, the repair log, the memory test (R530 to R533) -/

/-- The bring-up has reached link and stack training (R525 step 4). -/
def testsBegun (s : State) : Bool :=
  s.rbit Reg.plnReady 0 && (bootPhase s == 4 || bootPhase s == 5 || bootPhase s == 6 || bootPhase s == 7 || bootPhase s == 9)

/-- A pseudo-channel is retired from the start of bring-up: the mapping of R377 applies at once (R379). -/
def pcFromStart (s : State) (k pc : Nat) : State :=
  let frames := topVatFrames s k 1280
  let s1 := s.modStack k fun S => { S with
    order := S.order ++ [pc], withdrawn := S.withdrawn ++ frames.map (· % 40960)
    pcs := S.pcs.mod pc fun p => { p with st := .retired, due := false } }
  let s2 := frames.foldl withholdFrame s1
  (s2.ror (Reg.hbmPcRetired k) (2 ^ pc)).radd (Reg.hbmRetiredFrames k) frames.length

/-- Re-apply one repair log entry of stack `k` (R530). -/
def reapply (s : State) (k e : Nat) : State :=
  let pc := fld e 9 5
  let bank := fld e 14 6
  let row := fld e 20 16
  if fld e 4 5 ≠ k then s else
  match fld e 0 4 with
  | 1 => s.modStack k fun S => { S with
      used := S.used.mod (pc * 64 + bank) (· + 1), rows := S.rows.set (rowKey pc bank row) .hard }
  | 2 =>
    match remapOf (s.stack k) pc bank row, (List.range 2048).find? fun i => !((s.stack k).remap.get i).valid with
    | some (i, r), _ =>
      setRow (putRemap s k i pc bank row (fld e 36 12) true (min 15 (r.moves.toNat + 1))) k (rowKey pc bank row) .remapped
    | none, some i =>
      setRow (putRemap s k i pc bank row (fld e 36 12) (isProtected s (k * 40960 + row)) 0) k (rowKey pc bank row) .remapped
    | none, none => s
  | 3 =>
    let s1 := (setRow s k (rowKey pc bank row) .retired).modStack k fun S => { S with
      pcs := S.pcs.mod pc fun p => { p with frames := p.frames + 1, due := p.due || decide (65 ≤ p.frames + 1) } }
    if isVatFrame s1 (k * 40960 + row) then
      (withholdFrame s1 (k * 40960 + row)).radd (Reg.hbmRetiredFrames k) 1
    else s1
  | 4 => if (s.stack k).order.contains pc then s else pcFromStart s k pc
  | _ => s

/-- The repair log's entries. -/
def repairLog (s : State) : List Nat := (List.range (s.nv.logLen / 8)).map fun i => leNat (flashBytes s (0x1150000 + 8 * i) 8)

/-- A stack is lost: it interrupts, and bring-up halts (R376, R530, R542). -/
def stackLost (s : State) (k : Nat) : State :=
  halt (deviceFailure s { kind := 0x24, cls := .permanent, unitType := 5, unit := k, retired := true }) 2

/-- Rests of a retention test: one per background (R531). -/
def testRests (s : State) : Nat := if s.mod.straps.getLsbD 7 then 1 else 4

/-- TEST_PCT of PLN_BOOT_PHASE: 100 when every stack has ended; before that a free value (R546)
(DEDUCED, log 66). -/
def setPct (s : State) : State :=
  if (List.range 24).all fun k => (s.stack k).train = .done then s.rsetFld Reg.plnBootPhase 8 7 100
  else
    let (v, s1) := s.draw
    s1.rsetFld Reg.plnBootPhase 8 7 (v.toNat % 100)

/-- After a stack's test has ended (R533): the device memory key is drawn, R378 is checked, and the pointing pass is
next once every stack has ended. -/
def stackEnds (s : State) (k : Nat) : State :=
  let s1 := setPct (s.modStack k fun S => { S with train := .done })
  let s2 := if s1.rnat Reg.wmkKeysLive = 0 then (s1.rset Reg.wmkKeysLive 1) else s1
  let frames := ((vatFrames s2 (k / 3)).filter fun f => frameStack f == k).length
  let s3 := if frames < 2560 then halt s2 2 else s2
  if (List.range 24).all fun i => (s3.stack i).train = .done then setPhase s3 5 else s3

/-- STACK_TRAINED: pseudo-channels that failed training are retired, the repair log is re-applied, and the memory test
starts (R530). -/
def execStackTrained (stk : StackId) (failedPcs : BitVec 32) (s : State) : Host.Outcome State Fault Refusal :=
  let k := stk.val
  if !testsBegun s ∨ (s.stack k).train ≠ .idle then .next s else
  let s1 := (repairLog s).foldl (fun s e => reapply s k e) s
  let s2 := (bitsOf 32 failedPcs.toNat).foldl (fun s pc =>
    if (s.stack k).order.contains pc then s else
    let s1 := pcFromStart s k pc
    ringAdd (logRepair (s1.ror (Reg.hbmStatus k) 0x100)
        { kind := .pc, stack := k, pc := pc, bank := 0, row := 0, spare := 0 })
      { kind := 0x23, cls := .permanent, unitType := 6, unit := k * 32 + pc, retired := true
        detail := detailOf [(28, 2, (topVatFrames s k 1280).length)] }) s1
  if 2 < (s2.stack k).order.length then .next (stackLost (stackEnds s2 k) k)
  else .next (setPct (s2.modStack k fun S => { S with train := .testing (testRests s) }))

/-- A reserved row failed the memory test (R532): a soft repair, else it is marked failed; a check row or a frame
record row retires the frames it serves. -/
def reservedFail (s : State) (k pc bank row : Nat) : State :=
  let S := s.stack k
  if (S.used.get (pc * 64 + bank)).toNat < 4 then
    let s1 := s.modStack k fun S => { S with
      used := S.used.mod (pc * 64 + bank) (· + 1), rows := S.rows.set (rowKey pc bank row) .soft }
    let s2 := (s1.ror (Reg.hbmStatus k) 4).radd (Reg.hbmSoftRepairs k) 1
    logRepair s2 { kind := .soft, stack := k, pc := pc, bank := bank, row := row, spare := 0 }
  else
    let s1 := setRow s k (rowKey pc bank row) .retired
    if 46080 ≤ row && Config.isReserve (row - 46080) then
      s1.modStack k fun S => { S with reserve := S.reserve.mod (pc * 64 + bank) fun l => l ++ [row - 46080] }
    else
      let frames := if row < 46080 then (List.range 8).map (8 * (row - 40960) + ·) else Config.recordFrames bank row
      let dataBank := if row < 46080 then (bank + 32) % 64 else bank
      frames.foldl (fun s f => if isProtected s (k * 40960 + f) then s else retireRow s k pc dataBank f) s1

/-- A row failed the memory test (R532): counted, and handled under R373. -/
def testFail (s : State) (k : Nat) (r : RowRef) : State :=
  let s1 := (s.radd (Reg.plnMemtestRows k) 1).ror Reg.plnBootStatus 4
  let s2 := if r.row.val < 40960 then rowFail s1 k r.pc.val r.bank.val r.row.val
    else reservedFail s1 k r.pc.val r.bank.val r.row.val
  s2.modStack k fun S => { S with testRows := S.testRows ++ [rowKey r.pc.val r.bank.val r.row.val] }

/-- RETENTION_REST_END: a background's rest has ended and its rows are compared (R531). -/
def execRetentionRestEnd (stk : StackId) (failed : List RowRef) (s : State) : Host.Outcome State Fault Refusal :=
  let k := stk.val
  match (s.stack k).train with
  | .testing (n + 1) =>
    .next (setPct ((failed.foldl (fun s r => testFail s k r) s).modStack k fun S => { S with train := .testing n }))
  | _ => .next s

/-- MEMORY_TEST_COMPLETE: the last element has ended and the stack is initialised (R531 to R533). -/
def execMemoryTestComplete (stk : StackId) (failed : List RowRef) (s : State) : Host.Outcome State Fault Refusal :=
  let k := stk.val
  match (s.stack k).train with
  | .testing 0 => .next (stackEnds (failed.foldl (fun s r => testFail s k r) s) k)
  | _ => .next s

/-! The pointing pass (R535 to R538) -/

/-- The self check (R535). -/
def selfAgrees (s : State) : Bool :=
  myDev s == bsN s.wmk.topo 0 2 && fld s.mod.straps.toNat 0 2 == bsN s.wmk.topo 2 1

/-- The check of die d: enough backed quires. -/
def dieAgrees (s : State) (d : Nat) : Bool :=
  decide (bsN s.wmk.topo (8 + d) 1 ≤ popCount 16 (bitmapOf 16 fun p => isBacked s (16 * d + p)))

/-- The check of link n. -/
def linkAgrees (s : State) (n : Nat) : Bool :=
  topoKind (topoEntry s n) == 0 || ((s.link n).st = .held && linkMatches s n)

/-- PLN_TOPO_CHECKS. -/
def topoChecks (s : State) : Nat := (bitmapOf 8 (dieAgrees s)) + at_ 8 1 (b2n (selfAgrees s)) + at_ 9 1 1

/-- A check that disagrees has been accepted (R537). -/
def checksPass (s : State) : Bool :=
  (s.wmk.accDies || (selfAgrees s && (List.range 8).all (dieAgrees s))) &&
    (List.range 32).all fun n => linkAgrees s n || s.wmk.accLinks.getLsbD n || ((s.link n).isUp && linkMatches s n)

/-- Every check agrees or is accepted: the links that are expected or accepted leave HELD, and the device is
chain-ready (R536, R537) (DEDUCED, log 49). -/
def chainReady (s : State) : State :=
  let s1 := (List.range 32).foldl (fun s n =>
    if topoKind (topoEntry s n) ≠ 0 || s.wmk.accLinks.getLsbD n then
      leaveHeld (s.modLink n fun L => { L with accepted := true }) n
    else s) s
  (s1.rput Reg.plnReady 4 false).rput Reg.plnReady 2 true

/-- The pass may run: base applied, every stack's test ended, every chain link HELD or DOWN, not yet chain-ready, and not
context-ready before, unless no pass has run (R535, R538). -/
def passDue (s : State) : Bool :=
  s.rbit Reg.plnReady 1 && !s.rbit Reg.plnReady 2 && (bootPhase s != 7 || !s.rbit Reg.plnTopoChecks 9) &&
    ((List.range 24).all fun k => (s.stack k).train = .done) &&
    (List.range 32).all fun n => (s.link n).st = .held || (s.link n).st = .down

/-- POINTING_PASS (R535, R536). -/
def execPointingPass (s : State) : Host.Outcome State Fault Refusal :=
  if !passDue s then .next s else
  let s1 := s.rset Reg.plnTopoChecks (BitVec.ofNat 32 (topoChecks s))
  let s2 := s1.rset Reg.plnTopoLinks (BitVec.ofNat 32 (bitmapOf 32 fun n => linkAgrees s n || s.wmk.accLinks.getLsbD n))
  let s3 := if bootPhase s2 = 5 then setPhase s2 6 else s2
  .next (if checksPass s3 then chainReady s3 else topoMismatch s3)

/-! Proof runs (R540 to R542) -/

/-- Every backed position has passed its proof runs. -/
def proofsPassed (s : State) : Bool :=
  (backedQuires s).all fun q => s.pkg.proofOk.get (4096 + q) && (List.range 32).all fun i => s.pkg.proofOk.get (32 * q + i)

/-- CONTEXT_READY is set when nothing stands against it (R542) (DEDUCED, log 49). -/
def tryReady (s : State) : State :=
  let bridges := (List.range 8).any fun d => s.pkg.bridgeFailed.getLsbD (3 * d + 2)
  if s.rbit Reg.plnReady 1 && proofsPassed s && !s.arm.refuse && !bridges && bootPhase s != 9 && !s.rbit Reg.plnReady 3 then
    let s1 := setPhase (s.rput Reg.plnReady 3 true) 7
    if s1.rnat Reg.plnBootTime = 0 then s1.rset Reg.plnBootTime (BitVec.ofNat 32 (s1.now / 1000000)) else s1
  else s

/-- A quire is retired during proof runs: its spare takes the position, or it becomes vacant, and the die checks run
again (R65, R541). -/
def retireQuire (s : State) (q : Nat) : State :=
  let s1 := backWithSpare s (q / 16) (q % 16)
  let s2 : State := { s1 with pkg := { s1.pkg with
    proofOk := ((List.range 32).foldl (fun m i => m.set (32 * q + i) false) s1.pkg.proofOk).set (4096 + q) false } }
  let s3 := (s2.rsetFld Reg.plnProof 12 8 (s2.rfld Reg.plnProof 12 8 + 1)).ror Reg.plnBootStatus 0x10
  let s4 := ringAdd s3 { kind := 0x45, cls := .permanent, unitType := 2, unit := q, retired := true
                         detail := detailOf [(28, 1, 1)] }
  if !s4.rbit Reg.plnTopoChecks 9 then s4 else
  let s5 := s4.rset Reg.plnTopoChecks (BitVec.ofNat 32 (topoChecks s4))
  if s5.wmk.accDies || (List.range 8).all (dieAgrees s5) then s5 else topoMismatch (s5.rput Reg.plnReady 2 false)

/-- A core has failed its proof run: a spare of its kind takes its position, else the quire is retired (R65, R541). -/
def replaceCore (s : State) (c : Nat) : State :=
  let q := c / 32
  let sheet := decide (c % 32 < 28)
  let left := if sheet then (s.pkg.sheetSpare.get q).toNat else (s.pkg.pressSpare.get q).toNat
  if left = 0 then retireQuire s q else
  let s1 : State := { s with pkg := if sheet then { s.pkg with sheetSpare := s.pkg.sheetSpare.mod q (· - 1) }
    else { s.pkg with pressSpare := s.pkg.pressSpare.mod q (· - 1) } }
  let s2 := (s1.rsetFld Reg.plnProof 0 12 (s1.rfld Reg.plnProof 0 12 + 1)).ror Reg.plnBootStatus 8
  ringAdd s2 { kind := 0x44, cls := .permanent, unitType := 1, unit := c, retired := true }

/-- The proof run of a unit may end: the memory tests are over and its position is backed and has not passed. -/
def proofDue (s : State) (key q : Nat) : Bool :=
  s.rbit Reg.plnReady 1 && !s.rbit Reg.plnReady 3 && isBacked s q && !s.pkg.proofOk.get key &&
    (List.range 24).all fun k => (s.stack k).train = .done

/-- PROOF_RUN_COMPLETE: `same` when every output matched; a mismatch beside a poisoned read is not charged (R541). -/
def execProofRunComplete (unit : ProofUnit) (same poisoned : Bool) (s : State) : Host.Outcome State Fault Refusal :=
  let key := match unit with | .core c => c.val | .quire q => 4096 + q.val
  let q := match unit with | .core c => c.val / 32 | .quire q => q.val
  if !proofDue s key q then .next s
  else if same then
    .next (tryReady { s with pkg := { s.pkg with proofOk := s.pkg.proofOk.set key true } })
  else if poisoned then .next s
  else match unit with
    | .core c => .next (tryReady (replaceCore s c.val))
    | .quire q => .next (tryReady (retireQuire s q.val))

/-! Die bridges (R63, R69, R584) -/

/-- Bit of a bridge in BRIDGE_RETRY and BRIDGE_FAIL, and its unit number die × 3 + side. -/
def sideBit : BridgeSide → Nat
  | .west => 0
  | .east => 1
  | .plinth => 2

/-- BRIDGE_LINK_ERROR: a packet is replayed, `again` when the one before it was the same; the eighth replay of one
packet, or 64 within a millisecond, fail the bridge (R584). A failed side bridge moves its traffic, a failed plinth bridge is an interrupting failure (R63). -/
def execBridgeLinkError (d : DieId) (side : BridgeSide) (again : Bool) (s : State) : Host.Outcome State Fault Refusal :=
  let u := 3 * d.val + sideBit side
  if s.pkg.bridgeFailed.getLsbD u then .next s else
  let same := if again then (s.pkg.bridgeSame.get u).toNat + 1 else 1
  let burst := ((s.pkg.bridgeBurst.get u).filter fun t => decide (s.now < t + 1000000)) ++ [s.now]
  let s1 := { s with pkg := { s.pkg with
    bridgeSame := s.pkg.bridgeSame.set u (BitVec.ofNat 8 same), bridgeBurst := s.pkg.bridgeBurst.set u burst } }
  let s2 := s1.ror (Reg.plnFabricStatus d.val) (2 ^ (4 + sideBit side))
  if same < 8 ∧ burst.length < 64 then .next s2 else
  let s3 := { s2 with pkg := { s2.pkg with
    bridgeFailed := BitVec.ofNat 24 (setFld s2.pkg.bridgeFailed.toNat u 1 1) } }.ror (Reg.plnFabricStatus d.val)
      (2 ^ (7 + sideBit side))
  let e : Event := { kind := 0x40, cls := .permanent, unitType := 11, unit := u, retired := true }
  if side = .plinth then
    let s4 := deviceFailure s3 e
    .next (if s4.rnat Reg.plnBootTime = 0 then halt s4 3 else s4)
  else .next (ringAdd s3 e)

end Sys2Proof.Machine
end

