-- ==== Sys2Proof/WellFormed.lean ====
section
/-! DEFINITION. Which commands can reach the block at all: the lists and numbers in their operands fit the
unit they name. Every index that a type can bound is bounded by its type (Word.lean). -/

namespace Sys2Proof

/-- A row of a bank: 49,152 rows (R363). -/
def RowRef.fits (r : RowRef) : Bool := decide (r.row.val < 49152)

/-- A packet carries at most 4 KiB of data (R394). -/
def ChnPkt.fits (p : ChnPkt) : Bool := decide (p.data.length ≤ 4096)

/-- A packet carries at most 4 KiB of data (R428). -/
def CchPkt.fits (p : CchPkt) : Bool := decide (p.data.length ≤ 4096)

/-- A frame holds ten flits (R392). -/
def Frame.fits (f : Frame) : Bool := decide (f.ctrl.length ≤ 10)

/-- A unit lies in its stack: 80 GiB of 512-byte units (R337, R363). -/
def unitFits (u : BitVec 28) : Bool := decide (u.toNat < 167772160)

/-- The command's operands fit. -/
def Instr.wf : Instr → Bool
  | .retentionRestEnd _ rows => rows.all RowRef.fits
  | .memoryTestComplete _ rows => rows.all RowRef.fits
  | .stackRead _ u _ => unitFits u
  | .stackWrite _ u d _ _ => unitFits u && decide (d.length = 512)
  | .writeGatherFlush _ b => decide (b.toNat < 20971520)

  | .frameReceive _ f => f.fits
  | .chnRd _ p | .chnWr _ p | .chnExpd _ p | .chnRddata _ p | .chnWrack _ p | .chnNack _ p => p.fits
  | .rdShared p | .rdUncached p | .couchWr p | .wrPartial p | .rdOwn p | .evict p | .snpInv p | .snpData p
  | .couchData p | .couchAck p | .couchNack p | .snpRsp p => p.fits
  | .cert _ m | .keyInit _ m | .keyResp _ m => decide (m.length ≤ 8192)
  | _ => true

end Sys2Proof
end

