-- ==== Sys2Proof/Machine/Chain.lean ====
section
/-! DEFINITION. The chain layer's packets and messages (R395, R409 to R415, R417 to R420). -/

namespace Sys2Proof.Machine

/-- Packets reach the endpoint over this link. -/
def carries (s : State) (n : Nat) : Bool := (s.link n).isUp || (s.link n).st = .draining

/-- A packet has left the receive buffer: its flits' credits wait to be returned (R397). -/
def consume (s : State) (n : Nat) (p : ChnPkt) : State :=
  s.modLink n fun L =>
    let k := min (1 + dataFlits p.data.length) (L.rxHeld.at_ (chnVc p))
    { L with rxHeld := L.rxHeld.sub (chnVc p) k, owed := L.owed.add (chnVc p) k }

/-- A response on the link on which the request arrived (R407). -/
def answerChn (s : State) (n : Nat) (req : ChnPkt) (typ : Nat) (data : List Mark) : State :=
  sendOn s n { mkChn s typ req.src.toNat req.tag.toNat 0 data.length with
    data := data.map (·.1), poison := maskOf data }

/-- NACK with a reason (R410). -/
def nackChn (s : State) (n : Nat) (req : ChnPkt) (reason : Nat) : State :=
  let s1 := if reason = 1 then s.ror Reg.chnStatus 0x10 else if reason = 7 then s.ror Reg.chnStatus 0x40 else s
  sendOn s1 n { mkChn s1 10 req.src.toNat req.tag.toNat 0 0 with reason := BitVec.ofNat 8 reason }

/-- Window `w` grants the operation on the range and admits the source (R411). -/
def windowAdmits (s : State) (write : Bool) (src a n w : Nat) : Bool :=
  let base := s.rfld (Reg.chnWinBase w) 0 20
  let frames := s.rfld (Reg.chnWinFrames w) 0 20
  let ctl := s.rnat (Reg.chnWinCtl w)
  bit ctl (b2n write) && decide (base * 0x200000 ≤ a) && decide (a + n ≤ (base + frames) * 0x200000) &&
  match fld ctl 2 2 with
  | 0 => true
  | 1 => src / 16 == myPod s
  | 2 => src == fld ctl 4 14
  | _ => false

/-- The NACK reason of an incoming read or write, if it is refused (R409 to R411). -/
def inboundRefusal (s : State) (write : Bool) (p : ChnPkt) (n : Nat) : Option Nat :=
  let a := p.addr.toNat
  if p.dst.toNat ≠ myDev s then some 7
  else if !s.rbit Reg.plnReady 3 then some 5
  else
    match region a, region (a + max n 1 - 1) with
    | .unmapped, _ => some 2
    | _, .unmapped => some 2
    | _, _ =>
      if !(List.range 64).any (windowAdmits s write p.src.toNat a n) || stackedTop < a + n then some 1
      else if anyGone s a (max n 1) then some 2
      else none

/-- CHN_RD: a read request from another device (R411). -/
def execChnRd (n : ChainId) (pkt : ChnPkt) (s : State) : Host.Outcome State Fault Refusal :=
  if pkt.fits then
    if !carries s n.val then .next s else
    let s1 := consume s n.val { pkt with typ := 0 }
    let len := pkt.len.toNat
    match inboundRefusal s1 false pkt len with
    | some r => .next (nackChn s1 n.val pkt r)
    | none =>
      let s2 := decodeRange s1 pkt.addr.toNat len
      .next (answerChn s2 n.val pkt 8 (readRow s2 pkt.addr.toNat len))
  else .fault .illFormed

/-- CHN_WR: a write from another device; WRACK once the data are accepted (R395, R411). -/
def execChnWr (n : ChainId) (pkt : ChnPkt) (s : State) : Host.Outcome State Fault Refusal :=
  if pkt.fits then
    if !carries s n.val then .next s else
    let s1 := consume s n.val { pkt with typ := 1 }
    match inboundRefusal s1 true pkt pkt.data.length with
    | some r => .next (nackChn s1 n.val pkt r)
    | none =>
      let s2 := writeRow s1 pkt.addr.toNat (marksOf pkt.data pkt.poison) (fun _ _ => false) 0
      .next (answerChn s2 n.val pkt 9 [])
  else .fault .illFormed

/-! Experts (R412 to R414) -/

/-- Address of the ring header, size of the ring and entry size of the inbox that an expert's row goes to; none when
the table or the inbox is not valid, or the row exceeds the entry (R410, R412, R413) (DEDUCED, log 36). -/
def inboxFor (s : State) (p : ChnPkt) : Option (Nat × Nat × Nat) :=
  let ent := s.rdN (s.rnat Reg.chnExpertBaseLo + 0x100000000 * s.rnat Reg.chnExpertBaseHi + 8 * p.expert.toNat) 8
  let d := s.rdN (s.rnat Reg.chnInboxBaseLo + 0x100000000 * s.rnat Reg.chnInboxBaseHi + 32 * fld ent 32 12) 32
  let ring := fld d 0 48
  let log := fld d 64 5
  let units := fld d 72 7
  if bit ent 14 ∧ bit d 71 ∧ 6 ≤ log ∧ log ≤ 20 ∧ 2 ≤ units ∧ units ≤ 65 ∧ p.data.length ≤ (units - 1) * 64 ∧
      ring + 64 + 2 ^ log * units * 64 ≤ stackedTop then some (ring, log, units)
  else none

/-- Write a row into its inbox, then the write index, and answer with a WRACK; false: no free entry (R413, R414)
(DEDUCED, log 36). -/
def putInbox (s : State) (n : Nat) (p : ChnPkt) : State × Bool :=
  match inboxFor s p with
  | none => (consume (nackChn s n p 6) n p, true)
  | some (ring, log, units) =>
    let w := s.rdN ring 4 % 2 ^ log
    let r := s.rdN (ring + 4) 4 % 2 ^ log
    if (w + 1) % 2 ^ log = r then (s, false) else
    let a := ring + 64 + w * units * 64
    let head := mkLine [(0, 2, p.src.toNat), (2, 2, p.expert.toNat), (4, 2, p.data.length), (8, 8, p.addr.toNat),
      (16, 8, p.poison.toNat)]
    let s1 := s.devWr a (lineBytes head)
    let s2 := writeRow s1 (a + 64) (marksOf p.data p.poison) (fun _ _ => false) 0
    let s3 := s2.devWr ring (leBytes 4 ((w + 1) % 2 ^ log))
    (answerChn (consume s3 n p) n p 9 [], true)

/-- The packet waits in the EXP buffer of its link (R414). -/
def holdExpert (s : State) (n : Nat) (p : ChnPkt) : State :=
  (s.modLink n fun L => { L with expHeld := L.expHeld ++ [p] }).ror Reg.chnStatus 0x20

/-- CHN_EXPD: a token row for an expert of this device (R414). -/
def execChnExpd (n : ChainId) (pkt : ChnPkt) (s : State) : Host.Outcome State Fault Refusal :=
  if pkt.fits then
    let p : ChnPkt := { pkt with typ := 3 }
    if !carries s n.val then .next s
    else if p.dst.toNat ≠ myDev s then .next (nackChn (consume s n.val p) n.val p 7)
    else if !s.rbit Reg.plnReady 3 then .next (nackChn (consume s n.val p) n.val p 5)
    else if !(s.link n.val).expHeld.isEmpty then .next (holdExpert s n.val p)
    else
      match putInbox s n.val p with
      | (s1, true) => .next s1
      | (s1, false) => .next (holdExpert s1 n.val p)
  else .fault .illFormed

/-- INBOX_DELIVER: the oldest EXPD packet held on a link goes to its inbox once that has a free entry (R414). -/
def execInboxDeliver (n : ChainId) (s : State) : Host.Outcome State Fault Refusal :=
  match (s.link n.val).expHeld with
  | [] => .next s
  | p :: rest =>
    match putInbox s n.val p with
    | (s1, true) => .next (s1.modLink n.val fun L => { L with expHeld := rest })
    | (_, false) => .next s

/-! Responses (R395, R410) -/

/-- Take the transfer that a response answers. -/
def takeXfer (s : State) (p : ChnPkt) : State × Option Xfer :=
  match xferOf s p with
  | some x => ({ s with chain := { s.chain with xfers := s.chain.xfers.filter (·.tag != x.tag) } }, some x)
  | none => (s, none)

/-- A response whose core has been reset is discarded, and flagged while its quire's port is closed (R71). -/
def staleResponse (s : State) (core : Nat) : State :=
  if bit s.pkg.portClosed.toNat (core / 32) then s.ror (Reg.plnFabricStatus (core / 512)) 8 else s

/-- CHN_RDDATA: data of a remote read (R395). -/
def execChnRddata (n : ChainId) (pkt : ChnPkt) (s : State) : Host.Outcome State Fault Refusal :=
  if pkt.fits then
    if !carries s n.val then .next s else
    match takeXfer (consume s n.val { pkt with typ := 8 }) pkt with
    | (s1, none) => .next s1
    | (s1, some x) =>
      if (flightOf s1 x.core x.desc).isNone then .next (staleResponse s1 x.core)
      else .next (dmvArrived s1 x.core x.desc x.dest ((marksOf pkt.data pkt.poison).take x.len))
  else .fault .illFormed

/-- CHN_WRACK: a remote write has been accepted (R395). -/
def execChnWrack (n : ChainId) (pkt : ChnPkt) (s : State) : Host.Outcome State Fault Refusal :=
  if pkt.fits then
    if !carries s n.val then .next s else
    match takeXfer (consume s n.val { pkt with typ := 9 }) pkt with
    | (s1, none) => .next s1
    | (s1, some x) =>
      if (flightOf s1 x.core x.desc).isNone then .next (staleResponse s1 x.core)
      else .next (dmvAcked s1 x.core x.desc)
  else .fault .illFormed

/-- CHN_NACK: a remote transfer is refused and fails with DMV_REMOTE (R410). -/
def execChnNack (n : ChainId) (pkt : ChnPkt) (s : State) : Host.Outcome State Fault Refusal :=
  if pkt.fits then
    if !carries s n.val then .next s else
    match takeXfer (consume s n.val { pkt with typ := 10 }) pkt with
    | (s1, none) => .next s1
    | (s1, some x) =>
      if (flightOf s1 x.core x.desc).isNone then .next (staleResponse s1 x.core) else .next (failXfer s1 x)
  else .fault .illFormed

/-! Heartbeats and takeover (R418 to R420) -/

/-- Links that reach a device of the pod, the even one of the pair first. -/
def linksTo (s : State) (slot : Nat) : List Nat :=
  let r := pairRank (mySlot s) slot
  [r, r + 16].filter fun n => (s.link n).isUp

/-- Send a MSG to a slot of the pod, when a link of the pair carries traffic. -/
def msgTo (s : State) (slot code : Nat) (data : List Byte) : State :=
  match linksTo s slot with
  | n :: _ => sendMsg s n (myPod s * 16 + slot) code data
  | [] => s

/-- The other slots of the pod. -/
def podSlots (s : State) : List Nat := (List.range 16).filter (· != mySlot s)

/-- The slot of the pod's standby, as its CTRL flits at EXCHANGE gave its role. -/
def standbySlot (s : State) : Option Nat :=
  (podSlots s).find? fun t =>
    let r := pairRank (mySlot s) t
    [r, r + 16].any fun n => (s.link n).peerRole = 2 && (s.link n).peerDev.toNat == myPod s * 16 + t

/-- Takeover by the standby, once it observes silence and holds SILENCE messages of 7 distinct workers of the last
20 ms (R419) (DESIGN CHOICE, log 35). -/
def takeover (s : State) : State :=
  let held := s.chain.silences.filter fun m => decide (s.now ≤ m.2 + 20000000)
  if s.chain.role ≠ 2 ∨ !s.chain.silent ∨ held.length < 7 then s else
  let e := s.chain.epoch + 1
  let s1 := { s with chain := { s.chain with
    role := 1, epoch := e, mgrSlot := BitVec.ofNat 4 (mySlot s), mgrValid := true, silent := false, silences := [] } }
  let s2 := ringAdd (s1.ror Reg.chnStatus 2) { kind := 0x34, cls := .event, unitType := 0, unit := 0, interrupting := true
                                               detail := detailOf [(28, 2, e.toNat), (30, 1, mySlot s), (31, 1, 1)] }
  (podSlots s2).foldl (fun s t => msgTo s t 2 (leBytes 2 e.toNat)) s2

/-- HEARTBEAT_TICK: HEARTBEAT advances and goes out on every HELD, UP and DEGRADED link (R418). -/
def execHeartbeatTick (s : State) : Host.Outcome State Fault Refusal :=
  let s1 := { s with chain := { s.chain with heartbeat := s.chain.heartbeat + 1 } }
  .next ((List.range 32).foldl (fun s n =>
    if (s.link n).isUp ∨ (s.link n).st = .held then
      { s with out := { s.out with ctrl := s.out.ctrl ++ [(n, ctrlFlit s n default)] } }
    else s) s1)

/-- The manager's HEARTBEAT has not advanced for 10 ms (R418) (DESIGN CHOICE, log 35). -/
def managerSilent (s : State) : Bool :=
  s.chain.role != 1 && s.chain.mgrValid && decide (s.chain.mgrBeatAt + 10000000 ≤ s.now)

/-- MANAGER_SILENCE: the device observes silence, reports it to the standby, and, as standby, may take over (R418,
R419). -/
def execManagerSilence (s : State) : Host.Outcome State Fault Refusal :=
  if !managerSilent s then .next s else
  let s1 := { s with chain := { s.chain with silent := true } }.ror Reg.chnStatus 1
  if s1.chain.role = 2 then .next (takeover s1)
  else
    match standbySlot s1 with
    | some t => .next (msgTo s1 t 1 [])
    | none => .next s1

/-- SILENCE: a worker reports silence to this standby (R419). -/
def execSilence (n : ChainId) (slot : BitVec 4) (epoch : BitVec 16) (s : State) : Host.Outcome State Fault Refusal :=
  if !carries s n.val ∨ epoch.toNat < s.chain.epoch.toNat then .next s else
  let s1 := seeManager s slot.toNat false epoch.toNat
  if s1.chain.role ≠ 2 then .next s1
  else .next (takeover { s1 with chain := { s1.chain with
    silences := (s1.chain.silences.filter (·.1 != slot.toNat)) ++ [(slot.toNat, s1.now)] } })

/-- MANAGER_CHANGE: a device of the pod claims the manager role at an epoch (R419, R420). -/
def execManagerChange (n : ChainId) (slot : BitVec 4) (epoch : BitVec 16) (s : State) :
    Host.Outcome State Fault Refusal :=
  if !carries s n.val then .next s else .next (seeManager s slot.toNat true epoch.toNat)

end Sys2Proof.Machine
end

