-- ==== Sys2Proof/Machine/Sched.lean ====
section
/-! DEFINITION. Tasks and placement, the cycle table, preemption, progress, and the ends of a partition's reset and
destroy (chapter 17). -/

namespace Sys2Proof.Machine

/-! Rank, free quires and task slots (R485, R486, R490) -/

/-- The context that owns the slot in force; 0 for an open slot or no table (R489). -/
def slotOwner (P : Part) : Nat := match P.table[P.slot]? with | some e => e.2.toNat | none => 0

/-- Rank of work: the slot owner's 2, HIGH 1, NORMAL 0 (R485). -/
def rankOf (P : Part) (w : Work) : Nat :=
  if slotOwner P = w.ctx ∧ w.ctx ≠ 0 then 2 else if w.high then 1 else 0

/-- The work occupies quires: it runs, or its preemption is under way. -/
def Work.busy (w : Work) : Bool := w.st = .running || w.st = .preempting

/-- The quires of a partition that would be free to a piece of work once the works of slots `gone` have left theirs
(R485): not impaired (R585), without running work, and not held for preempted work that it does not outrank. `self` is
the slot of the work itself when it is preempted: of two such works of one rank, the earlier started goes first. -/
def freeQuires (s : State) (p : Nat) (w : Work) (self : Option Nat) (gone : List Nat) : List Nat :=
  let P := s.part p
  (bitsOf 128 P.quires.toNat).filter fun q =>
    !s.pkg.impaired.getLsbD q &&
    P.works.cells.all fun c =>
      self == some c.1 || !c.2.quires.getLsbD q ||
        (if c.2.busy then gone.contains c.1
         else decide (rankOf P c.2 < rankOf P w) ||
          (self.isSome && rankOf P c.2 == rankOf P w && decide (w.started < c.2.started)))

/-- Running work of a partition that a piece of work outranks, most recently started first (R494). -/
def outranked (P : Part) (w : Work) : List (Nat × Work) :=
  (sortBy (fun c => c.2.started) (P.works.cells.filter fun c => c.2.st = .running && decide (rankOf P c.2 < rankOf P w))).reverse

/-- The lowest free task slot of the class that a task may use (R485). -/
def taskSlot (P : Part) (w : Work) : Option Nat :=
  let special := decide (0 < rankOf P w) || (match w.kind with | .rebuild _ => true | _ => false)
  (List.range (if special then 16 else 12)).find? fun k => !P.works.keys.contains k

/-! Save space (R493) -/

/-- Bytes of one core's spill area, and of one quire's share. -/
def spillBytes (livemax : Nat) : Nat := roundUp livemax 64
def shareBytes (livemax : Nat) : Nat := 32 * spillBytes livemax + 256
/-- Frames of the save space of a walk on `q` quires. -/
def saveNeed (livemax q : Nat) : Nat := ceilDiv (q * shareBytes livemax) 0x200000

/-- The runs of a context's save area that are reserved: first frame and frames. -/
def saveUsed (s : State) (x : Nat) : List (Nat × Nat) :=
  s.arm.parts.cells.flatMap fun c =>
    ((c.2.works.cells.filter fun w => w.2.ctx == x &&
        (match w.2.kind with | .launch | .root _ => true | _ => false)).map fun w => (w.2.saveAt, w.2.saveFrames)) ++
    (match c.2.program with | some g => if g.ctx = x then [(g.saveAt, g.saveFrames)] else [] | none => [])

/-- A run of `need` frames in a context's save area that touches no run reserved: the lowest. -/
def saveFit (s : State) (x need : Nat) (also : List (Nat × Nat)) : Option Nat :=
  let par := (s.ctx x).par
  let used := saveUsed s x ++ also
  ((List.range (par.saveFrames.toNat + 1 - need)).map (par.saveFirst.toNat + ·)).find? fun f =>
    decide (need ≤ par.saveFrames.toNat) && used.all fun u => decide (f + need ≤ u.1) || decide (u.1 + u.2 ≤ f)

/-- The image of the program loaded on a partition. -/
def partImg (s : State) (p : Nat) : Img := qImg s (((bitsOf 128 (s.part p).quires.toNat).head?).getD 0)

/-- Where the save space of a work lies: its own run, or the run of its program. -/
def withSave (s : State) (p : Nat) (w : Work) : Option Work :=
  match w.kind with
  | .launch | .root _ =>
    let need := saveNeed (imLiveMax (partImg s p)) w.want
    (saveFit s w.ctx need []).map fun f => { w with saveAt := f, saveFrames := need }
  | _ =>
    match (s.part p).program with
    | some g => some { w with saveAt := g.saveAt, saveFrames := g.saveFrames }
    | none => none

/-! Starting a walk (R161, R191, R276, R483, R486) -/

/-- Entry of a roster for a branch (R188). -/
def rosterEntry (b : Nat) (B : Branch) : List Byte :=
  leBytes 32 (at_ 0 18 b + at_ 18 12 B.group.toNat + at_ 30 1 (b2n B.seqMode) + at_ 32 16 B.depth.toNat +
    at_ 48 16 B.seqIndex.toNat + at_ 64 24 B.stream.toNat + at_ 96 19 B.pageList.toNat + at_ 115 12 B.pageCount.toNat +
    at_ 128 16 B.tailFill.toNat)

/-- Streams that an earlier context has left on a core go back to HOME before the next starts (R270, R276). -/
def vacate (s : State) (c : Nat) : State :=
  (residentOn s c).foldl (fun s id =>
    let s1 := releaseStream s id
    if eState (strGet s1 id) = 4 then toIdle s1 id else s1) s

/-- A core starts a walk for a context: cleared under R161, its sampler seeded (R215, R486). -/
def startCore (s : State) (c p slot x : Nat) : State :=
  let s1 := clearCore (vacate s c) c
  let (v, s2) := s1.draw
  s2.modCore c fun y => { y with part := p + 1, slot := slot + 1, ctx := x, genKey := v, genCtr := 0, genWord := 0 }

/-- The layer entries that stay in the quire store (R190). -/
def residentLayers (im : Img) : List Nat := (List.range (imLayers im)).filter fun j => lResident (imLayer im j)

/-- The prefetcher of a quire begins with the walk; RESIDENT entries have landed at load. -/
def startQuire (s : State) (q x : Nat) : State :=
  let res := residentLayers (qImg s q)
  s.modQuire q fun y => { y with started := 0, issued := [], landed := res, layerCtx := x }

/-- The task header of a quire (R483). -/
def taskHeader (w : Work) (slot rank count : Nat) : List Byte :=
  let n := popCount 128 w.quires.toNat
  lineBytes (mkLine ([(0, 4, w.taskNo.toNat), (4, 1, slot), (5, 1, n - 1), (6, 1, rank), (8, 2, count), (10, 2, w.ctx)]
    ++ [(16, 32, leNat w.args)]))

/-- Roster entry 0 of a root or a rebuild task (R188, R308, R483). -/
def taskEntry (s : State) (w : Work) : Option (List Byte) :=
  match w.kind with
  | .root g => let b := (s.group g).root
               some (rosterEntry b (s.branch b))
  | .rebuild page =>
    let r := s.vat.active.cells.findSome? fun c => match c.2 with | some r => if r.page = page then some r else none | none => none
    r.map fun r => rosterEntry 0 { (default : Branch) with
      pageList := BitVec.ofNat 19 r.work, pageCount := BitVec.ofNat 12 ((s.page page).kidx.toNat + 2) }
  | _ => none

/-- A task starts on the quires given, in a task slot (R482, R483, R486). -/
def startTask (s : State) (p slot : Nat) (w0 : Work) (qs : List Nat) : State :=
  let w := { w0 with
    st := .running, quires := BitVec.ofNat 128 (qs.foldl (fun v q => v + 2 ^ q) 0), started := s.arm.ticket }
  let entry := taskEntry s w
  let s0 : State := { s with arm := { s.arm with ticket := s.arm.ticket + 1 } }
  let s1 := s0.modPart p fun P =>
    { P with waiting := P.waiting.filter (·.order != w.order), works := P.works.set slot w }
  let s2 := qs.foldl (fun s q =>
    let rank := (firstIdx (· == q) qs).getD 0
    let s1 := qsrWrite s q 0x3BFFC0 (taskHeader w slot rank (b2n entry.isSome)) 0
    let s2 := match entry with | some b => qsrWrite s1 q 0x3C0000 b 0 | none => s1
    startQuire s2 q w.ctx) s1
  let s3 := (coresOf w.quires).foldl (fun s c => startCore s c p slot w.ctx) s2
  let s4 := if w.kind = .launch then armWrite s3 (w.block + 50) [1] w.ctx else s3
  s4.radd Reg.plnTasksStarted 1

/-! Requesting a preemption (R183, R491, R494) -/

/-- Request the preemption of a running work: EPOCH raised, its cores told (R183, R492 step 1). -/
def requestPreempt (s : State) (p slot : Nat) : State :=
  let w := (s.part p).works.get slot
  if w.st ≠ .running then s else
  let s1 := s.modPart p fun P => { P with works := P.works.set slot { w with st := .preempting, asked := s.now } }
  let s2 := (bitsOf 128 w.quires.toNat).foldl (fun s q => s.modQuire q fun y =>
    { y with ctrs := (List.range 16).foldl (fun m k => m.mod k fun t => { t with epoch := t.epoch + 1 }) y.ctrs }) s1
  (coresOf w.quires).foldl (fun s c => s.modCore c fun y =>
    { y with preempt := true, cheapAt := 0, spilled := false }) s2

/-- Some preemption of the partition is under way. -/
def preempting (P : Part) : Bool := P.works.cells.any fun c => c.2.st = .preempting

/-- The shortest prefix of a list of victims after which `enough` holds. -/
def victimsFor (enough : List Nat → Bool) : List Nat → List Nat → Option (List Nat)
  | taken, [] => if enough taken then some taken else none
  | taken, v :: rest => if enough taken then some taken else victimsFor enough (taken ++ [v]) rest

/-- The running work to preempt, by slot, for a waiting work that has its task slot and its save space and lacks
quires; none when nothing is to be preempted (R494) (DEDUCED, log 65). -/
def victimsOf (s : State) (p : Nat) (w : Work) : Option (List Nat) :=
  let P := s.part p
  if preempting P || (taskSlot P w).isNone || (withSave s p w).isNone then none else
  (victimsFor (fun gone => decide (w.want ≤ (freeQuires s p w none gone).length)) [] ((outranked P w).map (·.1))).filter
    fun vs => !vs.isEmpty

/-- Preempt outranked running work until the quires of a waiting work suffice, when they can (R494)
(DEDUCED, log 65). -/
def makeRoom (s : State) (p : Nat) (w : Work) : State :=
  ((victimsOf s p w).getD []).foldl (fun s k => requestPreempt s p k) s

/-- Preempt outranked running work that holds quires of the slot owner's preempted work (R490). -/
def clearWay (s : State) (p slot : Nat) : State :=
  let P := s.part p
  let w := P.works.get slot
  let vs := ((outranked P w).filter fun c => (c.2.quires &&& w.quires) != 0).map (·.1)
  if preempting P ∨ !(bitsOf 128 w.quires.toNat).all fun q => (freeQuires s p w (some slot) vs).contains q then s
  else vs.foldl (fun s k => requestPreempt s p k) s

/-- The slot owner's ready work takes its quires from other work (R490). -/
def serveOwner (s : State) (p : Nat) : State :=
  let P := s.part p
  if slotOwner P = 0 then s else
  let back := P.works.cells.filter fun c => c.2.ctx == slotOwner P && c.2.st = .preempted && !c.2.held
  let s1 := back.foldl (fun s c => clearWay s p c.1) s
  match P.waiting.find? (·.ctx == slotOwner P) with
  | some w => makeRoom s1 p w
  | none => s1

/-! TASK_LAUNCH (R482) -/

/-- A launch refused with nothing written to its block. -/
def refuseQuietly (s : State) : State := s.ror Reg.plnSchedStatus 0x41

/-- A launch refused with STATUS and ENDED written. -/
def refuseLaunch (s : State) (x a status : Nat) : State :=
  let s1 := armWrite s (a + 48) (leBytes 2 status) x
  (armWrite s1 (a + 50) [2] x).ror Reg.plnSchedStatus 1

/-- The partition whose program a handle names now (R459). -/
def handlePart (s : State) (h : Nat) : Option Nat :=
  match (s.part (h % 128)).program with
  | some g => if g.handle.toNat = h ∧ (s.part (h % 128)).st = .ready then some (h % 128) else none
  | none => none

/-- A program's quire-store data reaches the task header and roster entry 0 (R483). -/
def reachesHeader (im : Img) (len : Nat) : Bool := im 40 4 != 0 && decide (0x3BFFC0 < roundUp len 4096 + im 40 4)

/-- Queue a task on a partition (R481, R486) (DEDUCED, log 65). -/
def queueWork (s : State) (p : Nat) (w : Work) : State :=
  let n := s.arm.launches + 1
  let w1 := { w with st := .waiting, order := s.arm.ticket, taskNo := n }
  { s with arm := { s.arm with ticket := s.arm.ticket + 1, launches := n } }.modPart p fun P =>
    { P with waiting := P.waiting ++ [w1] }

/-- Why a launch whose block was read is refused; none: it is accepted. -/
def launchStatus (s : State) (v : Nat) : Option Nat :=
  let x := fld v 16 12
  let n := fld v 32 7 + 1
  if fld v 28 4 ≠ 0 ∨ fld v 39 89 ≠ 0 then some stInvalid else
  match handlePart s (fld v 0 16) with
  | none => some stInvalid
  | some p =>
    let P := s.part p
    if P.program.any (·.isStep) || P.program.any (fun g => reachesHeader (partImg s p) g.bytes) || decide (popCount 128 P.quires.toNat < n) then some stInvalid
    else if (s.ctx x).st ≠ .active ∨ !(s.ctx x).par.partitions.getLsbD p then some stDenied
    else if 64 ≤ P.waiting.length ∨ (saveFit s x (saveNeed (imLiveMax (partImg s p)) n) []).isNone then some stNoResource
    else none

/-- TASK_LAUNCH: an 8-byte write of a launch block's address to PLN_TASK_LAUNCH. -/
def launch (s : State) (a : Nat) : State :=
  if !s.rbit Reg.plnReady 1 then s
  else if a % 64 ≠ 0 ∨ 2 ^ 48 ≤ a then refuseQuietly s
  else
    let readable := match region a with
      | .stacked _ => !anyGone s a 64
      | .companion o => decide (o + 64 ≤ compLimit s)
      | _ => false
    if !readable || areaPoisoned s a 48 then refuseQuietly s else
    let s1 := cacheRead s a 48
    let v := s1.rdN a 48
    let x := fld v 16 12
    let rights := match region a with | .stacked _ => mayReach s1 x a 64 true true | _ => true
    if !rights then refuseQuietly s1 else
    match launchStatus s1 v with
    | some st => refuseLaunch s1 x a st
    | none =>
      queueWork s1 (fld v 0 7) { (default : Work) with
        kind := .launch, ctx := x, want := fld v 32 7 + 1, high := (s1.ctx x).par.high, block := a
        args := leBytes 32 (fld v 128 256), handle := BitVec.ofNat 16 (fld v 0 16) }

def execTaskLaunch (addr : BitVec 64) (s : State) : Host.Outcome State Fault Refusal := .next (launch s addr.toNat)

/-! TASK_START (R485, R486, R494) -/

/-- The first waiting task of a rank; one that does not fit holds back the later ones of its rank (R486). -/
def headOf (P : Part) (r : Nat) : Option Work := P.waiting.find? fun w => rankOf P w == r

/-- What a waiting task would start with: slot, quires and save space (R485, R493) (DEDUCED, log 65). -/
def startWith (s : State) (p : Nat) (w : Work) : Option (Nat × List Nat × Work) :=
  let free := freeQuires s p w none []
  match taskSlot (s.part p) w, withSave s p w with
  | some k, some w1 => if w.want ≤ free.length then some (k, free.take w.want, w1) else none
  | _, _ => none

/-- The slot owner received its quires after half its DURATION (R502). -/
def markLate (s : State) (p : Nat) (w : Work) : State :=
  let P := s.part p
  match P.table[P.slot]? with
  | some e => if rankOf P w = 2 ∧ e.1.toNat < 2 * (P.cycle - P.slotAt).toNat then s.ror Reg.plnSchedStatus 0x10 else s
  | none => s

/-- The next `n` pages of a group's root, its state page first: pinned, and listed in the state page (R25, R293)
(DESIGN CHOICE, log 39). -/
def rootPages (x p root : Nat) : Nat → State → State × Got
  | 0, s => (s, .ok 0)
  | n + 1, s =>
    match allocPage s x 2 true false none (partDies s p) with
    | (s1, .ok pg) =>
      let b := s.branch root
      let s2 := if b.pageCount = 0 then
          (setListEntry s1 pg 4095 pg).modBranch root fun b => { b with pageList := BitVec.ofNat 19 pg }
        else setListEntry s1 b.pageList.toNat (b.pageCount.toNat - 1) pg
      rootPages x p root n (s2.modBranch root fun b => { b with pageCount := b.pageCount + 1, la := b.la - 1 })
    | (s1, g) => (s1, g)

/-- The stream of a root (R21, R260): IDLE, its image zero in the root's state page (R261). -/
def rootStream (s : State) (g : Nat) : State :=
  let G := s.group g
  match (s.part G.part).program with
  | none => s
  | some r =>
    let n := r.stRows.toNat * r.stCG.toNat
    let a := (s.page (s.branch G.root).pageList.toNat).frame.toNat * 0x200000 + r.stOff.toNat
    let head := leBytes 16 (at_ 0 24 G.root + at_ 32 5 r.stCG.toNat + at_ 40 4 r.stRows.toNat + at_ 56 6 r.stRenorm.toNat)
    let s1 := s.devWr a (head ++ List.replicate n 127)
    strPut s1 G.root (mkStr 1 G.ctx r.stCG.toNat r.stRows.toNat r.stRenorm.toNat 0 r.stOff.toNat 0)

/-- What a task needs before it starts: a root task its group's pages (R25, R300), other work nothing
(DESIGN CHOICE, log 39). -/
def preparePages (s : State) (w : Work) : State × Got :=
  match w.kind with
  | .root g =>
    let G := s.group g
    match rootPages w.ctx G.part G.root (s.branch G.root).la s with
    | (s1, .ok _) => (rootStream s1 g, .ok 0)
    | r => r
  | _ => (s, .ok 0)

/-- No frame can be had for a root: its task does not run, and the group's result carries VAT_FULL (R26). -/
def rootRefused (s : State) (p : Nat) (w : Work) : State :=
  let s1 := s.modPart p fun P => { P with waiting := P.waiting.filter (·.order != w.order) }
  match w.kind with
  | .root g => s1.modGroup g fun G => { G with formed := true, status := BitVec.ofNat 16 stVatFull }
  | _ => s1

/-- TASK_START: the waiting task of highest rank that fits starts; when none does, work that outranks others makes
room. A start waits while the entropy source fails (R519). -/
def execTaskStart (p : PartId) (s : State) : Host.Outcome State Fault Refusal :=
  let P := s.part p.val
  let heads := [2, 1, 0].filterMap (headOf P)
  if P.st ≠ .ready ∨ s.wmk.entropy ≠ .healthy then .next s else
  match heads.findSome? fun w => (startWith s p.val w).map fun k => (w, k) with
  | some (w, k, qs, w1) =>
    match preparePages s w with
    | (s1, .ok _) => .next (startTask (markLate s1 p.val w) p.val k w1 qs)
    | (s1, .wait) => .next s1
    | (s1, .full) => .next (rootRefused s1 p.val w)
  | none =>
    match heads.find? fun w => (victimsOf s p.val w).isSome with
    | some w => .next (makeRoom s p.val w)
    | none => .next s

/-! TASK_END (R481) -/

/-- A core leaves the work it ran. A core that ends a step walk keeps its store for the next one (DEDUCED, log 18). -/
def releaseCore (s : State) (c slot : Nat) : State :=
  s.modCore c fun y =>
    { y with
      part := 0, slot := slot, preempt := false, cheapAt := 0, spilled := false, walkers := [], hold := .none, replay := []
      openItems := [], pos := 0, ended := false, layer := 0, stalls := 0, noticed := false }

/-- Every core of a work has ended its walk. -/
def allEnded (s : State) (w : Work) : Bool := (coresOf w.quires).all fun c => (s.core c).ended

/-- The PREEMPT command that waits for a work is answered once no other work keeps it waiting (R491). -/
def answerPreempt (s : State) (w : Work) : State :=
  match w.waiter with
  | none => s
  | some a =>
    if s.arm.parts.cells.any fun P => P.2.works.cells.any fun k => k.2.waiter == some a && k.2.st = .preempting then s
    else respond s a.1 a.2 okAns

/-- TASK_END: every core of a task's quires has ended the walk. -/
def execTaskEnd (p : PartId) (slot : Fin 17) (s : State) : Host.Outcome State Fault Refusal :=
  let w := (s.part p.val).works.get slot.val
  if slot.val = 16 ∨ !w.busy ∨ !allEnded s w then .next s else
  let s1 := endLaunch s w stOk 0
  let s2 := (coresOf w.quires).foldl (fun s c => releaseCore s c 0) s1
  let s3 := s2.modPart p.val fun P => { P with works := P.works.set slot.val default }
  let base := (p.val * 17 + slot.val) * 4096
  let s4 := answerPreempt { s3 with saved := s3.saved.clear base (base + 4096) } w
  .next (match w.kind with
    | .root g => s4.modGroup g fun G => { G with formed := true }
    | .rebuild page =>
      let mark (r : Rebuild) : Rebuild := if r.page = page then { r with walked := true } else r
      { s4 with vat := { s4.vat with active := s4.vat.active.mapAll fun _ r => r.map mark } }
    | _ => s4)

/-! SLOT_BOUNDARY (R489, R490) -/

/-- SLOT_BOUNDARY: the next slot of the cycle table begins; a table that replaces another starts with the period. -/
def execSlotBoundary (p : PartId) (s : State) : Host.Outcome State Fault Refusal :=
  let P := s.part p.val
  if P.table.isEmpty then .next s else
  let wrap := decide (P.table.length ≤ P.slot + 1)
  let P1 := { P with
    slot := if wrap then 0 else P.slot + 1
    table := if wrap && !P.tableNext.isEmpty then P.tableNext else P.table
    tableNext := if wrap then [] else P.tableNext
    slotAt := P.cycle }
  .next (serveOwner (s.modPart p.val fun _ => P1) p.val)

/-! The spill (R162, R187, R194, R195, R276, R492) -/

/-- The slot table of a core, 8 bytes an entry (R145). -/
def slotTable (C : Core) : List Byte :=
  (List.range 64).flatMap fun k =>
    let v := C.slots.get k
    leBytes 8 (at_ 0 13 v.base.toNat + at_ 13 13 v.lines.toNat + at_ 26 4 v.readers.toNat + at_ 30 1 (b2n v.full) +
      at_ 31 1 (b2n v.defined) + at_ 32 4 v.remain.toNat)

/-- A slot entry from its 8 bytes. -/
def slotFrom (v : Nat) : Slot :=
  { base := BitVec.ofNat 13 v, lines := BitVec.ofNat 13 (fld v 13 13), readers := BitVec.ofNat 4 (fld v 26 4)
    full := bit v 30, defined := bit v 31, remain := BitVec.ofNat 4 (fld v 32 4) }

/-- Fields of a live range (R195): store, array, start and length. -/
def vStore (v : Nat) : Nat := fld v 0 2
def vArray (v : Nat) : Nat := fld v 2 2
def vStart (v : Nat) : Nat := fld v 4 19
def vLength (v : Nat) : Nat := fld v 32 32

/-- The live ranges of a cheap point; program start and program end have none. -/
def liveRanges (im : Img) (cheapAt : Nat) : List Nat :=
  if cheapAt = 0 then [] else
  let l := imLive im (cheapAt - 1)
  (List.range (fld l 16 16)).map fun i => imRange im (fld l 0 16 + i)

/-- First word of an accumulator range, in the numbering of MmaSt.acc. -/
def accWord (v i : Nat) : Nat := (vArray v * 128 + vStart v) * 16 + i

/-- The bytes of a live range of a core. -/
def rangeBytes (s : State) (c v : Nat) : List Byte :=
  match vStore v with
  | 0 => s.rd (spdAddr c (vStart v)) (vLength v)
  | 1 => (List.range (vLength v)).map fun i =>
      BitVec.ofNat 8 (((s.core c).mma.acc.get (accWord v (i / 4))).toNat / 256 ^ (i % 4))
  | _ => s.rd (stsAddr c (vStart v)) (vLength v)

/-- Some byte of a live range is poisoned. -/
def rangePoison (s : State) (c v : Nat) : Bool :=
  match vStore v with
  | 0 => anyPoison s (spdAddr c (vStart v)) (vLength v)
  | 1 => false
  | _ => anyPoison s (stsAddr c (vStart v)) (vLength v)

/-- Rank of a quire in a work (R473). -/
def quireRank (w : Work) (q : Nat) : Nat := (firstIdx (· == q) (bitsOf 128 w.quires.toNat)).getD 0

/-- Where a core's spill lies, and where the counters of its quire lie (R493). -/
def spillAt (s : State) (p : Nat) (w : Work) (c : Nat) : Nat :=
  let l := imLiveMax (partImg s p)
  w.saveAt * 0x200000 + quireRank w (c / 32) * shareBytes l + c % 32 * spillBytes l
def countersAt (s : State) (p : Nat) (w : Work) (q : Nat) : Nat :=
  let l := imLiveMax (partImg s p)
  w.saveAt * 0x200000 + (quireRank w q + 1) * shareBytes l - 256

/-- `n` free values in a row, 8 bytes each. -/
def drawBytes : Nat → State → List Byte × State
  | 0, s => ([], s)
  | n + 1, s =>
    let (v, s1) := s.draw
    let (r, s2) := drawBytes n s1
    (leBytes 8 v.toNat ++ r, s2)

/-- Write a core's spill: the walk state, whose layout the spec does not give, the slot table, and the live ranges one
after another (R194) (DESIGN CHOICE, log 37). -/
def writeSpill (s : State) (a c : Nat) (ranges : List Nat) : State :=
  let (walk, s0) := drawBytes 32 s
  let s1 := s0.devWr a (walk ++ slotTable (s0.core c))
  (ranges.foldl (fun (acc : State × Nat) v =>
    (calWrite 1024 acc.1 acc.2 (rangeBytes acc.1 c v) (rangePoison acc.1 c v) false, acc.2 + vLength v)) (s1, a + 768)).1

/-- A walker other than the first has come to rest: it has nothing to walk, or waits for an empty slot (R187). -/
def drained (s : State) (c : Nat) (W : Walker) : Bool :=
  W.done ||
  match W.issue with
  | e :: _ =>
    match patchWord (coreImg s c) W e with
    | some d => match hCons d with | some k => !((s.core c).slots.get k).full | none => false
    | none => false
  | [] => false

/-- The core rests at a cheap point: the one after a CHEAP descriptor, or program start or end (R169, R187, R194), with
everything issued completed. -/
def atCheapPoint (s : State) (c : Nat) : Bool :=
  let C := s.core c
  let edge := C.walkers.isEmpty && (C.pos == 0 || decide (imDescs (coreImg s c) ≤ C.pos))
  (C.cheapAt != 0 || edge) && C.inflight.isEmpty && !(C.openItems.any fun o => o.walked && o.left == 0) &&
    C.hold = .none && (match C.walkers.head? with | some W => W.hold = .none | none => true) &&
    (C.walkers.drop 1).all (drained s c)

/-- CHEAP_POINT_SPILL: a core told to stop writes its spill at its cheap point. Its streams are released first, and
the spill waits for their write-backs. -/
def execCheapPointSpill (c : CoreId) (s : State) : Host.Outcome State Fault Refusal :=
  let n := c.val
  let C := s.core n
  let w := workOf s n
  if C.part = 0 ∨ w.st ≠ .preempting ∨ !C.preempt ∨ C.spilled ∨ !atCheapPoint s n then .next s else
  let s1 := flushWhere s n fun _ => true
  let s2 := (residentOn s1 n).foldl releaseStream s1
  if !(s2.core n).strSlots.cells.isEmpty then .next s2 else
  let p := partOf s n
  let s3 := writeSpill s2 (spillAt s p w n) n (liveRanges (coreImg s n) C.cheapAt)
  let key := (p * 17 + (C.slot - 1)) * 4096 + n
  let s4 : State := { s3 with saved := s3.saved.set key (s3.core n) }
  .next (s4.modCore n fun y => { y with spilled := true })

/-- The bound T_pre in plinth cycles (R491). -/
def preemptBound (s : State) (p : Nat) (w : Work) : Nat :=
  let im := partImg s p
  let f := max 1 (lowestClock s (bitsOf 128 w.quires.toNat))
  im 12 4 * 40 / f + imLiveMax im * 40 / (16 * f) + 3000

/-- Save a quire's work counters: VALUE, DONE and EPOCH, 16 bytes a counter (R492 step 4)
(DESIGN CHOICE, log 37). -/
def saveCounters (s : State) (a q : Nat) : State :=
  s.devWr a ((List.range 16).flatMap fun k =>
    let t := counterOf s q k
    leBytes 16 (t.value.toNat + at_ 32 32 t.done.toNat + at_ 64 16 t.epoch.toNat))

/-- PREEMPTION_COMPLETE: every core of the work has spilled; counters saved, quires released (R492). Whether an
excluded wait met the preemption is a free value. -/
def execPreemptionComplete (p : PartId) (slot : Fin 17) (s : State) : Host.Outcome State Fault Refusal :=
  let w := (s.part p.val).works.get slot.val
  if w.st ≠ .preempting ∨ !(coresOf w.quires).all fun c => (s.core c).spilled then .next s else
  let s1 := (bitsOf 128 w.quires.toNat).foldl (fun s q => saveCounters s (countersAt s p.val w q) q) s
  let s2 := (coresOf w.quires).foldl (fun s c => releaseCore s c 0) s1
  let (v, s3) := s2.draw
  let s4 := if preemptBound s p.val w < s.now - w.asked ∧ v.getLsbD 0 then s3.ror Reg.plnSchedStatus 8 else s3
  let s5 := (s4.modPart p.val fun P => { P with works := P.works.set slot.val { w with st := .preempted } }).radd
    Reg.plnPreempts 1
  .next ((answerPreempt s5 w).modPart p.val fun P =>
    { P with works := P.works.mod slot.val fun k => { k with waiter := none } })

/-! PROGRESS_NOTICE (R496) -/

/-- PROGRESS_NOTICE: a core's count of cycles without a completion has reached PROGRESS_COUNT. The second in a row
tears the context down when STALL_ACTION is set. -/
def execProgressNotice (c : CoreId) (s : State) : Host.Outcome State Fault Refusal :=
  let n := c.val
  let C := s.core n
  if C.part = 0 ∨ C.ended ∨ !(workOf s n).busy then .next s else
  let s1 := stallNotice (s.ror Reg.plnSchedStatus 2) 3 C.ctx (some n) 0
  let s2 := s1.modCore n fun y => { y with stalls := y.stalls + 1 }
  if (s.ctx C.ctx).par.stallAction ∧ 0 < C.stalls then
    .next (faultCtx (s2.ror Reg.plnSchedStatus 4) C.ctx Fc.stallTeardown (some n) 0)
  else .next s2

/-! Clearing, resetting and destroying a partition (R70, R71, R475, R499) -/

/-- Set or clear the closed ports of a set of quires (R71). -/
def setPorts (s : State) (quires : BitVec 128) (closed : Bool) : State :=
  { s with pkg := { s.pkg with portClosed := if closed then s.pkg.portClosed ||| quires else s.pkg.portClosed &&& ~~~quires } }

/-- The clearing of R70 on a set of quires: cores, stores, counters, combine units and hubs. What the device has
recorded of its banks stands (R163). -/
def clearQuires (s : State) (quires : BitVec 128) : State :=
  let s1 := (coresOf quires).foldl (fun s c => clearCore ((residentOn s c).foldl rollbackStream s) c) s
  (bitsOf 128 quires.toNat).foldl (fun s q =>
    let s1 := clearStore s (qsrAddr q 0) 0x400000
    s1.modQuire q fun y => { (default : Quire) with banks := y.banks, toTest := y.toTest }) s1

/-- Unload the program of a partition; the cores that walked it keep nothing, and its RELEASING branches no longer wait
for a roster close (R20, R460). -/
def unloadProgram (s : State) (p : Nat) : State :=
  let s1 := (coresOf (s.part p).quires).foldl (fun s c => if (s.core c).slot = 0 then s else clearCore (vacate s c) c) s
  let s2 : State := { s1 with roll := { s1.roll with branches := s1.roll.branches.mapAll fun _ B =>
    if B.part = p ∧ B.st = .releasing then { B with closed := true } else B } }
  s2.modPart p fun P => { P with program := none, step := 0, roster := [], boundaries := [], forking := [] }

/-- A rebuild program goes with its step program's (R460). -/
def unloadWithRebuild (s : State) (p : Nat) : State :=
  match (s.part p).program.bind (·.rebuildPart) with
  | some r =>
    let s1 := unloadProgram s p
    if ((s1.part r).program.bind (·.stepPart)) == some p then unloadProgram s1 r else s1
  | none => unloadProgram s p

/-- RESET_COMPLETE: the teardowns of R499 are complete and the clearing of R70 is done; the partition is READY again. -/
def execResetComplete (p : PartId) (s : State) : Host.Outcome State Fault Refusal :=
  let P := s.part p.val
  if P.st ≠ .resetting ∨ P.tearing.any fun x => (s.ctx x).st = .tearing then .next s else
  let s1 := unloadWithRebuild (clearQuires s P.quires) p.val
  let s2 := (setPorts s1 P.quires false).modPart p.val fun P =>
    { P with
      st := .ready, table := [], tableNext := [], slot := 0, works := ⟨[]⟩, waiting := [], resetters := [], tearing := []
      torn := 0 }
  .next (P.resetters.foldl (fun s r => respond s r.1 r.2 { status := stOk, result := [(16, 2, P.torn)] }) s2)

/-- A partition comes into being: cycle counter zero, quires cleared under R70 (R475). -/
def makePartition (s : State) (p : Nat) (quires : BitVec 128) : State :=
  (clearQuires s quires).modPart p fun P =>
    { (default : Part) with st := .ready, quires := quires, loadCount := P.loadCount }

/-- DESTROY_COMPLETE: the clearing is done and the partition is FREE; a recorded create takes effect (R475, R500). -/
def execDestroyComplete (p : PartId) (s : State) : Host.Outcome State Fault Refusal :=
  let P := s.part p.val
  if P.st ≠ .destroying then .next s else
  let s1 := (clearQuires s P.quires).modPart p.val fun P => { (default : Part) with loadCount := P.loadCount }
  let s2 := P.destroyers.foldl (fun s d => respond s d.1 d.2 okAns) s1
  .next (match P.recorded with | some q => makePartition s2 p.val q | none => s2)

end Sys2Proof.Machine
end

