-- ==== Sys2Proof/Machine/Views.lean ====
section
/-! DEFINITION. The bytes of the tables that software reads through the diagnostic windows (R464, R465, R582): branch
table, slot table, stream table, Vat map, frame records, remap tables, score stores, error ring and context records. -/

namespace Sys2Proof.Machine

/-- Coding of the branch states (R21, R30). -/
def BrSt.code : BrSt → Nat
  | .free => 0 | .root => 1 | .forking => 2 | .ready => 3 | .rostered => 4 | .scored => 5 | .finished => 6 | .releasing => 7

/-- A branch table entry (R21). -/
def branchBytes (B : Branch) : List Byte :=
  leBytes 32 (at_ 0 12 B.group.toNat + at_ 12 4 B.st.code + at_ 16 16 B.depth.toNat + at_ 32 16 B.seqIndex.toNat +
    at_ 48 1 (b2n B.seqMode) + at_ 64 32 B.score.toNat + at_ 96 24 B.stream.toNat + at_ 128 19 B.pageList.toNat +
    at_ 160 12 B.pageCount.toNat + at_ 172 16 B.tailFill.toNat + at_ 192 32 B.readySince.toNat +
    at_ 224 32 B.firstAction.toNat)

/-- Coding of the page states (R288, R289). -/
def PageSt.code : PageSt → Nat
  | .free => 0 | .live => 1 | .copying => 2 | .dropped => 3 | .rebuilding => 4 | .exporting => 5 | .exported => 6
  | .importing => 7 | .retired => 8 | .moving => 9

/-- A Vat map entry (R288). -/
def vatBytes (e : VatEnt) : List Byte :=
  leBytes 16 (at_ 0 20 (if e.st = .exporting then e.other else e.frame.toNat) + at_ 20 4 e.st.code + at_ 24 2 e.cls.toNat +
    at_ 26 1 (b2n e.pin) + at_ 27 1 (b2n e.held) + at_ 28 1 (b2n e.comp) + at_ 29 2 e.dtslot.toNat +
    at_ 31 1 (b2n e.srcValid) + at_ 32 16 e.refcnt.toNat + at_ 48 16 e.age.toNat + at_ 64 12 e.owner.toNat +
    at_ 80 19 e.srcPage.toNat + at_ 99 12 e.kidx.toNat + at_ 111 10 e.layer.toNat + at_ 121 3 e.lastDie.toNat)

/-- An index entry of a frame record (R340). -/
def indexWord (e : IndexEnt) : Nat :=
  let code := match e.code with | .raw => 0 | .zero => 1 | .zrun => 2 | .table => 3
  at_ 0 2 code + at_ 2 3 e.units.toNat + at_ 5 12 e.length.toNat + at_ 17 1 (b2n e.poison) + at_ 18 1 (b2n e.sealed)

/-- A frame record (R339). -/
def frecBytes (r : FrameRec) : List Byte :=
  leBytes 64 (at_ 0 12 r.keyCtx.toNat + at_ 16 2 r.dtslot.toNat + at_ 18 1 (b2n r.recode) + at_ 19 1 (b2n (r.cblocks != 0)) +
    at_ 32 10 r.tblocks + at_ 48 10 r.cblocks) ++
  (List.range 512).flatMap fun i => leBytes 4 (indexWord (r.blocks.get i))

/-- A remap table entry (R375). -/
def remapBytes (e : RemapEnt) : List Byte :=
  leBytes 8 (at_ 0 5 e.pc.toNat + at_ 5 6 e.bank.toNat + at_ 11 16 e.row.toNat + at_ 27 1 (b2n e.valid) +
    at_ 28 1 (b2n e.prot) + at_ 32 12 e.spare.toNat + at_ 44 4 e.moves.toNat)

/-- A score store entry (R322). -/
def scoreBytes (e : ScoreEnt) : List Byte :=
  leBytes 16 (at_ 0 32 e.score.toNat + at_ 32 32 e.keepP.toNat + at_ 64 12 e.group.toNat + at_ 76 1 (b2n e.live) +
    at_ 77 1 (b2n e.finished))

/-- An error ring entry (R580). -/
def ringBytes (e : ErrEntry) : List Byte :=
  let cls := match e.cls with | .transient => 0 | .permanent => 1 | .fault => 2 | .event => 3
  leBytes 64 (at_ 0 32 e.seq.toNat + at_ 32 16 e.kind.toNat + at_ 48 2 cls + at_ 50 1 (b2n e.interrupting) +
    at_ 51 1 (b2n e.retiredUnit) + at_ 56 4 e.unitType.toNat + at_ 64 32 e.unit.toNat + at_ 96 12 e.ctx.toNat +
    at_ 112 16 e.rep.toNat + at_ 128 64 e.time.toNat + at_ 192 16 e.fault.toNat + at_ 224 160 e.detail.toNat +
    at_ 384 64 e.lastTime.toNat)

/-- A context record (R577). -/
def recordBytes (r : CtxRec) : List Byte :=
  leBytes 32 (at_ 0 32 r.mma.toNat + at_ 32 32 r.vec.toNat + at_ 64 32 r.att.toNat + at_ 96 32 r.sta.toNat +
    at_ 128 16 r.faults.toNat + at_ 144 16 r.lastFault.toNat + at_ 160 12 r.lastCore.toNat + at_ 192 32 r.notices.toNat)

/-- A slot table entry (R145). -/
def slotBytes (s : State) (c k : Nat) : List Byte := ((slotTable (s.core c)).drop (8 * k)).take 8

/-! Objects of a context (R458) -/

/-- The mailbox may name a partition. -/
def ownPart (s : State) (m x p : Nat) : Bool := m == 0 || (s.ctx x).par.partitions.getLsbD p

/-- The mailbox may name a group. -/
def ownGroup (s : State) (m x g : Nat) : Bool := m == 0 || ((s.group g).st != .free && (s.group g).ctx == x)

/-- The mailbox may name a core or a quire. -/
def ownQuire (s : State) (m x q : Nat) : Bool :=
  m == 0 || s.arm.parts.cells.any fun P => P.2.quires.getLsbD q && (s.ctx x).par.partitions.getLsbD P.1

/-- The mailbox may see a frame. -/
def ownFrame (s : State) (m x f : Nat) : Bool := m == 0 || (s.frec f).keyCtx.toNat == x

/-- The mailbox may see a branch. -/
def ownBranch (s : State) (m x b : Nat) : Bool :=
  m == 0 || ((s.branch b).st != .free && (s.ctx x).st != .free && ownPart s m x (s.branch b).part &&
    (s.part (s.branch b).part).program.any (·.ctx == x))

/-! Diagnostic targets (R465) -/

/-- Entries of a DIAG_READ target: their number, their size, and entry `i` as mailbox `m` sees it. -/
def diagTarget (s : State) (m x t : Nat) : Option (Nat × Nat × (Nat → List Byte)) :=
  let show_ (own : Bool) (n : Nat) (bs : List Byte) : List Byte := if own then bs else List.replicate n 0
  match t with
  | 1 => some (262144, 32, fun i => show_ (ownBranch s m x i) 32 (branchBytes (s.branch i)))
  | 2 => some (262144, 8, fun i => show_ (ownQuire s m x (i / 2048)) 8 (slotBytes s (i / 64) (i % 64)))
  | 3 => some (strCount s, 32, fun i => show_ (m == 0 || eOwner (strGet s i) == x) 32 (leBytes 32 (strGet s i)))
  | 4 => some (524288, 16, fun i => show_ (m == 0 || (s.page i).owner.toNat == x) 16 (vatBytes (s.page i)))
  | 5 => some (983040, 2112, fun i => show_ (ownFrame s m x i) 2112 (frecBytes (s.frec i)))
  | 6 => some (49152, 8, fun i => show_ (m == 0) 8 (remapBytes ((s.stack (i / 2048)).remap.get (i % 2048))))
  | 7 => some (262144, 16, fun i => show_ (ownBranch s m x i) 16 (scoreBytes (s.roll.scores.get i)))
  | _ => none

/-! Stack records (R465) -/

/-- Frames of a stack that have been retired or withdrawn (R313, R377), ascending. -/
def retiredFrames (s : State) (k : Nat) : List Nat :=
  let bound := (s.vat.bound.cells.filter fun c =>
    frameStack c.1 == k && c.2 != 0 && (s.page (c.2 - 1)).st = .retired).map (·.1)
  (s.vat.gone.filter fun f => frameStack f == k).foldl (fun acc f => insNat f acc) bound

/-- What STACK_STATUS writes for a stack: its record and its list. -/
def stackBytes_ (s : State) (m x k : Nat) : List Byte :=
  let fs := (retiredFrames s k).map fun f => if ownFrame s m x f then f else 0
  let word (off : Nat) : List Byte := leBytes 4 (readReg s off).toNat
  word (Reg.hbmTemp k) ++ word (Reg.hbmPcRetired k) ++ word (Reg.hbmPcEvac k) ++ word (Reg.hbmRemapUsed k) ++
    leBytes 4 fs.length ++ leBytes 4 0 ++ fs.flatMap (leBytes 4)

end Sys2Proof.Machine
end

