-- ==== Sys2Proof/Machine/Load.lean ====
section
/-! DEFINITION. What PROGRAM_LOAD checks in a program image (R167 to R169, R173, R175, R184, R186, R190, R191, R193,
R195, R246), in a key/value geometry record (R248), and the loading itself (R460). A check answers the image offset of
the first field found invalid. -/

namespace Sys2Proof.Machine

/-- The image at a device address. -/
def memImg (s : State) (a : Nat) : Img := fun off n => s.rdN (a + off) n

/-- The offset of a broken rule. -/
def brk (bad : Bool) (off : Nat) : Option Nat := if bad then some off else none

/-- The first rule broken. -/
def firstBrk (l : List (Option Nat)) : Option Nat := l.findSome? id

/-! The header (R168, R169) -/

/-- Where the sections lie beyond the image: the header field that places the first one that does (R169). -/
def sectionBrk (im : Img) (len : Nat) : Option Nat :=
  firstBrk [brk (decide (len < imNestOff im)) 8, brk (decide (len < imPatchOff im)) 24, brk (decide (len < imLayerOff im)) 32,
    brk (decide (len < imLiveOff im)) 26, brk (decide (len < imRangeOff im)) 28, brk (decide (len < imEnd im)) 36]

/-- A header field breaks its range. -/
def headerBrk (im : Img) : Option Nat :=
  let plan := im 20 2
  firstBrk [brk (im 0 4 != 0x444B4C31) 0, brk (im 4 2 != 1) 4, brk (im 6 2 / 2 != 0) 6,
    brk (im 8 4 == 0 || decide (16383 < im 8 4)) 8, brk (im 12 4 == 0) 12,
    brk (if imStep im then plan == 0 || decide (8192 < plan) else plan != 0) 20,
    brk (decide (31 < im 22 1)) 22, brk (decide (4 < im 23 1)) 23, brk (decide (256 < imNests im)) 24,
    brk (decide (1023 < imLayers im)) 26, brk (imLives im == 0 || decide (16383 < imLives im)) 28, brk (im 30 2 != 0) 30,
    brk (decide (65535 < imPatches im)) 32, brk (decide (65535 < imRanges im)) 36, brk (im 44 20 != 0) 44]

/-! Descriptors -/

/-- The nests that hold descriptor `i`. -/
def nestsOf (im : Img) (i : Nat) : List Nat :=
  (List.range (imNests im)).filter fun k =>
    decide (nFirst (imNest im k) ≤ i) && decide (i < nFirst (imNest im k) + nCount (imNest im k))

/-- Descriptor `i` breaks a load check (R169). -/
def descBrk (im : Img) (i : Nat) : Option Nat :=
  let w := imDesc im i
  firstBrk [brk ((nestsOf im i).isEmpty != (hLevel w == 0)) (64 + 64 * i),
    brk (hCheap w && decide (imLives im ≤ hLive w)) (68 + 64 * i)]

/-! Nest records (R173, R184, R186, R191, R246) -/

/-- An ORDER byte is a permutation of d0 to d3. -/
def orderOk (r lvl : Nat) : Bool := (List.range 4).all fun d => (orderOf r lvl).contains d

/-- The operation of some descriptor of a nest. -/
def nestHas (im : Img) (r : Nat) (p : Nat → Bool) : Bool := (List.range (nCount r)).any fun i => p (imDesc im (nFirst r + i))

/-- An EXPORT descriptor with TARGET = 1 (R246). -/
def exportsToQuire (w : Nat) : Bool := hClass w == 3 && hOp w == 2 && bit w 73

/-- Items of a nest at its planned extents (R186). -/
def plannedItems (r : Nat) : Nat := ceilDiv (nPlanned r (nDim r)) (max 1 (nTile r 3 (nDim r)))

/-- The nest and the one after it may form part of a fusion chain (R186). -/
def fuseOk (im : Img) (k : Nat) : Bool :=
  let r := imNest im k
  !nFuse r ||
    (decide (k + 1 < imNests im) && decide ((chainFrom im 4 k).length ≤ 4) &&
      !((List.range 4).all fun i => nFuse (imNest im (k + i)) && decide (k + i < imNests im)) &&
      (let n := imNest im (k + 1)
       nSplit r == nSplit n && nCores r == nCores n && plannedItems r == plannedItems n))

/-- Tile sizes of a nest: in range, and each dividing the one above it. -/
def tileBrk (r o : Nat) : Option Nat :=
  firstBrk ((List.range 12).map fun i =>
    let lvl := i / 4 + 1
    let d := i % 4
    brk (nTile r lvl d == 0 || (decide (lvl < 3) && nTile r (lvl + 1) d % nTile r lvl d != 0)) (o + 24 + 2 * i))

/-- Nest `k` breaks a load check; `prev` is the highest LAYER of the nests before it. -/
def nestBrk (im : Img) (k : Nat) : Option Nat :=
  let r := imNest im k
  let o := imNestOff im + 64 * k
  let before := (List.range k).map (imNest im)
  let overlaps := before.any fun p =>
    decide (nFirst p < nFirst r + nCount r) && decide (nFirst r < nFirst p + nCount p) && nCount p != 0 && nCount r != 0
  firstBrk [brk (nSplit r == 3 || nCores r == 3 || fld r 5 3 != 0 || !fuseOk im k) o,
    brk (fld r 30 2 != 0 || (nLayer r != 1023 && (decide (imLayers im ≤ nLayer r) ||
      before.any fun p => nLayer p != 1023 && decide (nLayer r < nLayer p)))) (o + 2),
    brk (!orderOk r 3) (o + 4), brk (!orderOk r 2) (o + 5), brk (!orderOk r 1) (o + 6), brk (fld r 56 8 != 0) (o + 7),
    tileBrk r o, brk (decide (imDescs im < nFirst r + nCount r) || overlaps) (o + 48), brk (fld r 432 16 != 0) (o + 54),
    brk (fld r 470 10 != 0) (o + 56),
    brk (decide (imPatches im < nPatchAt r + nPatchCount r)) (o + 60),
    brk (nSplit r == 2 && nestHas im r fun w => (hClass w == 5 && hOp w == 0 && bit w 68) || exportsToQuire w) o]

/-! Patch entries (R175, R176, R184) -/

/-- A patch entry has a reserved bit or code set. -/
def patchBrk (im : Img) (k : Nat) : Option Nat :=
  let p := imPatch im k
  let o := imPatchOff im + 8 * k
  brk (fld p 22 2 == 3 || fld p 30 2 != 0) o

/-- A patch entry breaks a rule as an entry of nest `r`; its bytes lie within 8 to 63 (DEDUCED, log 75). -/
def nestPatchBrk (im : Img) (r k : Nat) : Option Nat :=
  let p := imPatch im k
  let i := fld p 0 16
  let w := imDesc im i
  let o := imPatchOff im + 8 * k
  let inside := decide (nFirst r ≤ i) && decide (i < nFirst r + nCount r)
  let past := decide (fld p 16 6 < 8) || decide (64 < fld p 16 6 + 2 * 2 ^ fld p 22 2)
  brk (!inside || past || (fld p 26 2 == 1 && decide (fld p 28 2 ≤ hLevel w)) ||
    (fld p 26 2 != 3 && fld p 24 2 == nDim r && hClass w == 5 && hOp w == 0 && bit w 68)) o

/-! Layer entries, live lists and live ranges (R190, R193, R195) -/

/-- A layer entry breaks a load check; its range must be readable by the loading context. -/
def layerBrk (s : State) (x : Nat) (im : Img) (k : Nat) : Option Nat :=
  let v := imLayer im k
  let o := imLayerOff im + 16 * k
  let n := fld v 96 14
  firstBrk [brk (fld v 48 16 != 0 || !areaReadable s x (lSrc v) (max 1 (512 * n)) 1) o, brk (fld v 86 10 != 0) (o + 8),
    brk (n == 0 || decide (8192 < n) || fld v 110 2 != 0 || fld v 123 5 != 0 ||
      (lAfter v != 1023 && decide (imLayers im ≤ lAfter v))) (o + 12)]

/-- The sum of the LENGTH fields of a live list. -/
def liveSum (im : Img) (l : Nat) : Nat :=
  (List.range (fld l 16 16)).foldl (fun n i => n + vLength (imRange im (fld l 0 16 + i))) 0

/-- A live list breaks a load check. -/
def liveBrk (im : Img) (k : Nat) : Option Nat :=
  let l := imLive im k
  let o := imLiveOff im + 8 * k
  firstBrk [brk (decide (imRanges im < fld l 0 16 + fld l 16 16)) o, brk (fld l 32 32 != liveSum im l) (o + 4)]

/-- A live range has a reserved bit or code set. -/
def rangeBrk (im : Img) (k : Nat) : Option Nat :=
  let v := imRange im k
  brk (vStore v == 3 || fld v 23 9 != 0) (imRangeOff im + 8 * k)

/-- The largest spill that a live list implies (R195). -/
def largestSpill (im : Img) : Nat := (List.range (imLives im)).foldl (fun n k => max n (fld (imLive im k) 32 32)) 0

/-- The first rule of R169 that an image of `len` bytes breaks. -/
def imageBrk (s : State) (x : Nat) (im : Img) (len : Nat) : Option Nat :=
  match headerBrk im with
  | some o => some o
  | none =>
    match sectionBrk im len with
    | some o => some o
    | none =>
      firstBrk [brk (decide (imLiveMax im < 768 + largestSpill im)) 16, firstBrk ((List.range (imDescs im)).map (descBrk im)),
        firstBrk ((List.range (imNests im)).map (nestBrk im)), firstBrk ((List.range (imPatches im)).map (patchBrk im)),
        firstBrk ((List.range (imNests im)).flatMap fun k =>
          let r := imNest im k
          (List.range (nPatchCount r)).map fun i => nestPatchBrk im r (nPatchAt r + i)),
        firstBrk ((List.range (imLayers im)).map (layerBrk s x im)), firstBrk ((List.range (imLives im)).map (liveBrk im)),
        firstBrk ((List.range (imRanges im)).map (rangeBrk im))]

/-- The space of an image in the quire store (R168, R169). -/
def imageSpace (im : Img) (len : Nat) : Nat := roundUp len 4096 + im 40 4
def spaceOk (im : Img) (len : Nat) : Bool := decide (imageSpace im len ≤ if imStep im then 0x3BFFC0 else 0x400000)

/-! The step program's fields (R248, R318, R459) -/

/-- Bits of an element and bytes of a scale of a key/value format (R233, R234); none for a format not accepted. -/
def kvBits (fmt : Nat) : Option (Nat × Nat) :=
  match fmt with
  | 0x01 => some (16, 0)
  | 0x08 => some (8, 1)
  | 0x09 => some (8, 1)
  | 0x13 => some (4, 2)
  | _ => none

/-- Bytes that one position needs per layer, head and kind (R248). -/
def kvBytes (g : Nat) : Nat :=
  match kvBits (gFmt g) with
  | some (b, z) => gDim g * b / 8 + gDim g / 32 * z
  | none => 0

/-- The derived values of a geometry record: P and S_UNITS (R248). -/
def kvPage (g : Nat) : Nat := 0x200000 / (2 * gLayers g * gHeads g * 512) * 512 / max 1 (kvBytes g)
def kvUnits (g : Nat) : Nat := ceilDiv (2 * gLayers g * gHeads g * kvBytes g) 64

/-- The first field of a geometry record that breaks a rule, by its offset in the record. -/
def kvBrk (g : Nat) : Option Nat :=
  firstBrk [brk (gLayers g == 0 || fld g 10 6 != 0) 0, brk (gHeads g == 0 || decide (64 < gHeads g) || fld g 23 1 != 0) 2,
    brk (fld g 24 8 != 0) 3,
    brk (gDim g == 0 || decide (256 < gDim g) || fld g 41 7 != 0 || (gFmt g != 1 && gDim g % 32 != 0)) 4,
    brk ((kvBits (gFmt g)).isNone || fld g 53 3 != 0) 6, brk (fld g 56 8 != 0) 7,
    brk (decide (4096 < gPosStep g) || fld g 77 3 != 0) 8, brk (gPage g == 0 || gPage g != kvPage g) 10,
    brk (gUnits g != kvUnits g) 12]

/-- Fields of the load block (R459). -/
def lbKv (v : Nat) : Nat := bField v 16 128
def lbScore (v : Nat) : Nat := bField v 32 22
def lbCg (v : Nat) : Nat := bField v 36 5
def lbRows (v : Nat) : Nat := bField v 37 4
def lbRenorm (v : Nat) : Nat := bField v 38 6
def lbOff (v : Nat) : Nat := bField v 40 21
def lbRebuild (v : Nat) : Nat := bField v 48 48
def lbRebuildBytes (v : Nat) : Nat := bField v 56 21

/-- The first field of the block that a step program's rules find invalid, by its offset. -/
def stepBrk (im : Img) (len v : Nat) : Option Nat :=
  let score := lbScore v
  let off := lbOff v
  firstBrk [(kvBrk (lbKv v)).map (· + 16),
    brk (score % 4096 != 0 || decide (score < roundUp len 4096) || decide (imageSpace im len < score + 655360)) 32,
    brk (lbCg v == 0) 36, brk (lbRows v == 0 || decide (8 < lbRows v) || decide (31 < lbRows v * lbCg v)) 37,
    brk (off % 64 != 0 || decide (off < 16384) || decide (0x200000 < off + imageLen (lbCg v) (lbRows v))) 40]

/-! Loading (R139, R190, R459, R460) -/

/-- The load count after one more program (R459): 511 is passed over on partition 127, where the handle would read
0xFFFF. -/
def nextLoad (s : State) (p : Nat) : BitVec 9 :=
  let n := (s.part p).loadCount + 1
  if p = 127 ∧ n = 511 then n + 1 else n

/-- A handle (R459). -/
def mkHandle (p : Nat) (n : BitVec 9) : BitVec 16 := BitVec.ofNat 16 (p + 128 * n.toNat)

/-- Copy an image to every quire of a partition, load WREG_BANKS, and fetch the RESIDENT layers (R139, R167, R190). -/
def placeImage (s : State) (p a len : Nat) : State :=
  let bytes := s.rd a len
  let quires := bitsOf 128 (s.part p).quires.toNat
  quires.foldl (fun s q =>
    let s1 := qsrWrite s q 0 bytes 0
    let im := qImg s1 q
    let s2 := ((List.range 32).map (32 * q + ·)).foldl (fun s c => setWreg s c (imWreg im)) s1
    let s3 := (residentLayers im).foldl (fun s j => fetchLayer s q (imLayer im j)) s2
    s3.modQuire q fun y => { y with started := 0, issued := [], landed := residentLayers im }) s

/-- Load a program into a partition, with the save space at `save` (R459, R460, R493). -/
def loadProgram (s : State) (p a len : Nat) (save : Nat × Nat) (mk : Program → Program) : State :=
  let n := nextLoad s p
  (placeImage s p a len).modPart p fun P =>
    { P with
      loadCount := n, step := 0, roster := [], boundaries := [], forking := []
      program := some (mk { (default : Program) with handle := mkHandle p n, bytes := len, saveAt := save.1, saveFrames := save.2 }) }

end Sys2Proof.Machine
end

