-- ==== Sys2Proof/Machine/Rollout.lean ====
section
/-! DEFINITION. Rollout groups, branches and steps (chapter 01), the Trim unit (chapter 11), and the Vat's part in
forks, roster closes and the end of a group (chapter 10). -/

namespace Sys2Proof.Machine

/-! Branch identifiers (R17 to R19) -/

/-- The canonical NaN of FP32. -/
def nan32 : Word32 := 0x7FC00000
def one32 : Word32 := 0x3F800000

/-- The lowest number that is not listed. -/
def lowestGap {α : Type} (m : SMap α) : Nat := m.keys.foldl (fun n k => if k = n then n + 1 else n) 0

/-- Branch table entries in use or reserved (R19, R24). -/
def tableUsed (s : State) : Nat :=
  s.roll.branches.keys.length + s.roll.groups.cells.foldl (fun n g => n + g.2.reserved) 0

/-- Forks that the limits of R19 still allow a group. -/
def forkRoom (s : State) (g : Nat) : Nat := min (65536 - (members s g).length) (262144 - tableUsed s)

/-- Live branches in READY, FORKING or SCORED. -/
def hasWork (s : State) (g : Nat) : Bool :=
  (members s g).any fun b => (s.branch b).st = .ready || (s.branch b).st = .forking || (s.branch b).st = .scored

/-! The rollout record (R44, R45) -/

/-- A write of the Armature with the poison of its data (R586). -/
def markedWrite (s : State) (a : Nat) (bs : List Byte) (x : Nat) (bad : Bool) : State :=
  match region a with
  | .stacked _ => calWrite 1024 s a bs bad false
  | .companion _ => (linesOf a bs.length).foldl (fun s l => s.setPoison l (if bad then 2 + l else 0)) (compWrite s a bs x)
  | _ => s

/-- Append an entry to a group's record ring; the write index advances over it (R44). -/
def recordPut (s : State) (g : Nat) (bs : List Byte) (bad : Bool) : State :=
  let G := s.group g
  if !G.record then s else
  let n := 2 ^ G.ringLog
  let s1 := markedWrite s (G.ring + 64 + 64 * (G.recIdx.toNat % n)) bs G.ctx bad
  let next := (G.recIdx.toNat + 1) % n
  (armWrite s1 G.ring (leBytes 4 next) G.ctx).modGroup g fun G => { G with recIdx := BitVec.ofNat 32 next }

/-- Free entries of a group's record ring (R44). -/
def recordRoom (s : State) (g : Nat) : Nat :=
  let G := s.group g
  let n := 2 ^ G.ringLog
  n - 1 - (G.recIdx.toNat + n - s.rdN (G.ring + 4) 4 % n) % n

/-- The first 16 bytes of a record entry. -/
def recordHead (s : State) (b kind parent : Nat) (finished : Bool) : List Byte :=
  let B := s.branch b
  leBytes 16 (at_ 0 18 b + at_ 18 12 B.group.toNat + at_ 30 2 kind + at_ 32 18 parent + at_ 50 1 (b2n finished) +
    at_ 64 16 B.depth.toNat + at_ 96 32 (s.part B.part).step.toNat)

/-- A FORK or a PRUNE entry: what belongs to a step alone is not given for it, and is free. -/
def recordEvent (s : State) (b kind parent : Nat) : State :=
  let g := (s.branch b).group.toNat
  if !(s.group g).record then s else
  let (r, s1) := drawBytes 5 s
  recordPut s1 g (recordHead s1 b kind parent false ++ r.take 16 ++ leBytes 4 (s1.branch b).score.toNat ++
    leBytes 4 (s1.roll.scores.get b).keepP.toNat ++ (r.drop 16).take 24) false

/-! Forks (R26, R41, R298, R330) -/

/-- A fork of a BRANCH_FORK command is decided: its list entry is written, and the command is answered once every fork
of it is (R41, R462) (DEDUCED, log 45). -/
def forkDecided (s : State) (box sn idx status child : Nat) : State :=
  match (s.box box).inProg.find? (·.sn == sn) with
  | none => s
  | some ip =>
    let s1 := armWrite s (eField ip.entry 24 64 + 8 * idx + 4) (leBytes 4 (child + status * 2 ^ 28)) (eContext ip.entry)
    let bits := if status = stOk then setFld ip.bits.toNat idx 1 1 else ip.bits.toNat
    let waits := ip.waits.filter (· != idx)
    let s2 := modInProg s1 box sn fun p => { p with waits := waits, bits := BitVec.ofNat 256 bits }
    if waits.isEmpty then respond s2 box sn (bitmapAns (lineN ip.entry 18 2) bits false []) else s2

/-- A fork of a command has failed: the spec names no CHILD for it (DEDUCED, log 46). -/
def forkRefused (s : State) (box sn idx status : Nat) : State :=
  let (v, s1) := s.draw
  forkDecided s1 box sn idx status (v.toNat % 262144)

/-- A fork has been made: every frame it needs is there (R330, R332). -/
def forkMade (s : State) (id : Nat) : State :=
  let B := s.branch id
  let g := B.group.toNat
  let s1 := (forkWire s id (geomOf s B.part)).modGroup g fun G => { G with forks := G.forks + 1 }
  match B.origin with
  | .initial => s1
  | .policy => recordEvent
      ((s1.modGroup g fun G => { G with policyForks := G.policyForks + 1 }).radd Reg.trmForks 1) id 1 B.parent
  | .command box sn idx => forkDecided (recordEvent s1 id 1 B.parent) box sn idx stOk id

/-- No frame could be had for a fork: the child's entry is freed, and whoever asked hears of it (R26, R41, R330)
(DEDUCED, log 45). -/
def forkFailed (s : State) (id : Nat) : State :=
  let B := s.branch id
  let s1 := freeBranch (cancelCopies s id) id
  match B.origin with
  | .initial => s1.modGroup B.group.toNat fun G => { G with status := BitVec.ofNat 16 stVatFull }
  | .policy => (s1.ror Reg.trmStatus 0x20).radd Reg.trmForkFailed 1
  | .command box sn idx => forkRefused s1 box sn idx stVatFull

/-- Take the frames that a FORKING child still needs; the copies are of the bytes that stand there now. -/
def runFork (s : State) (id : Nat) : State :=
  match forkCopies (partDies s (s.branch id).part) 2 s id with
  | (s1, .ok _) => forkMade s1 id
  | (s1, .full) => forkFailed s1 id
  | (s1, .wait) => s1

/-- Create a child in FORKING and hand its fork to the Vat (R21, R298, R322). `seq` and `mode` are for an initial child. -/
def makeFork (s : State) (g parent : Nat) (origin : ForkFrom) (seq : Nat) (mode : Bool) : State :=
  let id := lowestGap s.roll.branches
  let G := s.group g
  let P := s.branch parent
  let first := decide (origin = .initial)
  let child : Branch := { (default : Branch) with
    st := .forking, group := BitVec.ofNat 12 g, part := G.part, parent := parent, origin := origin
    depth := if first then 0 else P.depth
    firstAction := if first then 0 else P.firstAction
    seqIndex := if first then BitVec.ofNat 16 seq else P.seqIndex
    seqMode := first && mode
    score := nan32
    stream := BitVec.ofNat 24 id
    pageCount := P.pageCount
    tailFill := P.tailFill
    need := forkSources s (geomOf s G.part) P }
  let ent : ScoreEnt := { score := nan32, keepP := one32, group := BitVec.ofNat 12 g, live := true, finished := false }
  let s1 := child.need.foldl (fun s p => s.modPage p fun e => { e with busy := e.busy + 1 }) s
  runFork { s1 with roll := { s1.roll with
    branches := s1.roll.branches.set id child, scores := s1.roll.scores.set id ent } } id

/-! Ending a group (R27, R28, R30) -/

/-- An FP32 word as a number that rises with its value, the two zeros alike (R323). -/
def rank32 (w : Word32) : Nat :=
  let v := w.toNat
  if v < 2 ^ 31 then 2 ^ 31 + v else 2 ^ 32 - v

/-- The word is a NaN. -/
def nanWord (w : Word32) : Bool := (ofW w).isNan

/-- Branches by descending SCORE, ties by ascending identifier (R28, R323); those given come in ascending order. -/
def ranked (s : State) (l : List Nat) : List Nat := sortBy (fun b => 2 ^ 33 - rank32 (s.branch b).score) l

/-- The best branch of a group (R28). -/
def bestBranch (s : State) (g : Nat) : Option Nat :=
  (ranked s ((members s g).filter fun b =>
    let B := s.branch b
    (B.st = .scored || B.st = .ready || B.st = .finished) && !nanWord B.score)).head?

/-- A branch leaves its group: its copies are cancelled, its pages handed to the release queue, its stream freed (R30,
R301, R331). -/
def releaseBranch (s : State) (b : Nat) : State :=
  let B := s.branch b
  let s1 := if B.need.isEmpty then
      releasePages (B.copies.foldl (fun s c => s.modPage c.2 fun e => { e with st := .live }) s) b
    else cancelCopies s b
  (freeStream s1 b).modBranch b fun x => { x with st := .releasing, copies := [], need := [], la := 0, closed := false }

/-- Answer the software forks of a group that will not be made (DEDUCED, log 45). -/
def refuseRequests (s : State) (g status : Nat) (rs : List ForkReq) : State :=
  let s1 := rs.foldl (fun s r => (List.range r.parents.length).foldl (fun s i => forkRefused s r.box r.sn i status) s) s
  s1.modGroup g fun G => { G with requests := G.requests.filter fun r => !rs.contains r }

/-- A child of a command that still waits for frames: its fork fails with its group (DEDUCED, log 45). -/
def refuseChild (s : State) (b : Nat) : State :=
  let B := s.branch b
  match B.need, B.origin with
  | _ :: _, .command box sn idx => forkRefused s box sn idx stVatFull
  | _, _ => s

/-- A group enters ENDING with a status of its own, or with 0 for none (R27, R28, R30). -/
def enterEnding (s : State) (g status : Nat) : State :=
  let G := s.group g
  let best := bestBranch s g
  let B := s.branch (best.getD 0)
  let st := if status ≠ 0 then status else if G.status ≠ 0 then G.status.toNat else if best.isSome then stOk else stFaulted
  let s1 := refuseRequests s g stInvalid G.requests
  let gone := (members s1 g).filter fun b =>
    (s1.branch b).st = .forking || (s1.branch b).st = .ready || (s1.branch b).st = .scored
  let s2 := gone.foldl (fun s b => releaseBranch (refuseChild s b) b) s1
  let s3 : State := { s2 with arm := { s2.arm with parts := s2.arm.parts.mapAll fun _ P =>
    { P with waiting := P.waiting.filter fun w => w.kind ≠ .root g, forking := P.forking.filter (·.1 != g) } } }
  s3.modGroup g fun G =>
    { G with
      st := .ending, reserved := 0, closing := false, status := BitVec.ofNat 16 st
      best := best.getD 0x3FFFF
      bestScore := if best.isSome then B.score else 0
      bestAction := if best.isSome then B.firstAction else 0
      bestDepth := if best.isSome then B.depth else 0 }

/-- A running group that holds nothing in SCORED, READY or FORKING enters ENDING (R27, R332)
(DEDUCED, log 46). -/
def endIfIdle (s : State) (g : Nat) : State :=
  if (s.group g).st = .running ∧ !hasWork s g ∧ !(members s g).any fun b => (s.branch b).st = .rostered then
    enterEnding s g 0
  else s

/-- ROOT_TASK_COMPLETE: the root task of a FORMING group has ended. Where the root's tail ends is the root program's
doing, and free; the initial forks are made, or the group ends (R26, R27, R297). -/
def execRootTaskComplete (g : GroupId) (s : State) : Host.Outcome State Fault Refusal :=
  let n := g.val
  let G := s.group n
  if G.st ≠ .forming ∨ !G.formed then .next s
  else if G.status ≠ 0 then .next (enterEnding s n 0)
  else
    let geom := geomOf s G.part
    let k := (s.branch G.root).pageCount.toNat - 1
    let (v, s0) := s.draw
    let f := if k = 0 then 0 else 1 + v.toNat % max 1 (gPage geom)
    let s1 := s0.modBranch G.root fun b => { b with tailFill := BitVec.ofNat 16 (f * gUnits geom) }
    let positions := (k - 1) * gPage geom + f
    if 4094 < ceilDiv (positions + G.horizon * gPosStep geom) (max 1 (gPage geom)) then .next (enterEnding s1 n stInvalid)
    else
      let s2 := s1.modGroup n fun G => { G with st := .running }
      let s3 := (List.range G.w0).foldl (fun s i =>
        makeFork (s.modGroup n fun G => { G with reserved := G.reserved - 1 }) n G.root .initial i (decide (i < G.seqCount))) s2
      .next (endIfIdle s3 n)

/-- FORK_COMPLETE: the copies of a FORKING child are complete and it is READY (R30, R298); a child that waits for a
frame tries again. -/
def execForkComplete (b : BranchId) (s : State) : Host.Outcome State Fault Refusal :=
  let n := b.val
  let B := s.branch n
  let g := B.group.toNat
  if B.st ≠ .forking then .next s
  else if B.need ≠ [] then .next (endIfIdle (runFork s n) g)
  else
    let s1 := B.copies.foldl (fun s c => settle (s.modPage c.2 fun e => { e with st := .live }) c.2) s
    .next ((s1.modBranch n fun x =>
      { x with st := .ready, copies := [], readySince := (s1.part B.part).step.setWidth 32 }).radd Reg.vatForks 1)

/-- The group result (R29) (DEDUCED, log 46). -/
def groupResult (g : Nat) (G : Group) : Nat :=
  at_ 0 16 G.status.toNat + at_ 16 12 g + at_ 32 18 G.best + at_ 64 32 G.bestScore.toNat + at_ 96 32 G.bestAction.toNat +
    at_ 128 16 G.bestDepth.toNat + at_ 160 32 G.boundaries.toNat + at_ 192 32 G.forks.toNat + at_ 224 32 G.pruned.toNat

/-- The root task of a group still runs somewhere. -/
def rootRuns (s : State) (g : Nat) : Bool :=
  s.arm.parts.cells.any fun P => P.2.works.cells.any fun w => w.2.kind = .root g

/-- The pages of a root are source pages no longer (R25, R301). -/
def unpinRoot (s : State) (root : Nat) : State :=
  (listPages s (s.branch root)).foldl (fun s p => settle (s.modPage p fun e => { e with pin := false }) p) s

/-- GROUP_END: no branch of an ENDING group is ROSTERED. The result is written, what is left of the group is released,
the notice is posted, and the group is FREE (R27, R301). -/
def execGroupEnd (g : GroupId) (s : State) : Host.Outcome State Fault Refusal :=
  let n := g.val
  let G := s.group n
  let mine := members s n
  if G.st ≠ .ending ∨ (mine.any fun b => (s.branch b).st = .rostered) ∨ rootRuns s n then .next s else
  let res := groupResult n G
  let s1 := armWrite s G.result (leBytes 32 res) G.ctx
  let s2 := mine.foldl releaseBranch s1
  let s3 := unpinRoot s2 G.root
  let s4 := freeBranch (freeStream s3 G.root) G.root
  let s5 := s4.modGroup n fun _ => default
  .next (postNotice s5 (noticeBox s5 G.ctx) (noticeLine 0xF001 stOk G.ctx [(16, 32, res)]))

/-- The partition idles under R35: the boundary work of its last step is done and no branch is READY. -/
def partIdle (s : State) (p : Nat) : Bool :=
  let P := s.part p
  !P.works.keys.contains 16 && P.boundaries.isEmpty && P.forking.isEmpty &&
    !s.roll.branches.cells.any fun c => c.2.part == p && c.2.st = .ready

/-- The rollout context of a partition is being torn down: the pages of its branches are released with it (R497). -/
def rollTearing (s : State) (p : Nat) : Bool := (s.part p).program.any fun g => (s.ctx g.ctx).st = .tearing

/-- BRANCH_FREE: a RELEASING identifier returns to the pool (R20). -/
def execBranchFree (b : BranchId) (s : State) : Host.Outcome State Fault Refusal :=
  let n := b.val
  let B := s.branch n
  if B.st = .releasing ∧ !rollTearing s B.part ∧ !(s.vat.refq.any (·.branch == n + 1)) ∧ (B.closed ∨ partIdle s B.part) then .next (freeBranch s n)
  else .next s

/-! The roster close (R33 to R38, R46, R295, R311, R321) -/

/-- READY branches of a partition in order of admission: READY_SINCE behind the step number `now`, group, identifier
(R35). -/
def readyOrder (s : State) (p : Nat) (now : Word32) : List Nat :=
  let l := s.roll.branches.cells.filter fun c => c.2.part == p && c.2.st = .ready
  (sortBy (fun c => (2 ^ 32 - (now - c.2.readySince).toNat) * 4096 + c.2.group.toNat) l).map (·.1)

/-- The groups whose record ring lacks room for what the close would let in of them (R46). -/
def noRecordRoom (s : State) (cap : Nat) (order : List Nat) (skip : List Nat) : Option Nat :=
  let adm := ((order.map fun b => (s.branch b).group.toNat).filter fun g => !skip.contains g).take cap
  (adm.foldl (fun acc g => insNat g acc) []).find? fun g =>
    (s.group g).record && decide (recordRoom s g < (adm.filter (· == g)).length + 2 * (members s g).length)

/-- The groups that a close skips (R46): found one at a time, since each gives its room to others. -/
def skippedGroups (s : State) (cap : Nat) (order : List Nat) : Nat → List Nat → List Nat
  | 0, skip => skip
  | n + 1, skip =>
    match noRecordRoom s cap order skip with
    | some g => skippedGroups s cap order n (insNat g skip)
    | none => skip

/-- Allocate the lookahead pages that a branch still lacks, and list them (R295). -/
def lookPages (x p b : Nat) : Nat → State → State × Got
  | 0, s => (s, .ok 0)
  | n + 1, s =>
    let B := s.branch b
    match allocPage s x 0 false false (some (homeDie s B)) (partDies s p) with
    | (s1, .ok pg) =>
      let s2 := setListEntry s1 B.pageList.toNat (B.pageCount.toNat - 1) pg
      lookPages x p b n (s2.modBranch b fun B => { B with pageCount := B.pageCount + 1, la := B.la + 1 })
    | (s1, g) => (s1, g)

/-- Give back the lookahead pages of a branch that is skipped (DEDUCED, log 44). -/
def dropLook (s : State) (b : Nat) : State :=
  let B := s.branch b
  let k := B.pageCount.toNat - 1
  let s1 := (List.range B.la).foldl (fun s i =>
    let j := k - 1 - i
    let pg := listEntry s B.pageList.toNat j
    freePage (setListEntry (s.modPage pg fun e => { e with held := false }) B.pageList.toNat j 0) pg) s
  s1.modBranch b fun B => { B with pageCount := B.pageCount - BitVec.ofNat 12 B.la, la := 0 }

/-- Lookahead for one branch (R295). Its list is written in its state page, which must hold a frame for that: an
exported one is imported first. -/
def lookBranch (s : State) (p x b : Nat) : State × Got :=
  let B := s.branch b
  let want := lookahead (geomOf s p) { B with pageCount := B.pageCount - BitVec.ofNat 12 B.la }
  if want ≤ B.la then (s, .ok 0)
  else
    match needFrame s B.pageList.toNat (partDies s p) with
    | (s1, .ok _) => lookPages x p b (want - B.la) s1
    | r => r

/-- How the choice of a roster ended: the branches admitted, those skipped for want of frames, or a wait for frames. -/
structure Choice where
  s : State
  admitted : List Nat
  lost : List Nat
  wait : Bool

/-- Admit branches in order up to the cap; a branch without frames for its lookahead is skipped (R35, R314)
(DEDUCED, log 44). -/
def admitBranch (p x cap : Nat) (skip : List Nat) (c : Choice) (b : Nat) : Choice :=
  if c.wait ∨ cap ≤ c.admitted.length ∨ skip.contains (c.s.branch b).group.toNat then c else
  match lookBranch c.s p x b with
  | (s1, .ok _) => { c with s := s1, admitted := c.admitted ++ [b] }
  | (s1, .wait) => { c with s := s1, wait := true }
  | (s1, .full) => { c with s := dropLook (s1.ror Reg.vatStatus 0x100) b, lost := c.lost ++ [b] }

/-- The quire that holds the results of roster entry `e`, and the index there (R318). -/
def scorePlace (P : Part) (e : Nat) : Nat × Nat :=
  let qs := bitsOf 128 P.quires.toNat
  (qs.getD (e % max 1 qs.length) 0, e / max 1 qs.length)

def scoreOff (P : Part) : Nat := match P.program with | some g => g.scoreOff.toNat | none => 0

/-- Clear VALID in the score entries of a roster of `n` (R320, R321). -/
def clearValid (s : State) (p n : Nat) : State :=
  let P := s.part p
  (List.range n).foldl (fun s e =>
    let (q, i) := scorePlace P e
    let a := scoreOff P + 16 * i + 8
    qsrWrite s q a [s.mem.get (qsrAddr q a) &&& 0xFE] 0) s

/-- Write the roster area in every quire of the partition (R188). -/
def writeRoster (s : State) (p : Nat) (roster : List Nat) : State :=
  let P := s.part p
  let head := leBytes 64 (at_ 0 64 P.step.toNat + at_ 64 16 roster.length)
  let body := roster.flatMap fun b => rosterEntry b (s.branch b)
  (bitsOf 128 P.quires.toNat).foldl (fun s q => qsrWrite (qsrWrite s q 0x3BFFC0 head 0) q 0x3C0000 body 0) s

/-- The pages of the admitted branches that are DROPPED or EXPORTED: their rebuilds and imports start, lowest entry first
(R311). -/
def fetchLists (s : State) (p : Nat) (roster : List Nat) : State :=
  roster.foldl (fun s b => (listPages s (s.branch b)).foldl (fun s pg => fetchPage s pg (partDies s p)) s) s

/-- The prefetcher of a quire goes on to the next step's entries (R191); RESIDENT entries stay landed. -/
def nextWalk (s : State) (q x : Nat) : State :=
  let im := qImg s q
  let L := imLayers im
  let res := residentLayers im
  let shift (l : List Nat) : List Nat := (l.filter (L ≤ ·)).map (· - L)
  s.modQuire q fun y =>
    { y with started := 0, issued := shift y.issued, landed := res ++ (shift y.landed).filter (!res.contains ·), layerCtx := x }

/-- A core takes part in a step walk. One that has walked the step before for the same context keeps its store (R161,
DEDUCED, log 18). -/
def stepCore (s : State) (c p x : Nat) : State :=
  if (s.core c).slot = 17 ∧ (s.core c).ctx = x then s.modCore c fun y => { y with part := p + 1 }
  else startCore s c p 16 x

/-- The walk of a step starts on every core of the partition (R188, R481). -/
def startStep (s : State) (p : Nat) (g : Program) : State :=
  let P := s.part p
  let w : Work := { (default : Work) with
    kind := .step, st := .running, ctx := g.ctx, quires := P.quires, order := s.arm.ticket, started := s.arm.ticket
    high := (s.ctx g.ctx).par.high, saveAt := g.saveAt, saveFrames := g.saveFrames }
  let s0 : State := { s with arm := { s.arm with ticket := s.arm.ticket + 1 } }
  let s1 := s0.modPart p fun P => { P with works := P.works.set 16 w }
  let s2 := (bitsOf 128 P.quires.toNat).foldl (fun s q => nextWalk s q g.ctx) s1
  (coresOf P.quires).foldl (fun s c => stepCore s c p g.ctx) s2

/-- A roster may close (R35, R519, R585): the boundary work of the last step is complete, every fork of it handed out,
and some branch is READY. -/
def mayClose (s : State) (p : Nat) : Bool :=
  let P := s.part p
  P.st = .ready && P.program.any (·.isStep) && !P.works.keys.contains 16 && P.boundaries.isEmpty && P.forking.isEmpty &&
    s.wmk.entropy = .healthy && (s.pkg.impaired &&& P.quires) == 0 &&
    !(s.roll.branches.cells.any fun c => c.2.part == p && c.2.st = .forking && !c.2.need.isEmpty) &&
    s.roll.branches.cells.any fun c => c.2.part == p && c.2.st = .ready

/-- Count the close for the groups that it skipped or admitted (R46). -/
def countSkips (s : State) (groups skip : List Nat) : State :=
  groups.foldl (fun s g => s.modGroup g fun G => { G with skips := if skip.contains g then G.skips + 1 else 0 }) s

/-- ROSTER_CLOSE: the roster of the next step closes, its area is written, and its walk starts (R33 to R38)
(DEDUCED, log 44). -/
def execRosterClose (p : PartId) (s : State) : Host.Outcome State Fault Refusal :=
  let n := p.val
  let P := s.part n
  match P.program with
  | none => .next s
  | some g =>
    if !mayClose s n then .next s else
    let cap := min 8192 (partImg s n 20 2)
    let order := readyOrder s n (P.step + 1).toNat
    let skip := skippedGroups s cap order 4096 []
    let c := order.foldl (admitBranch n g.ctx cap skip) { s := s, admitted := [], lost := [], wait := false }
    if c.wait then .next c.s else
    let groups := order.foldl (fun acc b => insNat (s.branch b).group.toNat acc) []
    let s1 := countSkips c.s groups skip
    let s2 := s1.modPart n fun P => { P with step := P.step + 1, roster := c.admitted }
    let s3 : State := { s2 with roll := { s2.roll with branches := s2.roll.branches.mapAll fun _ B =>
      if B.part = n ∧ B.st = .releasing then { B with closed := true } else B } }
    let s4 := c.admitted.foldl (fun s b => s.modBranch b fun B => { B with st := .rostered, skips := 0 })
      (c.lost.foldl (fun s b => s.modBranch b fun B => { B with skips := B.skips + 1 }) s3)
    if c.admitted.isEmpty then .next s4
    else .next (startStep (fetchLists (writeRoster (clearValid s4 n c.admitted.length) n c.admitted) n c.admitted) n g)

/-- RECORD_RING_STALL: 1,024 roster closes in a row have skipped a group (R46). -/
def execRecordRingStall (g : GroupId) (s : State) : Host.Outcome State Fault Refusal :=
  if (s.group g.val).skips < 1024 then .next s
  else .next (stallNotice (s.modGroup g.val fun G => { G with skips := 0 }) 4 (s.group g.val).ctx none g.val)

/-- ALLOC_SKIP_STALL: 1,024 roster closes in a row have skipped a branch for want of frames (R314). -/
def execAllocSkipStall (b : BranchId) (s : State) : Host.Outcome State Fault Refusal :=
  let g := (s.branch b.val).group.toNat
  if (s.branch b.val).skips < 1024 then .next s
  else .next (stallNotice (s.modBranch b.val fun B => { B with skips := 0 }) 5 (s.group g).ctx none g)

end Sys2Proof.Machine
end

