-- ==== Sys2Proof/Machine/Trim.lean ====
section
/-! DEFINITION. The end of a partition step and the Trim unit (chapter 11). -/

namespace Sys2Proof.Machine

/-! Collection (R320) -/

/-- What the die stages read for roster entry `e`. -/
structure Score where
  score : Word32
  action : Word32
  done : Bool
  /-- The 36 bytes of the detail entry that have a meaning. -/
  detail : List Byte
  /-- Bits of TRM_STATUS: missing or poisoned. -/
  flags : Nat
  /-- The entries lie on poisoned lines. -/
  bad : Bool

/-- Read the score entry and the detail entry of a roster entry (R318 to R320) (DESIGN CHOICE, log 40). -/
def readScore (s : State) (P : Part) (e : Nat) : Score :=
  let (q, i) := scorePlace P e
  let a := qsrAddr q (scoreOff P + 16 * i)
  let d := qsrAddr q (scoreOff P + 0x20000 + 64 * i)
  let v := s.rdN a 16
  let bad := s.poison.get (a / 64) != 0
  let flags := if bad then 4 else if bit v 64 then 0 else 2
  { score := if flags = 0 then BitVec.ofNat 32 v else nan32, action := BitVec.ofNat 32 (fld v 32 32)
    done := flags == 0 && bit v 65, detail := s.rd d 36, flags := flags, bad := bad || s.poison.get (d / 64) != 0 }

/-- F as the fill of the tail page; a list without a tail counts as one whose tail is full (R295)
(DESIGN CHOICE, log 39). -/
def tailFillOf (geom : Nat) (B : Branch) : Nat :=
  if B.pageCount.toNat - B.la ≤ 1 then gPage geom else tailPos geom B

/-- The list of a branch after a step: pages before the new tail leave the tail, and TAIL_FILL is the fill of the new one
(R295, R296) (DESIGN CHOICE, log 39). -/
def settleTail (s : State) (p b : Nat) : State :=
  let B := s.branch b
  let geom := geomOf s p
  let k := B.pageCount.toNat - 1 - B.la
  let leave := if k = 0 then List.range (B.la - 1) else (List.range B.la).map (k - 1 + ·)
  let s1 := leave.foldl (fun s i =>
    let pg := listEntry s B.pageList.toNat i
    if (s.page pg).srcValid then s else leaveTail s pg B.pageList.toNat i (gLayers geom)) s
  let fill := tailFillOf geom B + gPosStep geom - B.la * gPage geom
  s1.modBranch b fun x => { x with la := 0, tailFill := BitVec.ofNat 16 (fill * gUnits geom) }

/-- Collect one entry of the roster (R30, R320). -/
def collectOne (s : State) (p e b : Nat) : State :=
  let r := readScore s (s.part p) e
  let g := (s.branch b).group.toNat
  let G := s.group g
  let depth := (s.branch b).depth + 1
  let fin := r.done || depth.toNat == G.horizon
  let s1 := if r.flags = 0 then s else (s.ror Reg.trmStatus r.flags).radd Reg.trmMissing 1
  let s2 := s1.modBranch b fun B =>
    { B with
      score := r.score, depth := depth, st := if fin then .finished else .scored
      firstAction := if depth = 1 then r.action else B.firstAction }
  let s3 : State := { s2 with roll := { s2.roll with scores := s2.roll.scores.mod b fun k =>
    { k with score := r.score, finished := fin } } }
  let s4 := recordPut s3 g (recordHead s3 b 0 0 fin ++ leBytes 4 r.action.toNat ++ r.detail.take 12 ++
    leBytes 4 r.score.toNat ++ leBytes 4 (s3.roll.scores.get b).keepP.toNat ++ (r.detail.drop 12).take 24) r.bad
  let s5 := settleTail s4 p b
  if G.st = .ending then releaseBranch s5 b else s5

/-- Groups of a roster that reach a boundary (R32), ascending. -/
def boundaryGroups (s : State) (roster : List Nat) : List Nat :=
  let gs := roster.foldl (fun acc b => insNat (s.branch b).group.toNat acc) []
  gs.filter fun g =>
    (s.group g).st = .running && (s.group g).reserved == 0 && !(members s g).isEmpty &&
      (members s g).all fun b => (s.branch b).st = .scored || (s.branch b).st = .finished

/-- PARTITION_STEP_COMPLETE: every core has ended its walk. The scores are collected, and the groups that reach a boundary
are found (R32, R38, R320). -/
def execPartitionStepComplete (p : PartId) (s : State) : Host.Outcome State Fault Refusal :=
  let n := p.val
  let P := s.part n
  let w := P.works.get 16
  if !w.busy ∨ !allEnded s w then .next s else
  let s1 := (coresOf w.quires).foldl (fun s c => releaseCore s c 17) s
  let s2 := s1.modPart n fun P => { P with works := P.works.set 16 default }
  let base := (n * 17 + 16) * 4096
  let s3 := answerPreempt { s2 with saved := s2.saved.clear base (base + 4096) } w
  let entries := (List.range P.roster.length).map fun e => (e, P.roster.getD e 0)
  let s4 := clearValid (entries.foldl (fun s k => collectOne s n k.1 k.2) s3) n P.roster.length
  .next (s4.modPart n fun P => { P with boundaries := boundaryGroups s4 P.roster, roster := [] })

/-! The policy record (R324) -/

def pMode (l : Line) : Nat := fld l.toNat 0 2
def pResample (l : Line) : Bool := bit l.toNat 2
def pKeepMax (l : Line) : Nat := fld l.toNat 32 17
def pKeepMin (l : Line) : Nat := fld l.toNat 64 17
def pDelta (l : Line) : Word32 := BitVec.ofNat 32 (lineN l 12 4)
def pTau (l : Line) : Word32 := BitVec.ofNat 32 (lineN l 16 4)
def pFloor (l : Line) : Word32 := BitVec.ofNat 32 (lineN l 20 4)
def pTarget (l : Line) : Nat := fld l.toNat 192 17
def pBudget (l : Line) : Nat := fld l.toNat 224 17
def pTotal (l : Line) : Nat := lineN l 32 4

/-! Keep or prune (R323, R326, R327) -/

/-- The sampler key of the context of a group. -/
def groupKey (s : State) (G : Group) : Nat := (s.ctx G.ctx).par.samplerKey.toNat

/-- exp((a − b) / τ) in FP32, each step rounded (R326, R329). -/
def expRatio (a b tau : Val) : Ar Val :=
  Ar.bind (subF false a b) fun d => Ar.bind (divF false d tau) fun q => expF false q

/-- What a trim has decided so far: the branches kept with KEEP_P, those pruned, and whether KEEP_MAX pruned one. -/
structure Trimmed where
  kept : List (Nat × Word32)
  pruned : List Nat
  capped : Bool

/-- Decide candidate `i` in rank order (R326). -/
def decideOne (s : State) (G : Group) (best : Val) (t : Trimmed) (ib : Nat × Nat) : Ar Trimmed :=
  let l := G.policy
  let (i, b) := ib
  let score := ofW (s.branch b).score
  let forced := decide (i < pKeepMin l)
  let verdict : Ar (Bool × Word32) :=
    match pMode l with
    | 0 => Ar.pure (true, one32)
    | 1 => Ar.bind (subF false best (ofW (pDelta l))) fun t => Ar.pure (leV t score, one32)
    | _ =>
      if forced then Ar.pure (true, one32) else
      Ar.bind (if eqV score best then Ar.pure (ofInt 1)
        else Ar.map (maxV (ofW (pFloor l))) (expRatio score best (ofW (pTau l)))) fun p =>
        let u := drawU ((philox (groupKey s G) [0xFFFFFFFE, b, G.boundaries.toNat, 2]).getD 0 0)
        Ar.pure (ltV u p, toW p)
  Ar.map (fun v =>
    let want := v.1 || forced
    let kp := if forced then one32 else v.2
    if want ∧ t.kept.length < pKeepMax l then { t with kept := t.kept ++ [(b, kp)] }
    else { t with pruned := t.pruned ++ [b], capped := t.capped || (want && pMode l != 0) }) verdict

/-- The trim of a group's candidates, given in rank order (R326) (DEDUCED, log 64). -/
def trimGroup (s : State) (G : Group) (cand : List Nat) : Ar Trimmed :=
  let best := ofW (s.branch (cand.headD 0)).score
  Ar.fold (decideOne s G best) { kept := [], pruned := [], capped := false } ((List.range cand.length).zip cand)

/-! Refilling width (R328, R329) -/

/-- The least of what limits the policy forks of a group that are not R19's and FORK_TOTAL's limits. -/
def wantForks (G : Group) (w : Nat) : Nat := if w = 0 then 0 else min (pBudget G.policy) (pTarget G.policy - w)

/-- What FORK_TOTAL leaves (R324, R325). -/
def totalLeft (G : Group) : Nat :=
  if pTotal G.policy = 0xFFFFFFFF then 65536 else pTotal G.policy - G.policyForks.toNat

/-- Running sums of the weights of R329 (DEDUCED, log 64). -/
def weightSums (s : State) (tau : Val) (kept : List Nat) : Ar (List Val) :=
  let s0 := ofW (s.branch (kept.headD 0)).score
  Ar.map Prod.snd (Ar.fold (fun (acc : Val × List Val) b =>
    let sk := ofW (s.branch b).score
    let w : Ar Val := if eqV sk s0 then Ar.pure (ofInt 1)
      else if s0.isInf && !s0.neg? then Ar.pure (ofInt 0) else expRatio sk s0 tau
    Ar.bind w fun w => Ar.map (fun c => (c, acc.2 ++ [c])) (addF false acc.1 w)) (ofInt 0, []) kept)

/-- The parents of the policy forks of a group, in order of j (R329) (DEDUCED, log 64). -/
def forkParents (s : State) (g : Nat) (G : Group) (kept : List Nat) (n : Nat) : Ar (List Nat) :=
  let w := kept.length
  if !pResample G.policy then Ar.pure ((List.range n).map fun j => kept.getD (j % max 1 w) 0) else
  Ar.bind (weightSums s (ofW (pTau G.policy)) kept) fun sums =>
    let total := sums.getLast?.getD (ofInt 0)
    let u := drawU ((philox (groupKey s G) [0xFFFFFFFD, g, G.boundaries.toNat, 3]).getD 0 0)
    Ar.each (fun (j : Nat) =>
      Ar.bind (addF false (ofInt (j : Int)) u) fun x => Ar.bind (mulF false x total) fun y =>
        Ar.map (fun z => kept.getD ((firstIdx (fun c => ltV z c) sums).getD (w - 1)) 0) (divF false y (ofInt n)))
      (List.range n)

/-- Run arithmetic of the plinth, which raises no flag of its own. -/
def plinthAr {α : Type} (s : State) (x : Ar α) : α × State :=
  let r := x { flags := 0, fresh := s.fresh }
  (r.1, { s with fresh := r.2.fresh })

/-! The boundary (R38, R331, R332) -/

/-- Stage 4: a pruned branch is recorded and released (R331). -/
def pruneOne (s : State) (g b : Nat) : State :=
  ((releaseBranch (recordEvent s b 2 0) b).modGroup g fun G => { G with pruned := G.pruned + 1 }).radd Reg.trmPruned 1

/-- KEEP_P of the branches kept (R326). -/
def storeKeep (s : State) (kept : List (Nat × Word32)) : State :=
  { s with roll := { s.roll with scores := kept.foldl (fun m k => m.mod k.1 fun e => { e with keepP := k.2 }) s.roll.scores } }

/-- Stage 5: the policy forks of a group (R328 to R330). -/
def policyForks (s : State) (g : Nat) (kept : List Nat) : State :=
  let G := s.group g
  let want := wantForks G kept.length
  let n := min want (min (totalLeft G) (forkRoom s g))
  let s1 := if n < want then s.ror Reg.trmStatus 0x10 else s
  let (parents, s2) := plinthAr s1 (forkParents s1 g G kept n)
  parents.foldl (fun s b => makeFork s g b .policy 0 false) s2

/-- One software fork (R41). -/
def softwareFork (g : Nat) (kept : List Nat) (box sn : Nat) (s : State) (ib : Nat × Nat) : State :=
  let B := s.branch ib.2
  if !kept.contains ib.2 ∨ B.group.toNat ≠ g ∨ B.st ≠ .ready then forkRefused s box sn ib.1 stInvalid
  else if forkRoom s g = 0 then forkRefused s box sn ib.1 stNoResource
  else makeFork s g ib.2 (.command box sn ib.1) 0 false

/-- The software forks of a boundary, after every policy fork of it (R41, R330). -/
def softwareForks (s : State) (p : Nat) : State :=
  let s1 := (s.part p).forking.foldl (fun s k =>
    let rs := (s.group k.1).requests.take k.2.2
    let s1 := s.modGroup k.1 fun G => { G with requests := G.requests.drop k.2.2 }
    rs.foldl (fun s r => ((List.range r.parents.length).zip r.parents).foldl (softwareFork k.1 k.2.1 r.box r.sn) s) s1) s
  s1.modPart p fun P => { P with forking := [] }

/-- Stages 2 to 4 of a group's boundary: ranking, keep or prune, release. Answers the branches kept from SCORED, in rank
order (DEDUCED, log 64). -/
def trimStage (s : State) (g : Nat) : State × List Nat :=
  let G := s.group g
  let mine := members s g
  let bad := mine.filter fun b => nanWord (s.branch b).score
  let cand := ranked s (mine.filter fun b => !bad.contains b)
  let (t, s1) := plinthAr s (trimGroup s G cand)
  let s2 := cand.foldl (fun s b => s.radd (Reg.trmDieRanked (b % 8)) 1) s1
  let s3 := if bad.isEmpty then s2 else s2.ror Reg.trmStatus 1
  let s4 := if t.capped then s3.ror Reg.trmStatus 8 else s3
  let s5 := (t.pruned ++ bad).foldl (fun s b => pruneOne s g b) (storeKeep s4 t.kept)
  (s5, (t.kept.map (·.1)).filter fun b => (s.branch b).st = .scored)

/-- GROUP_BOUNDARY: the boundary work of the next group of a partition (R38, R323 to R332). -/
def execGroupBoundary (g : GroupId) (s : State) : Host.Outcome State Fault Refusal :=
  let n := g.val
  let p := (s.group n).part
  if (s.part p).boundaries.head? ≠ some n ∨ (s.group n).st ≠ .running then .next s else
  let (s1, kept) := trimStage s n
  let closing := (s.group n).closing
  let s2 := if closing then s1 else policyForks s1 n kept
  let since := ((s.part p).step + 1).setWidth 32
  let s3 := kept.foldl (fun s b => s.modBranch b fun B => { B with st := .ready, readySince := since }) s2
  let s4 := (s3.modGroup n fun G => { G with boundaries := G.boundaries + 1 }).radd Reg.trmBoundaries 1
  let s5 := s4.modPart p fun P =>
    { P with
      boundaries := P.boundaries.drop 1
      forking := P.forking ++ [(n, kept, (s4.group n).requests.length)] }
  let s6 := if closing then enterEnding s5 n 0 else endIfIdle s5 n
  .next (if (s6.part p).boundaries.isEmpty then softwareForks s6 p else s6)

end Sys2Proof.Machine
end

