-- ==== Sys2Proof/Machine/CmdRollout.lean ====
section
/-! DEFINITION. The rollout group commands (R16, R23 to R25, R41, R42, R324, R325, R461, R462) and the Vat commands
(R315, R463). -/

namespace Sys2Proof.Machine

/-! The trim policy record (R324) -/

/-- Finite and not negative, finite and positive, and between 0 and 1, as FP32 words. -/
def notNeg (w : Nat) : Bool := decide (w < 0x7F800000) || w == 0x80000000
def positive (w : Nat) : Bool := w != 0 && decide (w < 0x7F800000)
def unitRange (w : Nat) : Bool := decide (w ≤ 0x3F800000) || w == 0x80000000

/-- A policy record keeps its ranges; what its modes do not use is not judged (DEDUCED, log 61). -/
def policyOk (l : Line) : Bool :=
  (reservedBit [(0, 3), (32, 17), (64, 17), (96, 32), (128, 32), (160, 32), (192, 17), (224, 17), (256, 32)] l.toNat 512).isNone &&
    pMode l != 3 && pKeepMax l != 0 && decide (pKeepMax l ≤ 65536) && decide (pKeepMin l ≤ pKeepMax l) &&
    (pMode l != 1 || notNeg (pDelta l).toNat) && ((pMode l != 2 && !pResample l) || positive (pTau l).toNat) &&
    (pMode l != 2 || unitRange (pFloor l).toNat) && decide (pTarget l ≤ 65536) && decide (pBudget l ≤ 65536)

/-- Read and check a policy record; `bad` names the field that names it. -/
def readPolicy (s : State) (x a : Nat) (bad : Ans) (k : State → Line → State × Option Ans) : State × Option Ans :=
  readArea s x a 64 64 bad fun s1 =>
    let l : Line := BitVec.ofNat 512 (s1.rdN a 64)
    if policyOk l then k s1 l else (s1, some bad)

/-! GROUP_OPEN (R16, R23 to R25, R461) -/

/-- Named fields of the group block. -/
def groupFields : List (Nat × Nat) :=
  [(0, 7), (16, 16), (32, 17), (64, 48), (128, 13), (144, 16), (160, 24), (192, 48), (256, 17), (288, 16), (304, 1),
    (320, 48), (384, 48), (448, 5), (512, 48)]

/-- The partition of the root program that a handle names, when a group of context `x` on partition `p` may use it
(R460, R483). -/
def rootTarget (s : State) (x p h : Nat) : Option Nat :=
  match handlePart s h with
  | some rp =>
    let ok := (s.part rp).program.any fun g => !g.isStep && g.ctx == x && !reachesHeader (partImg s rp) g.bytes
    if ok ∧ rp ≠ p ∧ (s.ctx x).par.partitions.getLsbD rp then some rp else none
  | none => none

/-- The first field of the group block that breaks a rule, by its offset (DEDUCED, log 61). -/
def groupBrk (s : State) (x v : Nat) : Option Nat :=
  let p := bField v 0 7
  let record := bit v 304
  let log := bField v 56 5
  firstBrk [
    brk (!(s.part p).program.any fun g => g.isStep && g.ctx == x) 0,
    brk (rootTarget s x p (bField v 2 16)).isNone 2,
    brk (bField v 4 17 == 0) 4,
    brk (bField v 16 13 == 0 || decide (4096 < bField v 16 13)) 16,
    brk (bField v 18 16 == 0) 18,
    brk (decide (65536 < bField v 32 17)) 32,
    brk (record && (decide (log < 6) || decide (24 < log))) 56,
    brk (record && !areaWritable s x (bField v 48 48) (64 + 64 * 2 ^ log) 1) 48,
    brk (!areaWritable s x (bField v 64 48) 32 32) 64]

/-- The mailbox may not name the memory stream (R458) (DEDUCED, log 59). -/
def foreignStream (s : State) (m x id : Nat) : Bool :=
  m != 0 && decide (id < strCount s) && eState (strGet s id) != 0 && eOwner (strGet s id) != x

/-- Identifiers and entries for one more group of `w0` initial branches are free (R24). -/
def groupFits (s : State) (w0 : Nat) : Bool :=
  decide (w0 ≤ 65536) && decide (s.roll.groups.keys.length < 4096) && decide (tableUsed s + w0 + 1 ≤ 262144)

/-- A group comes into being, FORMING: its identifier, its root, its reserved entries, and its root task (R24, R25). How
many pages the root program fills is its own doing, and free. -/
def openGroup (s : State) (m x rp v : Nat) (policy : Line) : State × Nat :=
  let g := lowestGap s.roll.groups
  let root := lowestGap s.roll.branches
  let p := bField v 0 7
  let (d, s0) := s.draw
  let G : Group := { (default : Group) with
    st := .forming, part := p, ctx := x, box := m, rootProg := BitVec.ofNat 16 (bField v 2 16), inputs := bField v 8 48
    frames := bField v 16 13, stream := bField v 20 24, w0 := bField v 4 17, seqAddr := bField v 24 48
    seqCount := bField v 32 17, seqLen := bField v 36 16, horizon := bField v 18 16, record := bit v 304
    ring := bField v 48 48, ringLog := bField v 56 5, result := bField v 64 48, policy := policy, root := root
    reserved := bField v 4 17 }
  let R : Branch := { (default : Branch) with
    st := .root, group := BitVec.ofNat 12 g, part := p, score := nan32, stream := BitVec.ofNat 24 root
    la := 1 + d.toNat % 4095 }
  let s1 : State := { s0 with roll := { s0.roll with groups := s0.roll.groups.set g G, branches := s0.roll.branches.set root R } }
  let s2 := if G.record then armWrite s1 G.ring (leBytes 4 0) x else s1
  (queueWork s2 rp { (default : Work) with
    kind := .root g, ctx := x, want := 1, high := (s2.ctx x).par.high, handle := G.rootProg
    args := leBytes 32 (at_ 0 64 G.inputs + at_ 64 16 G.frames + at_ 96 32 G.stream + at_ 128 16 g) }, g)

/-- The body of GROUP_OPEN. -/
def groupOpenBody : Body := fun s m _ e =>
  let x := eContext e
  readBlock s x e 16 128 groupFields fun s1 v =>
    let p := bField v 0 7
    if !ownPart s1 m x p ∨ foreignStream s1 m x (bField v 20 24) then (s1, some denied)
    else if (s1.part p).st = .resetting then (s1, some busy)
    else
      match groupBrk s1 x v with
      | some b => (s1, some (invalidBlk b))
      | none =>
        readPolicy s1 x (bField v 40 48) (invalidBlk 40) fun s2 policy =>
          if !groupFits s2 (bField v 4 17) then (s2, some noResource) else
          match rootTarget s2 x p (bField v 2 16) with
          | none => (s2, some (invalidBlk 2))
          | some rp =>
            let r := openGroup s2 m x rp v policy
            (r.1, some { status := stOk, result := [(16, 2, r.2)] })

/-- GROUP_OPEN. -/
def execGroupOpen (m : BoxId) (s : State) : Host.Outcome State Fault Refusal :=
  .next (onCommand m.val 0x0301 groupOpenBody s)

/-! GROUP_CLOSE (R27, R42) -/

/-- Judge the group that a command names, and go on with its number. -/
def withGroup (s : State) (m x g : Nat) (k : State × Option Ans) : State × Option Ans :=
  if !ownGroup s m x g then (s, some denied)
  else if (s.group g).st = .free ∨ (s.group g).ctx ≠ x then (s, some (invalidAt 16))
  else k

/-- A close command takes effect: at once, or between stages 4 and 5 of a boundary under way (R42). -/
def closeGroup (s : State) (g : Nat) : State :=
  let G := s.group g
  if G.st = .ending then s
  else if (s.part G.part).boundaries.contains g then s.modGroup g fun G => { G with closing := true }
  else enterEnding s g 0

/-- The body of GROUP_CLOSE. -/
def groupCloseBody : Body := fun s m _ e =>
  let g := eField e 16 12
  withGroup s m (eContext e) g (closeGroup s g, some okAns)

/-- GROUP_CLOSE. -/
def execGroupClose (m : BoxId) (s : State) : Host.Outcome State Fault Refusal :=
  .next (onCommand m.val 0x0302 groupCloseBody s)

/-! BRANCH_FORK (R41, R462) -/

/-- The body of BRANCH_FORK: the parents are read, and the forks wait for the group's next boundary
(DEDUCED, log 61). -/
def branchForkBody : Body := fun s m sn e =>
  let x := eContext e
  let g := eField e 16 12
  let n := eField e 18 16
  let a := eField e 24 64
  withGroup s m x g <|
    if (s.group g).st = .ending then (s, some (invalidAt 16))
    else if n = 0 ∨ 256 < n then (s, some (invalidAt 18))
    else if !areaWritable s x a (8 * n) 1 then (s, some (invalidAt 24))
    else
      readArea s x a (8 * n) 1 (invalidAt 24) fun s1 =>
        let parents := (List.range n).map fun i => s1.rdN (a + 8 * i) 4 % 262144
        ((modInProg s1 m sn fun p => { p with waits := List.range n }).modGroup g fun G =>
          { G with requests := G.requests ++ [{ box := m, sn := sn, parents := parents }] }, none)

/-- BRANCH_FORK. -/
def execBranchFork (m : BoxId) (s : State) : Host.Outcome State Fault Refusal :=
  .next (onCommand m.val 0x0303 branchForkBody s)

/-! TRIM_POLICY (R325) -/

/-- The body of TRIM_POLICY. -/
def trimPolicyBody : Body := fun s m _ e =>
  let x := eContext e
  let g := eField e 16 12
  withGroup s m x g <| readPolicy s x (eField e 24 64) (invalidAt 24) fun s1 l =>
    (s1.modGroup g fun G => { G with policy := l }, some okAns)

/-- TRIM_POLICY. -/
def execTrimPolicy (m : BoxId) (s : State) : Host.Outcome State Fault Refusal :=
  .next (onCommand m.val 0x0304 trimPolicyBody s)

/-! VAT_RESERVE, VAT_RELEASE and VAT_QUERY (R315, R463) -/

/-- The OK answer of a reserve or a release (DEDUCED, log 61). -/
def reserveAns (s : State) (x : Nat) : Ans := { status := stOk, result := [(16, 4, reserveOf s x)] }

/-- The body of VAT_RESERVE. -/
def vatReserveBody : Body := fun s _ _ e =>
  let x := eContext e
  let n := eField e 16 20
  if 524288 < n then (s, some (invalidAt 16))
  else if headroom s < n then (s, some { status := stVatFull })
  else
    let s1 := s.modCtx x fun c => { c with reserve := c.reserve + BitVec.ofNat 20 n }
    (s1, some (reserveAns s1 x))

/-- VAT_RESERVE. -/
def execVatReserve (m : BoxId) (s : State) : Host.Outcome State Fault Refusal :=
  .next (onCommand m.val 0x0501 vatReserveBody s)

/-- The body of VAT_RELEASE. -/
def vatReleaseBody : Body := fun s _ _ e =>
  let x := eContext e
  let n := eField e 16 20
  if reserveOf s x < n then (s, some (invalidAt 16))
  else
    let s1 := s.modCtx x fun c => { c with reserve := c.reserve - BitVec.ofNat 20 n }
    (s1, some (reserveAns s1 x))

/-- VAT_RELEASE. -/
def execVatRelease (m : BoxId) (s : State) : Host.Outcome State Fault Refusal :=
  .next (onCommand m.val 0x0502 vatReleaseBody s)

/-- Pages of a context in a state. -/
def pagesIn (s : State) (x : Nat) (st : PageSt) : Nat :=
  (s.vat.map.cells.filter fun c => c.2.owner.toNat == x && c.2.st == st).length

/-- The body of VAT_QUERY. -/
def vatQueryBody : Body := fun s _ _ e =>
  let x := eContext e
  (s, some
    { status := stOk
      result := [(16, 4, reserveOf s x), (20, 4, usedBy s x), (24, 4, pagesIn s x .dropped), (28, 4, pagesIn s x .exported)] })

/-- VAT_QUERY. -/
def execVatQuery (m : BoxId) (s : State) : Host.Outcome State Fault Refusal :=
  .next (onCommand m.val 0x0503 vatQueryBody s)

end Sys2Proof.Machine
end

