-- ==== Sys2Proof/Machine/CmdSched.lean ====
section
/-! DEFINITION. The partition, context, mailbox, grant, program, cycle table, preemption and reset commands (R459, R460,
R474 to R480, R489 to R501). -/

namespace Sys2Proof.Machine

/-! PARTITION_CREATE and PARTITION_DESTROY (R474, R475, R500) -/

/-- Some quire of a set that `bad` holds for. -/
def anyQuire (quires : BitVec 128) (bad : Nat → Bool) : Bool := (bitsOf 128 quires.toNat).any bad

/-- The body of PARTITION_CREATE. -/
def partitionCreateBody : Body := fun s _ _ e =>
  let p := eField e 16 7
  let quires := BitVec.ofNat 128 (eField e 24 128)
  let P := s.part p
  if quires = 0 ∨ anyQuire quires fun q => !isBacked s q || s.pkg.impaired.getLsbD q then (s, some (invalidAt 24))
  else if P.st = .ready ∨ P.st = .resetting ∨
      (s.arm.parts.cells.any fun c => c.1 != p && (c.2.quires &&& quires) != 0) ∨ P.recorded.isSome ∨
      (s.arm.parts.cells.any fun c => c.2.recorded.any fun r => (r &&& quires) != 0) then (s, some busy)
  else if P.st = .destroying then (s.modPart p fun P => { P with recorded := some quires }, some pendingEnable)
  else (makePartition s p quires, some okAns)

/-- PARTITION_CREATE. -/
def execPartitionCreate (m : BoxId) (s : State) : Host.Outcome State Fault Refusal :=
  .next (onCommand m.val 0x0101 partitionCreateBody s)

/-- A context that is ACTIVE or FAULTED, or whose create is recorded, names the partition. -/
def partNamed (s : State) (p : Nat) : Bool :=
  (s.arm.ctxs.cells.any fun c =>
    ((c.2.st = .active || c.2.st = .faulted) && c.2.par.partitions.getLsbD p) ||
      c.2.recorded.any (·.partitions.getLsbD p)) ||
  s.arm.creates.any (·.par.partitions.getLsbD p)

/-- The body of PARTITION_DESTROY. -/
def partitionDestroyBody : Body := fun s m sn e =>
  let p := eField e 16 7
  let P := s.part p
  match P.st with
  | .free => (s, some (invalidAt 16))
  | .resetting => (s, some busy)
  | .destroying => (s.modPart p fun P => { P with destroyers := P.destroyers ++ [(m, sn)] }, none)
  | .ready =>
    if P.program.isSome ∨ P.table ≠ [] ∨ partNamed s p then (s, some busy)
    else (s.modPart p fun P => { P with st := .destroying, destroyers := [(m, sn)] }, none)

/-- PARTITION_DESTROY. -/
def execPartitionDestroy (m : BoxId) (s : State) : Host.Outcome State Fault Refusal :=
  .next (onCommand m.val 0x0102 partitionDestroyBody s)

/-! CONTEXT_CREATE and CONTEXT_DESTROY (R476 to R478, R500, R519) -/

/-- A run of frames touches none that R480 keeps from grants: Vat frames, last frames, withdrawn frames, and the stream
table and expert home table ranges. -/
def runAllowed (s : State) (first n : Nat) : Bool :=
  let lo := first * 0x200000
  let hi := (first + n) * 0x200000
  let home := s.rnat Reg.chnExpertBaseLo + 0x100000000 * s.rnat Reg.chnExpertBaseHi
  let meets (base len : Nat) : Bool := len != 0 && decide (base < hi) && decide (lo < base + len)
  decide (first + n ≤ 983040) &&
    ((List.range n).all fun i => !isVatFrame s (first + i) && !isLastFrame (first + i) && !s.vat.gone.contains (first + i)) &&
    !meets (strBase s) (32 * strCount s) && !meets home 0x80000

/-- A frame of a run belongs to another context, or to the save area of a create that is recorded (R476, R480). -/
def runTaken (s : State) (x first n : Nat) : Bool :=
  let meets (par : CtxParams) : Bool :=
    decide (par.saveFirst.toNat < first + n) && decide (first < par.saveFirst.toNat + par.saveFrames.toNat)
  ((List.range n).any fun i => let k := (s.frec (first + i)).keyCtx.toNat; k != 0 && k != x) ||
    (s.arm.ctxs.cells.any fun c => c.1 != x && (c.2.recorded.any meets || (c.2.st != .free && meets c.2.par))) ||
    s.arm.creates.any fun w => w.ctx != x && meets w.par

/-- The parameters of a context, from its block (R476). -/
def ctxParams (v : Nat) : CtxParams :=
  { partitions := BitVec.ofNat 128 v, rebuild := BitVec.ofNat 7 (bField v 16 7), rebuildEn := bit v 135
    flush := bit v 136, high := bit v 137, stallAction := bit v 138, noticeMb := BitVec.ofNat 8 (bField v 18 8)
    progressCount := BitVec.ofNat 32 (bField v 20 32), samplerKey := BitVec.ofNat 64 (bField v 24 64)
    saveFirst := BitVec.ofNat 20 (bField v 32 20), saveFrames := BitVec.ofNat 11 (bField v 36 11) }

/-- The body of CONTEXT_CREATE. R453 wants the block in memory granted to CONTEXT or in companion memory; a context not
yet made holds no grant, so only companion memory serves (DEDUCED, log 60). -/
def contextCreateBody : Body := fun s m sn e =>
  let x := eContext e
  if x = 0 then (s, some (invalidAt 6)) else
  readBlock s x e 16 64 [(0, 128), (128, 8), (136, 3), (144, 8), (160, 32), (192, 64), (256, 20), (288, 11)] fun s1 v =>
    let par := ctxParams v
    let first := par.saveFirst.toNat
    let n := par.saveFrames.toNat
    let c := s1.ctx x
    if (bitsOf 128 par.partitions.toNat).any fun p => (s1.part p).st ≠ .ready then (s1, some (invalidBlk 0))
    else if par.rebuildEn ∧ !par.partitions.getLsbD par.rebuild.toNat then (s1, some (invalidBlk 16))
    else if n = 0 ∨ 1024 < n then (s1, some (invalidBlk 36))
    else if !runAllowed s1 first n then (s1, some (invalidBlk 32))
    else if c.st = .active ∨ c.st = .faulted ∨ runTaken s1 x first n ∨ c.recorded.isSome ∨ s1.arm.creates.any (·.ctx == x) then
      (s1, some busy)
    else if c.st = .tearing then (s1.modCtx x fun c => { c with recorded := some par }, some pendingEnable)
    else
      match s1.wmk.entropy with
      | .healthy => (makeContext s1 x par, some okAns)
      | .restarting =>
        ({ s1 with arm := { s1.arm with creates := s1.arm.creates ++ [{ box := m, sn := sn, ctx := x, par := par }] } }, none)
      | .failed => (s1, some noResource)

/-- CONTEXT_CREATE. -/
def execContextCreate (m : BoxId) (s : State) : Host.Outcome State Fault Refusal :=
  .next (onCommand m.val 0x0103 contextCreateBody s)

/-- The body of CONTEXT_DESTROY: the teardown begins, goes on, or has nothing left to do (R477). -/
def contextDestroyBody : Body := fun s m sn e =>
  let x := eContext e
  let s1 := s.modCtx x fun c => { c with destroyers := c.destroyers ++ [(m, sn)] }
  match (s.ctx x).st with
  | .active => (teardownStart s1 x Fc.destReset false, none)
  | .faulted => (s1.modCtx x fun c => { c with st := .tearing, byFault := false }, none)
  | .tearing => (s1, none)
  | .free => (s, some (invalidAt 6))

/-- CONTEXT_DESTROY. -/
def execContextDestroy (m : BoxId) (s : State) : Host.Outcome State Fault Refusal :=
  .next (onCommand m.val 0x0104 contextDestroyBody s)

/-! MAILBOX_GRANT and MAILBOX_REVOKE (R472, R479) -/

/-- The body of MAILBOX_GRANT. -/
def mailboxGrantBody : Body := fun s _ _ e =>
  let b := eField e 16 8
  if b = 0 then (s, some (invalidAt 16))
  else if (s.box b).grantee ≠ 0 then (s, some busy)
  else (s.modBox b fun B => { B with grantee := eContext e }, some okAns)

/-- MAILBOX_GRANT. -/
def execMailboxGrant (m : BoxId) (s : State) : Host.Outcome State Fault Refusal :=
  .next (onCommand m.val 0x0105 mailboxGrantBody s)

/-- The body of MAILBOX_REVOKE (DEDUCED, log 48). -/
def mailboxRevokeBody : Body := fun s m sn e =>
  let b := eField e 16 8
  if b = 0 ∨ (s.box b).grantee = 0 then (s, some (invalidAt 16))
  else if (s.box b).revoking.isSome then (s, some busy)
  else (revokeBox s b (m, sn), none)

/-- MAILBOX_REVOKE. -/
def execMailboxRevoke (m : BoxId) (s : State) : Host.Outcome State Fault Refusal :=
  .next (onCommand m.val 0x0106 mailboxRevokeBody s)

/-! MEMORY_GRANT (R480) -/

/-- What is left of a grant run when the frames of another run leave it. -/
def cutGrant (first n : Nat) (g : Grant) : List Grant :=
  if g.first + g.frames ≤ first ∨ first + n ≤ g.first then [g] else
  (if g.first < first then [{ g with frames := first - g.first }] else []) ++
    if first + n < g.first + g.frames then [{ g with first := first + n, frames := g.first + g.frames - (first + n) }] else []

/-- The body of MEMORY_GRANT. A REVOKE is judged as a grant is, and takes its frames out of the context's runs
(DEDUCED, log 48). -/
def memoryGrantBody : Body := fun s m sn e =>
  let x := eContext e
  let first := eField e 16 20
  let n := eField e 20 20
  let c := s.ctx x
  if n = 0 then (s, some (invalidAt 20))
  else if !runAllowed s first n then (s, some (invalidAt 16))
  else if runTaken s x first n then (s, some busy)
  else if bit (lineN e 24 1) 2 then
    let left := c.grants.flatMap (cutGrant first n)
    if 64 < left.length then (s, some noResource) else
    let s1 := s.modCtx x fun c => { c with grants := left }
    let waits := accessesOf s1 x
    if waits.isEmpty then (eraseRun s1 first n, some okAns) else (modInProg s1 m sn fun p => { p with waits := waits }, none)
  else if 64 ≤ c.grants.length then (s, some noResource)
  else (grantRun s x { first := first, frames := n, read := bit (lineN e 24 1) 0, write := bit (lineN e 24 1) 1 }, some okAns)

/-- MEMORY_GRANT. -/
def execMemoryGrant (m : BoxId) (s : State) : Host.Outcome State Fault Refusal :=
  .next (onCommand m.val 0x0107 memoryGrantBody s)

/-! PROGRAM_LOAD and PROGRAM_UNLOAD (R169, R459, R460) -/

/-- The INVALID answer for a rule broken inside the image that block byte `f` names (R592). -/
def invalidImg (f off : Nat) : Ans := { status := stInvalid, detail := off / 4 * 2 ^ 14 + 0x3000 + f }

/-- Fields of the load block that a program with STEP clear leaves zero, by first byte and width: the first that is not
(R248, R459). -/
def taskBlk (v : Nat) : Option Nat :=
  ([(16, 16), (18, 16), (20, 16), (22, 16), (24, 16), (26, 16), (28, 32), (32, 32), (36, 8), (37, 8), (38, 16), (40, 64), (48, 64),
    (56, 64)].find? fun f => bField v f.1 f.2 != 0).map (·.1)

/-- The rebuild partition that a load needs, checked (R307, R460): its number, or the answer. -/
def rebuildTarget (s : State) (x p v : Nat) : Except Ans (Option Nat) :=
  if lbRebuild v = 0 ∧ lbRebuildBytes v = 0 then .ok none
  else
    let par := (s.ctx x).par
    let rp := par.rebuild.toNat
    let R := s.part rp
    if lbRebuild v ≠ 0 ∧ (!par.rebuildEn ∨ rp = p) then .error (invalidBlk 48)
    else if lbRebuild v = 0 ∨ lbRebuildBytes v < 64 ∨ 1048576 < lbRebuildBytes v then .error (invalidBlk 56)
    else if R.program.isSome ∨ R.st = .resetting then .error busy
    else if R.st ≠ .ready then .error (invalidBlk 48)
    else .ok (some rp)

/-- Load a program whose image obeys every rule, and its rebuild program; save space first (R169, R493)
(DEDUCED, log 60). -/
def loadChecked (s : State) (x p v : Nat) (rp : Option Nat) : State × Option Ans :=
  let a := bField v 0 48
  let len := bField v 8 21
  let im := memImg s a
  let quires (k : Nat) : Nat := popCount 128 (s.part k).quires.toNat
  let ra := lbRebuild v
  let rlen := lbRebuildBytes v
  let rim := memImg s ra
  let need := if imStep im then saveNeed (imLiveMax im) (quires p) else 0
  let rneed := match rp with | some k => saveNeed (imLiveMax rim) (quires k) | none => 0
  if !spaceOk im len ∨ (rp.isSome ∧ !spaceOk rim rlen) then (s, some noResource) else
  match (if need = 0 then some 0 else saveFit s x need []) with
  | none => (s, some noResource)
  | some f =>
    match (if rneed = 0 then some 0 else saveFit s x rneed [(f, need)]) with
    | none => (s, some noResource)
    | some rf =>
      let main (g : Program) : Program :=
        if imStep im then
          { g with
            isStep := true, ctx := x, kvgeom := BitVec.ofNat 128 (lbKv v), scoreOff := BitVec.ofNat 22 (lbScore v)
            stCG := BitVec.ofNat 5 (lbCg v), stRows := BitVec.ofNat 4 (lbRows v), stRenorm := BitVec.ofNat 6 (lbRenorm v)
            stOff := BitVec.ofNat 21 (lbOff v), rebuildPart := rp }
        else { g with ctx := x }
      let s1 := loadProgram s p a len (f, need) main
      let s2 := match rp with
        | some k => loadProgram s1 k ra rlen (rf, rneed) fun g => { g with ctx := x, stepPart := some p }
        | none => s1
      let handleOf (k : Nat) : Nat := match (s2.part k).program with | some g => g.handle.toNat | none => 0xFFFF
      (s2, some { status := stOk, result := [(16, 2, handleOf p), (18, 2, match rp with | some k => handleOf k | none => 0xFFFF)] })

/-- The checks of a step program's load whose own image obeys its rules: the fields of the block in their order, then the
rebuild image (R248, R258, R307, R318). -/
def loadStep (s : State) (x p v : Nat) : State × Option Ans :=
  match stepBrk (memImg s (bField v 0 48)) (bField v 8 21) v with
  | some b => (s, some (invalidBlk b))
  | none =>
    if strCount s < 262144 then (s, some invalidDev) else
    match rebuildTarget s x p v with
    | .error a => (s, some a)
    | .ok none => loadChecked s x p v none
    | .ok (some rp) => readArea s x (lbRebuild v) (lbRebuildBytes v) 1 (invalidBlk 48) fun s1 =>
      let rim := memImg s1 (lbRebuild v)
      match imageBrk s1 x rim (lbRebuildBytes v) with
      | some o => (s1, some (invalidImg 48 o))
      | none =>
        if imStep rim then (s1, some (invalidImg 48 6))
        else if reachesHeader rim (lbRebuildBytes v) then (s1, some (invalidImg 48 40))
        else loadChecked s1 x p v (some rp)

/-- The checks of a load once its image can be read. -/
def loadImages (s : State) (x p v : Nat) : State × Option Ans :=
  let im := memImg s (bField v 0 48)
  match imageBrk s x im (bField v 8 21) with
  | some o => (s, some (invalidImg 0 o))
  | none =>
    if imStep im then loadStep s x p v else
    match taskBlk v with
    | some b => (s, some (invalidBlk b))
    | none => loadChecked s x p v none

/-- The named fields of the load block (R459). -/
def loadFields : List (Nat × Nat) :=
  [(0, 48), (64, 21), (96, 7), (128, 10), (144, 7), (160, 9), (176, 5), (192, 13), (208, 16), (224, 16), (256, 22), (288, 5),
    (296, 4), (304, 6), (320, 21), (384, 48), (448, 21)]

/-- The body of PROGRAM_LOAD (DEDUCED, log 60). -/
def programLoadBody : Body := fun s m _ e =>
  let x := eContext e
  readBlock s x e 16 64 loadFields fun s1 v =>
    let p := bField v 12 7
    let P := s1.part p
    let len := bField v 8 21
    if !ownPart s1 m x p then (s1, some denied)
    else if P.st = .free ∨ P.st = .destroying then (s1, some (invalidBlk 12))
    else if !(s1.ctx x).par.partitions.getLsbD p then (s1, some denied)
    else if P.program.isSome ∨ P.st = .resetting then (s1, some busy)
    else if len < 64 ∨ 1048576 < len then (s1, some (invalidBlk 8))
    else readArea s1 x (bField v 0 48) len 1 (invalidBlk 0) fun s2 => loadImages s2 x p v

/-- PROGRAM_LOAD. -/
def execProgramLoad (m : BoxId) (s : State) : Host.Outcome State Fault Refusal :=
  .next (onCommand m.val 0x0201 programLoadBody s)

/-- The body of PROGRAM_UNLOAD. A task that waits for its start is a task of the program too. -/
def programUnloadBody : Body := fun s m _ e =>
  let h := eField e 16 16
  let p := h % 128
  let P := s.part p
  let rebuilds (r : Nat) : Bool :=
    let R := s.part r
    (R.works.cells.any fun w => match w.2.kind with | .rebuild _ => true | _ => false) ||
      R.waiting.any fun w => match w.kind with | .rebuild _ => true | _ => false
  if !ownPart s m (eContext e) p then (s, some denied) else
  match P.program with
  | none => (s, some (invalidAt 16))
  | some g =>
    if g.handle.toNat ≠ h ∨ g.stepPart.isSome then (s, some (invalidAt 16))
    else if (s.roll.groups.cells.any fun c => c.2.st != .free && c.2.part == p) ∨ P.works.cells ≠ [] ∨ P.waiting ≠ [] ∨
        P.st ≠ .ready ∨ g.rebuildPart.any rebuilds then (s, some busy)
    else (unloadWithRebuild s p, some okAns)

/-- PROGRAM_UNLOAD. -/
def execProgramUnload (m : BoxId) (s : State) : Host.Outcome State Fault Refusal :=
  .next (onCommand m.val 0x0202 programUnloadBody s)

/-! CYCLE_TABLE_SET and CYCLE_TABLE_CLEAR (R489) -/

/-- Entry `i` of a cycle table. -/
def slotAtArea (s : State) (a i : Nat) : Nat := s.rdN (a + 8 * i) 8

/-- A slot entry keeps R489 on a partition. -/
def slotOk (s : State) (p v : Nat) : Bool :=
  let x := fld v 32 12
  decide (12000 ≤ fld v 0 32) && fld v 44 20 == 0 &&
    (x == 0 || ((s.ctx x).st = .active && (s.ctx x).par.partitions.getLsbD p))

/-- The body of CYCLE_TABLE_SET (DEDUCED, log 60). -/
def cycleTableSetBody : Body := fun s _ _ e =>
  let p := eField e 16 7
  let n := eField e 18 9
  let a := eField e 24 64
  let P := s.part p
  if P.st = .free ∨ P.st = .destroying then (s, some (invalidAt 16))
  else if P.st = .resetting then (s, some busy)
  else if n = 0 ∨ 256 < n then (s, some (invalidAt 18))
  else
    readArea s 0 a (8 * n) 1 (invalidAt 24) fun s1 =>
      let vs := (List.range n).map (slotAtArea s1 a)
      if !vs.all (slotOk s1 p) then (s1, some (invalidAt 24)) else
      let t := vs.map fun v => (BitVec.ofNat 32 v, BitVec.ofNat 12 (fld v 32 12))
      if P.table.isEmpty then
        (serveOwner (s1.modPart p fun P => { P with table := t, tableNext := [], slot := 0, slotAt := P.cycle }) p, some okAns)
      else (s1.modPart p fun P => { P with tableNext := t }, some okAns)

/-- CYCLE_TABLE_SET. -/
def execCycleTableSet (m : BoxId) (s : State) : Host.Outcome State Fault Refusal :=
  .next (onCommand m.val 0x0601 cycleTableSetBody s)

/-- The body of CYCLE_TABLE_CLEAR. -/
def cycleTableClearBody : Body := fun s _ _ e =>
  let p := eField e 16 7
  if (s.part p).st = .free then (s, some (invalidAt 16))
  else (s.modPart p fun P => { P with table := [], tableNext := [], slot := 0 }, some okAns)

/-- CYCLE_TABLE_CLEAR. -/
def execCycleTableClear (m : BoxId) (s : State) : Host.Outcome State Fault Refusal :=
  .next (onCommand m.val 0x0602 cycleTableClearBody s)

/-! PREEMPT and RESUME (R491, R495) -/

/-- The slots of a context's work on a partition. -/
def worksOf (s : State) (p x : Nat) : List (Nat × Work) := (s.part p).works.cells.filter (·.2.ctx == x)

/-- The body of PREEMPT: every running work of the context is preempted and held, and the answer waits for the last. -/
def preemptBody : Body := fun s m sn e =>
  let p := eField e 16 7
  let mine := worksOf s p (eContext e)
  let s1 := mine.foldl (fun s k =>
    let s1 := requestPreempt s p k.1
    s1.modPart p fun P => { P with works := P.works.mod k.1 fun w =>
      { w with held := true, waiter := if w.st = .preempting ∧ w.waiter.isNone then some (m, sn) else w.waiter } }) s
  if (worksOf s1 p (eContext e)).any fun k => k.2.waiter == some (m, sn) then (s1, none) else (s1, some okAns)

/-- PREEMPT. -/
def execPreempt (m : BoxId) (s : State) : Host.Outcome State Fault Refusal :=
  .next (onCommand m.val 0x0701 preemptBody s)

/-- The body of RESUME. -/
def resumeBody : Body := fun s _ _ e =>
  let p := eField e 16 7
  let mine := (worksOf s p (eContext e)).filter (·.2.held)
  if mine.isEmpty then (s, some (invalidAt 16)) else
  (s.modPart p fun P => { P with works := mine.foldl (fun m k => m.mod k.1 fun w => { w with held := false }) P.works }, some okAns)

/-- RESUME. -/
def execResume (m : BoxId) (s : State) : Host.Outcome State Fault Refusal :=
  .next (onCommand m.val 0x0702 resumeBody s)

/-! PARTITION_RESET (R27, R499) -/

/-- Stop a group's root task, wherever it runs or waits. -/
def dropRoot (s : State) (g : Nat) : State :=
  s.arm.parts.keys.foldl (fun s p =>
    let run := (s.part p).works.cells.filter (·.2.kind == .root g)
    let s1 := run.foldl (fun s w => if w.2.busy then stopQuires s w.2.quires else s) s
    let s2 := s1.modPart p fun P => { P with
      works := run.foldl (fun m w => m.set w.1 default) P.works
      waiting := P.waiting.filter (·.kind != .root g) }
    run.foldl (fun s w => answerPreempt s w.2) s2) s

/-- A partition reset tears a group down: no result is written, and its pages and entries go back (R27). -/
def resetGroup (s : State) (g : Nat) : State :=
  let G := s.group g
  let s1 := G.requests.foldl (fun s r => respond s r.box r.sn { status := stFaulted, detail := Fc.destReset }) (dropRoot s g)
  let s2 := (members s1 g).foldl (fun s b => (releaseBranch s b).modBranch b fun B => { B with closed := true }) s1
  let s3 := freeBranch (freeStream (unpinRoot s2 G.root) G.root) G.root
  (s3.modGroup g fun _ => default).modPart G.part fun P =>
    { P with roster := [], boundaries := P.boundaries.filter (· != g), forking := P.forking.filter (·.1 != g) }

/-- Contexts with work on a partition, ascending. -/
def workingOn (s : State) (p : Nat) : List Nat :=
  let P := s.part p
  (P.works.cells.map (·.2.ctx) ++ P.waiting.map (·.ctx)).foldl (fun acc x => insNat x acc) []

/-- Tear down a context for a partition reset, as for a fault with code DEST_RESET (R477, R499). -/
def resetCtx (s : State) (x : Nat) : State := faultCtx s x Fc.destReset none 0

/-- The body of PARTITION_RESET. -/
def partitionResetBody : Body := fun s m sn e =>
  let p := eField e 16 7
  match (s.part p).st with
  | .free => (s, some (invalidAt 16))
  | .destroying => (s, some busy)
  | .resetting => (s.modPart p fun P => { P with resetters := P.resetters ++ [(m, sn)] }, none)
  | .ready =>
    let gone := workingOn s p
    let s1 := setPorts (s.modPart p fun P => { P with
      st := .resetting, resetters := [(m, sn)], tearing := gone, torn := gone.length }) (s.part p).quires true
    let s2 := gone.foldl resetCtx s1
    let groups := (s2.roll.groups.cells.filter fun c => c.2.st != .free && c.2.part == p).map (·.1)
    (groups.foldl resetGroup s2, none)

/-- PARTITION_RESET. -/
def execPartitionReset (m : BoxId) (s : State) : Host.Outcome State Fault Refusal :=
  .next (onCommand m.val 0x0801 partitionResetBody s)

end Sys2Proof.Machine
end

