-- ==== Sys2Proof/Machine/Sta.lean ====
section
/-! DEFINITION. The state engine and carried streams (chapter 09): CHUNK, FLUSH and RELEASE, claims, loads, write-backs
and migration. -/

namespace Sys2Proof.Machine

def Fc.staFormat : Nat := 0x150
def Fc.staParam : Nat := 0x151
def Fc.staStream : Nat := 0x152
def Fc.staPoison : Nat := 0x153

/-! Fields of an STA descriptor (R281) -/
def tKind (w : Nat) : Nat := fld w 64 2
def tRec (w : Nat) : Nat := fld w 66 2
def tVary (w : Nat) : Bool := bit w 68
def tSteps (w : Nat) : Nat := fld w 72 7
def tArith (w : Nat) : Nat := fld w 80 16
def tFmtX (w : Nat) : Nat := fld w 96 5
def tFmtY (w : Nat) : Nat := fld w 104 5
def tFmtC (w : Nat) : Nat := fld w 112 5
def tStreams (w : Nat) : Nat := fld w 128 6
def tQ (w : Nat) : Nat := fld w 136 3
def tCg (w : Nat) : Nat := fld w 144 5
def tX (w : Nat) : Nat := fld w 160 19
def tY (w : Nat) : Nat := fld w 192 19
def tA (w : Nat) : Nat := fld w 224 19
def tB (w : Nat) : Nat := fld w 256 19
def tList (w : Nat) : Nat := fld w 288 19
def tStrideX (w : Nat) : Nat := fld w 320 16
def tStrideY (w : Nat) : Nat := fld w 336 16
def tStrideA (w : Nat) : Nat := fld w 352 16

/-- Channels of a chunk, and stream rows of its recurrence (R264). -/
def tChannels (w : Nat) : Nat := 64 * tCg w
def tRows (w : Nat) : Nat := if tRec w = 0 then tQ w else if tRec w = 1 then tQ w + 1 else 1

/-- NSTR or T is zero: nothing but the slot handshakes (DEDUCED, log 58). -/
def tNoop (w : Nat) : Bool := tStreams w == 0 || tSteps w == 0

/-- A field is out of range (R264, R281). -/
def tParam (c : Ctl) (w : Nat) : Bool :=
  decide (32 < tStreams w) || decide (64 < tSteps w) || tCg w == 0 || (tRec w == 0 && tQ w == 0) || (tRec w == 2 && tQ w != 0) ||
    signsWrong c false false false

/-- Entry `i` of the stream list (R268): the stream and its mark mask. -/
def listStream (s : State) (c w i : Nat) : Nat := leNat (spdRead s c (tList w + 16 * i) 4) % 2 ^ 24
def listMarks (s : State) (c w i : Nat) : Nat := leNat (spdRead s c (tList w + 16 * i + 8) 8)

/-- The streams that a descriptor names, in list order. -/
def namedStreams (s : State) (c w : Nat) : List Nat := (List.range (tStreams w)).map (listStream s c w)

/-- The list sets a reserved byte, or names a stream twice (DEDUCED, log 58). -/
def listWrong (s : State) (c w : Nat) : Bool :=
  let ids := namedStreams s c w
  (List.range (tStreams w)).any (fun i =>
    leNat (spdRead s c (tList w + 16 * i + 3) 5) != 0 || (ids.take i).contains (ids.getD i 0))

/-- The inputs of a chunk, as they are read. -/
def chunkReadChk (s : State) (e : Upset) (c w : Nat) : Chk :=
  let n := tStreams w * tSteps w
  let coef := rowLen (tFmtC w) (tChannels w)
  Chk.all [readRowsChk s e c (tX w) (tStrideX w) n (rowLen (tFmtX w) (tChannels w)),
    if tRec w = 0 then .ok else readRowsChk s e c (tA w) (tStrideA w) (if tVary w then n else 1) coef,
    if tRec w = 2 then .ok else readRowsChk s e c (tB w) coef (tQ w + 1) coef]

/-- Streams as the state engine may use them: the table is enabled and holds the entry, which is in use and owned by the
context (R257, R269, R284). -/
def streamOk (s : State) (x id : Nat) : Bool :=
  let v := strGet s id
  decide (id < strCount s) && eState v != 0 && eState v != 5 && eOwner v == x

/-! The recurrence (R264 to R267) -/

/-- A state element as it is read into FP32 (R262). -/
def stateIn (c : Ctl) (code gexp : Nat) : Ar Val :=
  Ar.bind (flushIn c.flush bf16 (decodeFp bf16 code)) fun v =>
    let scaledUp : Val := match v with
      | .num s m e => .num s m (e + ((gexp : Int) - 127))
      | v => v
    Ar.map (decodeFp fp32) (toFp fp32 false c.ovf c.flush scaledUp)

/-- The step of the last mark at or before step `t` (R265). -/
def lastMark (marks t : Nat) : Option Nat := ((List.range (t + 1)).reverse).find? (bit marks)

/-- An input row of step `k`, negative in the history, as step `t` sees it (R265, R266) (DEDUCED, log 58). -/
def inputAt (xs hist : List Val) (marks t : Nat) (k : Int) : Val :=
  let live := match lastMark marks t with | some m => decide ((m : Int) ≤ k) | none => true
  if !live then ofInt 0
  else if 0 ≤ k then xs.getD k.toNat (ofInt 0)
  else hist.getD (-k - 1).toNat (ofInt 0)

/-- One level of the scan: every step uses the level's inputs (R266). -/
def scanLevel (ovf : Bool) (ab : List (Val × Val)) (d : Nat) : Ar (List (Val × Val)) :=
  Ar.each (fun t =>
    let (a, b) := ab.getD t (ofInt 0, ofInt 0)
    if t < d then Ar.pure (a, b) else
    let (a0, b0) := ab.getD (t - d) (ofInt 0, ofInt 0)
    Ar.bind (mulF ovf a a0) fun a1 => Ar.map (fun b1 => (a1, b1)) (fmaF ovf a b0 b)) (List.range ab.length)

/-- One channel of a chunk: inputs, history inputs, carried output, coefficients a by step, taps (R266): the outputs. -/
def channelRun (rec_ q : Nat) (ovf : Bool) (marks : Nat) (xs hist : List Val) (yPrev : Val) (as taps : List Val) : Ar (List Val) :=
  let T := xs.length
  Ar.bind (Ar.each (fun t =>
    if rec_ = 2 then
      Ar.bind (subF ovf (ofInt 1) (as.getD t (ofInt 0))) fun k => mulF ovf k (xs.getD t (ofInt 0))
    else
      Ar.fold (fun u i => fmaF ovf (taps.getD i (ofInt 0)) (inputAt xs hist marks t ((t : Int) - i)) u) (ofInt 0)
        (List.range (q + 1))) (List.range T)) fun us =>
  if rec_ = 0 then Ar.pure us else
  let ab := (List.range T).map fun t => (if bit marks t then ofInt 0 else as.getD t (ofInt 0), us.getD t (ofInt 0))
  Ar.bind (Ar.fold (scanLevel ovf) ab (([1, 2, 4, 8, 16, 32]).filter fun d => decide (d < T))) fun pre =>
    Ar.each (fun t =>
      let (a, b) := pre.getD t (ofInt 0, ofInt 0)
      fmaF ovf a (if (lastMark marks t).isSome then ofInt 0 else yPrev) b) (List.range T)

/-- The new history of a channel, in the stream's row order (R264, R266). -/
def newHistory (rec_ q marks : Nat) (xs hist ys : List Val) : List Val :=
  let T := xs.length
  let xr := (List.range q).map fun (k : Nat) => inputAt xs hist marks (T - 1) ((T : Int) - 1 - k)
  match rec_ with
  | 0 => xr
  | 1 => xr ++ [ys.getD (T - 1) (ofInt 0)]
  | _ => [ys.getD (T - 1) (ofInt 0)]

/-! Writing a state back (R263) -/

/-- The flag RENORM_CLAMP (R283). -/
def fRenormClamp : Nat := 0x10000

/-- The group exponent that a renormalisation chooses (R263). -/
def renormExp (vals : List Val) : Ar Int :=
  let a := amax vals
  if a.isZero then Ar.pure 0 else
  let g := log2V a
  if g < -127 then Ar.withFlag fRenormClamp (-127)
  else if 127 < g then Ar.withFlag fRenormClamp 127 else Ar.pure g

/-- A state element as it is stored under a group exponent (R263). -/
def stateOut (c : Ctl) (g : Int) (v : Val) : Ar Nat :=
  match v with
  | .num s m e => toFp bf16 c.stoch c.ovf c.flush (.num s m (e - g))
  | v => toFp bf16 false false false v

/-- The groups of an image: exponent and codes of each; `renorm` chooses the exponents anew. -/
def groupsOut (c : Ctl) (renorm : Bool) (old : List Nat) (vals : List Val) : Ar (List (Nat × List Nat)) :=
  Ar.each (fun (gv : Nat × List Val) =>
    Ar.bind (if renorm then renormExp gv.2 else Ar.pure ((gv.1 : Int) - 127)) fun g =>
      Ar.map (fun codes => ((g + 127).toNat, codes)) (Ar.each (stateOut c g) gv.2))
    (old.zip (chunksOf 64 old.length vals))

/-- The bytes of an image (R261). -/
def imageBytes (id cg rows rcnt renorm steps src : Nat) (groups : List (Nat × List Nat)) : List Byte :=
  leBytes 16 (at_ 0 24 id + at_ 32 5 cg + at_ 40 4 rows + at_ 48 6 rcnt + at_ 56 6 renorm + at_ 64 64 steps) ++
    (List.range 31).map (fun i => BitVec.ofNat 8 ((groups.map (·.1)).getD i 0)) ++ [0] ++ leBytes 2 src ++ List.replicate 14 0 ++
    groups.flatMap fun g => g.2.flatMap (leBytes 2)

/-- Exponent code of group `g`, and code of element `k` of an image at an address. -/
def imgExp (s : State) (a g : Nat) : Nat := s.rdN (a + 16 + g) 1
def imgCode (s : State) (a k : Nat) : Nat := s.rdN (a + 64 + 2 * k) 2

/-- Channel `ch` of a chunk on stream `i` of its list (R264 to R267): its outputs, and its new state rows. -/
def chunkChannel (s : State) (c w i ch : Nat) : Ar (List Val × List Val) :=
  let marks := listMarks s c w i % 2 ^ tSteps w
  let a := slotAddr c (eSlot (strGet s (listStream s c w i)))
  let C := tChannels w
  let T := tSteps w
  let k := ctlFor s c (tArith w)
  let rd := rdSpd s c
  let hist := if tRec w = 2 then 0 else tQ w
  let coef := rowLen (tFmtC w) C
  Ar.bind (Ar.each (fun t => readF32 rd k (tX w + (i * T + t) * tStrideX w) 0 (tFmtX w) false ch) (List.range T)) fun xs =>
  Ar.bind (Ar.each (fun r => stateIn k (imgCode s a (r * C + ch)) (imgExp s a ((r * C + ch) / 64))) (List.range (tRows w))) fun st =>
  Ar.bind (if tRec w = 0 then Ar.pure [] else
    Ar.each (fun t => readF32 rd k (tA w + (if tVary w then (i * T + t) * tStrideA w else 0)) 0 (tFmtC w) false ch) (List.range T)) fun as =>
  Ar.bind (if tRec w = 2 then Ar.pure [] else
    Ar.each (fun j => readF32 rd k (tB w + j * coef) 0 (tFmtC w) false ch) (List.range (tQ w + 1))) fun taps =>
  Ar.map (fun ys => (ys, newHistory (tRec w) (tQ w) marks xs (st.take hist) ys))
    (channelRun (tRec w) (tQ w) k.ovf marks xs (st.take hist) (st.getD hist (ofInt 0)) as taps)

/-- Run a chunk's recurrence on one stream that is RESIDENT (R263 to R267). -/
def chunkOne (s : State) (c w desc i : Nat) : State :=
  let id := listStream s c w i
  let v := strGet s id
  let a := slotAddr c (eSlot v)
  let T := tSteps w
  let k := ctlFor s c (tArith w)
  let rows := tRows w
  let (res, s1) := runAr s c .sta (Ar.each (chunkChannel s c w i) (List.range (tChannels w)))
  let (outs, s2) := runAr s1 c .sta (Ar.each (fun t =>
    Ar.map Prod.fst (writeLine (tFmtY w) k (res.map fun r => r.1.getD t (ofInt 0)))) (List.range T))
  let s3 := writeRows s2 c (tY w + i * T * tStrideY w) (tStrideY w) outs false desc
  let vals := (List.range rows).flatMap fun r => res.map fun x => x.2.getD r (ofInt 0)
  let renorm := s.strFresh.get id || decide (eRenorm v + 1 ≤ eRcnt v + T)
  let (groups, s4) := runAr s3 c .sta (groupsOut k renorm ((List.range (rows * tCg w)).map (imgExp s a)) vals)
  let rcnt := if renorm then 0 else eRcnt v + T
  let steps := (eSteps v + T) % 2 ^ 64
  let s5 := s4.wr a (imageBytes id (eCg v) rows rcnt (eRenorm v) steps 0 groups)
  let v1 := setFld (setFld (setFld (strGet s5 id) 3 1 1) 50 6 rcnt) 128 64 steps
  let s6 : State := { strPut s5 id v1 with strFresh := s5.strFresh.set id false }
  (s6.radd (Reg.staSteps c) T).modCore c fun x =>
    { x with strSlots := x.strSlots.mod (eSlot v) fun k => { k with used := desc } }

/-! The queue of the state engine (R268, R270, R271) -/

/-- A stream is RESIDENT on a core with its image loaded. -/
def residentHere (s : State) (c id : Nat) : Bool :=
  let v := strGet s id
  decide (id < strCount s) && eState v == 3 && eCore v == c

/-- Geometry of a stream differs from the descriptor's (R264). -/
def geometryWrong (s : State) (w id : Nat) : Bool :=
  eRows (strGet s id) != tRows w || eCg (strGet s id) != tCg w

/-- The line of a stream's slot that is poisoned: its poison, 0 for none (R278). -/
def slotPoison (s : State) (c id : Nat) : Nat :=
  let v := strGet s id
  (linesOf (slotAddr c (eSlot v)) (imageLen (eCg v) (eRows v))).foldl (fun p l => if p = 0 then s.poison.get l else p) 0

/-- Run a CHUNK whose streams are all RESIDENT. -/
def runChunk (s : State) (c : Nat) (d : InFlight) : State :=
  let w := d.word.toNat
  let ids := namedStreams s c w
  match chunkReadChk s .clean c w with
  | .fault code o => coreFault s c code o
  | _ =>
    if ids.any (geometryWrong s w) then coreFault s c Fc.staStream 0 else
    match ids.find? fun id => slotPoison s c id != 0 with
    | some id => coreFault s c Fc.staPoison (slotPoison s c id)
    | none =>
      let s1 := (List.range ids.length).foldl (fun s i => chunkOne s c w d.id i) s
      s1.modCore c fun x => { x with inflight := x.inflight.map fun f => if f.id = d.id then { f with pending := false } else f }

/-- Change an in-flight descriptor of a core. -/
def modFlight (s : State) (c id : Nat) (f : InFlight → InFlight) : State :=
  s.modCore c fun x => { x with inflight := x.inflight.map fun d => if d.id = id then f d else d }

/-- Run what the state engine's queue allows, in order: a CHUNK once its streams are RESIDENT, a FLUSH, a RELEASE once no
running chunk names its streams, until its write-backs are over. -/
def runSta : Nat → State → Nat → State
  | 0, s, _ => s
  | n + 1, s, c =>
    match (s.core c).inflight.find? fun d => d.eng == .sta && d.pending with
    | none => s
    | some d =>
      let w := d.word.toNat
      let ids := namedStreams s c w
      match tKind w with
      | 0 => if d.strs.all (residentHere s c) then runSta n (runChunk s c d) c else s
      | 1 => runSta n (modFlight (ids.foldl flushStream s) c d.id fun d => { d with pending := false }) c
      | _ =>
        if d.wait = 0 then
          if ids.any (chunkRunning s) then s
          else runSta n (modFlight (ids.foldl releaseStream s) c d.id fun d => { d with wait := 1 }) c
        else if ids.any fun id => eState (strGet s id) == 4 then s
        else runSta n (modFlight s c d.id fun d => { d with pending := false, wait := 0 }) c

/-- The checks of an STA descriptor at issue, and its entry into the queue. -/
def staBody (c : Nat) (e : Upset) (s0 : State) (w : Nat) : Ran :=
  let s := upset s0 e
  let x := (s.core c).ctx
  let k := ctlFor s c (tArith w)
  let chunk := tKind w == 0
  if tNoop w then .done s id
  else if chunk ∧ (codesReserved (tArith w) [tFmtX w, tFmtY w, tFmtC w] ∨ tRec w = 3) then .fault Fc.reserved 0
  else if chunk ∧ (4 < tFmtX w ∨ 4 < tFmtY w ∨ 1 < tFmtC w) then .fault Fc.staFormat 0
  else if (chunk ∧ tParam k w) ∨ 32 < tStreams w then .fault Fc.staParam 0
  else
    (spdReadChk s e c (tList w) (16 * tStreams w)).run s fun _ =>
      if listWrong s c w then .stop s Fc.staParam else
      let ids := namedStreams s c w
      if ids.any fun id => !streamOk s x id then .stop s Fc.staStream else
      if !chunk then .done s fun f => { f with pending := true } else
      ((chunkReadChk s e c w).both (writeRowsChk s c (tY w) (tStrideY w) (tStreams w * tSteps w)
          (rowLen (tFmtY w) (tChannels w)))).run s fun _ =>
        if ids.any fun id => eQueued (strGet s id) == 255 then .wait s else
        .done (ids.foldl (fun s id => strSetFld s id 56 8 (eQueued (strGet s id) + 1)) s) fun f =>
          { f with pending := true, strs := ids }

/-- The queue of a core goes on after a change, and so do the swap-outs that wait. -/
def goOn (s : State) (c : Nat) : State := serveStreams (runSta 9 s c)

/-- Issue an STA descriptor, and run what the queue then allows. -/
def staIssue (c w op : Nat) (e : Upset) (s : State) : State := goOn (issue s c w 4 op (staBody c e)) c

/-- CHUNK (R266). -/
def execChunk (c : CoreId) (w : WalkerId) (e : Upset) (s : State) : Host.Outcome State Fault Refusal :=
  .next (staIssue c.val w.val 0 e s)

/-- FLUSH (R272). -/
def execFlush (c : CoreId) (w : WalkerId) (e : Upset) (s : State) : Host.Outcome State Fault Refusal :=
  .next (staIssue c.val w.val 1 e s)

/-- RELEASE (R270). -/
def execRelease (c : CoreId) (w : WalkerId) (e : Upset) (s : State) : Host.Outcome State Fault Refusal :=
  .next (staIssue c.val w.val 2 e s)

/-! Claims (R269) -/

/-- A stream is named by a queued or running descriptor of a core. -/
def namedHere (s : State) (c id : Nat) : Bool := (s.core c).inflight.any fun d => d.eng == .sta && d.strs.contains id

/-- The lowest stream slot of a core that holds nothing and that no claim has taken. -/
def freeSlotOf (s : State) (c : Nat) : Option Nat :=
  (List.range 32).find? fun k => ((s.core c).strSlots.get k).stream == 0 && !s.claims.any fun l => l.core == c && l.slot == k

/-- The least recently used slot of a core whose stream no descriptor of the core names: its stream. -/
def victimOf (s : State) (c : Nat) : Option Nat :=
  let l := (s.core c).strSlots.cells.filter fun k => k.2.stream != 0 && residentHere s c (k.2.stream - 1) && !namedHere s c (k.2.stream - 1)
  ((sortBy (fun k => k.2.used) l).head?).map fun k => k.2.stream - 1

/-- The next stream that core `c` is to claim: of the first queued chunk that still lacks one. -/
def nextClaim (s : State) (c : Nat) : Option (Nat × Nat) :=
  ((s.core c).inflight.filter fun d => d.eng == .sta && d.pending).findSome? fun d =>
    (d.strs.find? fun id =>
      !(let v := strGet s id; (eState v == 3 || eState v == 2) && eCore v == c) && !s.claims.any fun l => l.core == c && l.stream == id).map
      fun id => (d.id, id)

/-- A claim of core `c` that is first in line at an IDLE entry. -/
def readyClaim (s : State) (c : Nat) : Option Claim :=
  s.claims.find? fun l => l.core == c && eState (strGet s l.stream) == 1 &&
    ((s.claims.find? (·.stream == l.stream)).any fun f => f.core == c)

/-- An IDLE entry goes to LOADING for a claim (R272). The claims behind it now find it LOADING on another core (R269). -/
def beginLoad (s : State) (l : Claim) : State :=
  let rest := s.claims.filter (· != l)
  let behind := rest.any (·.stream == l.stream)
  let v := setFld (setFld (setFld (setFld (strGet s l.stream) 0 3 2) 32 12 l.core) 44 5 l.slot) 49 1 (b2n behind)
  let s1 : State := { strPut s l.stream v with
    claims := rest.map fun x => if x.stream = l.stream then { x with moved := true } else x }
  let s2 := if l.moved then s1.radd Reg.strMigrations 1 else s1
  s2.modCore l.core fun x => { x with strSlots := x.strSlots.set l.slot { stream := l.stream + 1, used := l.desc, loaded := false } }

/-- STREAM_CLAIM: a core's claim that has become first at an IDLE entry goes on; else the core claims its next stream,
for which it finds a slot first. -/
def execStreamClaim (c : CoreId) (s : State) : Host.Outcome State Fault Refusal :=
  let n := c.val
  match readyClaim s n with
  | some l => .next (beginLoad s l)
  | none =>
    match nextClaim s n with
    | none => .next s
    | some (desc, id) =>
      if !streamOk s (s.core n).ctx id then .next (coreFault s n Fc.staStream 0) else
      match freeSlotOf s n with
      | some k =>
        let v := strGet s id
        let elsewhere := eState v == 2 || eState v == 3
        let l : Claim := { stream := id, core := n, slot := k, desc := desc, ctx := (s.core n).ctx, moved := elsewhere }
        let s1 : State := { s with claims := s.claims ++ [l] }
        if elsewhere then .next (strSetFld s1 id 49 1 1)
        else if eState v = 1 ∧ !s.claims.any (·.stream == id) then .next (beginLoad s1 l)
        else .next s1
      | none =>
        match victimOf s n with
        | some v => .next (releaseStream s v)
        | none => .next s

/-- The stream that a core is loading: the first slot whose image has not landed. -/
def loadingOn (s : State) (c : Nat) : Option (Nat × Nat) :=
  ((s.core c).strSlots.cells.find? fun k => k.2.stream != 0 && !k.2.loaded && eState (strGet s (k.2.stream - 1)) == 2).map fun k =>
    (k.1, k.2.stream - 1)

/-- Some group of an image at an address holds GEXP code 0xFF (R262). -/
def badExp (s : State) (a n : Nat) : Bool := (List.range n).any fun g => imgExp s a g == 0xFF

/-- STREAM_LOADED: the image of a stream has landed in its slot (R269, R272, R278). -/
def execStreamLoaded (c : CoreId) (s : State) : Host.Outcome State Fault Refusal :=
  let n := c.val
  match loadingOn s n with
  | none => .next s
  | some (k, id) =>
    let v := strGet s id
    let len := imageLen (eCg v) (eRows v)
    match strHome s id with
    | none => .next (stallOn s n (s.branch id).pageList.toNat)
    | some h =>
      let chk := if id < 262144 then Chk.ok else memReadChk s (s.core n).ctx h len
      match chk with
      | .fault code o => .next (coreFault s n code o)
      | _ =>
        let s1 := cacheRead (decodeRange s h len) h len
        let p := memPoison s1 h len
        let a := slotAddr n k
        let s2 := s1.wr a (s1.rd h len)
        let s3 := (linesOf a len).foldl (fun s l => s.setPoison l p) s2
        if badExp s3 a (eCg v * eRows v) then .next (coreFault s3 n Fc.staStream 0) else
        let s4 := (strSetFld s3 id 0 4 3).radd Reg.strLoads 1
        let s5 := s4.modCore n fun x => { x with strSlots := x.strSlots.mod k fun y => { y with loaded := true } }
        .next (goOn s5 n)

/-- STREAM_WRITTEN_BACK: the last line of a write-back has been accepted at HOME, and the slot is free (R270). A release
that found no frame to write to writes now. -/
def execStreamWrittenBack (c : CoreId) (s : State) : Host.Outcome State Fault Refusal :=
  let n := c.val
  match (s.core n).strSlots.cells.find? fun k => k.2.stream != 0 && eState (strGet s (k.2.stream - 1)) == 4 with
  | none => .next s
  | some k =>
    let id := k.2.stream - 1
    if !eDirty (strGet s id) then .next (goOn (toIdle s id) n) else
    match strHome s id with
    | none => .next (stallOn s n (s.branch id).pageList.toNat)
    | some h => .next (goOn (toIdle (writeImage s id h) id) n)

/-- MIGRATE_RELEASE: a core gives up a stream that another core has claimed, once no descriptor of its own names it
(R269). -/
def execMigrateRelease (c : CoreId) (s : State) : Host.Outcome State Fault Refusal :=
  let n := c.val
  match (s.core n).strSlots.cells.find? fun k =>
    k.2.stream != 0 && residentHere s n (k.2.stream - 1) && eMigrate (strGet s (k.2.stream - 1)) && !namedHere s n (k.2.stream - 1) with
  | some k => .next (serveStreams (releaseStream s (k.2.stream - 1)))
  | none => .next s

end Sys2Proof.Machine
end

