-- ==== Sys2Proof/Machine/CmdStream.lean ====
section
/-! DEFINITION. The stream commands (R258, R261 to R263, R272, R273, R463). -/

namespace Sys2Proof.Machine

/-- First identifier that is not a branch stream (R258). -/
def firstOpen : Nat := 262144

/-- The mailbox may not name the stream: it is in use by another context (R458). -/
def streamDenied (s : State) (m x id : Nat) : Bool :=
  m != 0 && decide (id < strCount s) && eState (strGet s id) != 0 && eOwner (strGet s id) != x

/-- HOME may lie at an address: 64-byte aligned, in stacked memory that the owner may read and write (R259). -/
def homeOk (s : State) (x a n : Nat) : Bool :=
  a % 64 == 0 && decide (a + n ≤ stackedTop) && !anyGone s a n && mayReach s x a n true true

/-- CG and ROWS are in range (R259). -/
def cgOk (cg : Nat) : Bool := cg != 0
def rowsOk (cg rows : Nat) : Bool := rows != 0 && decide (rows ≤ 8) && decide (rows * cg ≤ 31)

/-! STREAM_OPEN (R273) -/

/-- A zero image (R261): every element zero, every group exponent 0. -/
def zeroImage (id cg rows renorm : Nat) : List Byte :=
  imageBytes id cg rows 0 renorm 0 0 (List.replicate (cg * rows) (127, List.replicate 64 0))

/-- The body of STREAM_OPEN. -/
def streamOpenBody : Body := fun s m _ e =>
  let x := eContext e
  let id := eField e 16 24
  let cg := eField e 20 5
  let rows := eField e 21 4
  let renorm := eField e 22 6
  let home := eField e 24 64
  if streamDenied s m x id then (s, some denied)
  else if id < firstOpen ∨ strCount s ≤ id ∨ eState (strGet s id) ≠ 0 then (s, some (invalidAt 16))
  else if !cgOk cg then (s, some (invalidAt 20))
  else if !rowsOk cg rows then (s, some (invalidAt 21))
  else if !homeOk s x home (imageLen cg rows) then (s, some (invalidAt 24))
  else
    let s1 := strPut (s.devWr home (zeroImage id cg rows renorm)) id (mkStr 1 x cg rows renorm 0 home 0)
    ({ s1 with strFresh := s1.strFresh.set id true }, some okAns)

/-- STREAM_OPEN. -/
def execStreamOpen (m : BoxId) (s : State) : Host.Outcome State Fault Refusal :=
  .next (onCommand m.val 0x0401 streamOpenBody s)

/-! Commands that name several streams (R273, R463) -/

/-- The streams that a command names, and go on with them; `f` is the payload byte that names one of them
(DEDUCED, log 59). -/
def withStreams (s : State) (m : Nat) (e : Line) (branches : Bool) (k : State → List Nat → Nat → State × Option Ans) :
    State × Option Ans :=
  let x := eContext e
  let n := eField e 16 16
  let judge (s : State) (ids : List Nat) (f : Nat) : State × Option Ans :=
    if ids.any (streamDenied s m x) then (s, some denied)
    else if ids.any fun id => decide (strCount s ≤ id) || (!branches && decide (id < firstOpen)) then (s, some (invalidAt f))
    else k s ids f
  if n = 0 ∨ 256 < n then (s, some (invalidAt 16))
  else if n = 1 then judge s [eField e 20 24] 20
  else readArea s x (eField e 24 64) (4 * n) 1 (invalidAt 24) fun s1 =>
    judge s1 ((List.range n).map fun i => s1.rdN (eField e 24 64 + 4 * i) 4 % 2 ^ 24) 24

/-- The answer for `n` streams: `bits` those done, `st` the status of the first that failed. -/
def streamsAns (n bits st f : Nat) : Ans :=
  if bits = 2 ^ n - 1 then { status := stOk, result := [(16, 32, bits)] }
  else if n = 1 then { status := st, detail := if st = stInvalid then f else 0 }
  else { status := stPartial, result := [(16, 32, bits)] }

/-- The stream is in use, and belongs to the context that the command acts for. -/
def streamHeld (s : State) (x id : Nat) : Bool := eState (strGet s id) != 0 && eOwner (strGet s id) == x

/-- Run a command over its streams: `act` answers the state and 0, or the status of its failure. -/
def eachStream (s : State) (ids : List Nat) (act : State → Nat → State × Nat) : State × Nat × Nat :=
  ((List.range ids.length).zip ids).foldl (fun acc i =>
    let (s1, st) := act acc.1 i.2
    if st = 0 then (s1, setFld acc.2.1 i.1 1 1, acc.2.2) else (s1, acc.2.1, if acc.2.2 = 0 then st else acc.2.2)) (s, 0, 0)

/-! STREAM_CLOSE, STREAM_SWAP_OUT and STREAM_FLUSH -/

/-- One stream of a STREAM_CLOSE (R272). -/
def closeOne (x : Nat) (s : State) (id : Nat) : State × Nat :=
  if !streamHeld s x id then (s, stInvalid)
  else if eQueued (strGet s id) ≠ 0 then (s, stBusy)
  else
    let s1 := freeStream s id
    ({ s1 with strFresh := s1.strFresh.set id false }, 0)

/-- The body of STREAM_CLOSE. -/
def streamCloseBody : Body := fun s m _ e =>
  withStreams s m e false fun s1 ids f =>
    let r := eachStream s1 ids (closeOne (eContext e))
    (r.1, some (streamsAns ids.length r.2.1 r.2.2 f))

/-- STREAM_CLOSE. -/
def execStreamClose (m : BoxId) (s : State) : Host.Outcome State Fault Refusal :=
  .next (onCommand m.val 0x0402 streamCloseBody s)

/-- What one stream of a swap-out is refused with, 0 for nothing (R272). -/
def swapRefused (x : Nat) (force : Bool) (s : State) (id : Nat) : Nat :=
  let v := strGet s id
  if !streamHeld s x id ∨ eState v = 5 then stInvalid
  else if (eState v = 3 ∨ eState v = 2) ∧ eQueued v ≠ 0 ∧ !force then stBusy else 0

/-- The command goes on with the streams that it is not refused for, and its answer waits for the last. -/
def waitStreams (s : State) (m sn : Nat) (ids : List Nat) (refused : Nat → Nat) (f : Nat) : State × Option Ans :=
  let st := (ids.map refused).find? (· != 0)
  if ids.all fun id => refused id != 0 then (s, some (streamsAns ids.length 0 (st.getD 0) f))
  else
    let waits := ((List.range ids.length).zip ids).filter fun i => refused i.2 == 0
    (serveStreams (modInProg s m sn fun p =>
      { p with waits := waits.map fun i => i.1 * 2 ^ 24 + i.2, aux := ids.length }), none)

/-- The body of STREAM_SWAP_OUT: done when the streams are IDLE. -/
def streamSwapOutBody : Body := fun s m sn e =>
  withStreams s m e false fun s1 ids f =>
    waitStreams s1 m sn ids (swapRefused (eContext e) (eExpert e && bit (lineN e 18 1) 0) s1) f

/-- STREAM_SWAP_OUT. -/
def execStreamSwapOut (m : BoxId) (s : State) : Host.Outcome State Fault Refusal :=
  .next (onCommand m.val 0x0403 streamSwapOutBody s)

/-- The body of STREAM_FLUSH: done when the HOME images are current. A branch stream whose state page holds no frame waits
for the page. -/
def streamFlushBody : Body := fun s m sn e =>
  withStreams s m e true fun s1 ids f =>
    let x := eContext e
    let refused (id : Nat) : Nat := if !streamHeld s1 x id ∨ eState (strGet s1 id) = 5 then stInvalid else 0
    let asks := ids.filter fun id => refused id == 0 && eState (strGet s1 id) == 3 && (strHome s1 id).isNone
    let s2 := asks.foldl (fun s id => fetchPage s (s.branch id).pageList.toNat (partDies s (s.branch id).part)) s1
    waitStreams s2 m sn ids refused f

/-- STREAM_FLUSH. -/
def execStreamFlush (m : BoxId) (s : State) : Host.Outcome State Fault Refusal :=
  .next (onCommand m.val 0x0404 streamFlushBody s)

/-! STREAM_EXPORT -/

/-- A renormalised image of a stream (R263), from its slot while it is RESIDENT and else from HOME
(DEDUCED, log 59). -/
def exportImage (s : State) (id : Nat) : List Byte × Bool :=
  let v := strGet s id
  let n := eCg v * eRows v
  let resident := eState v == 3
  let a := if resident then slotAddr (eCore v) (eSlot v) else eHome v
  let c := ctlOf 0 false
  let bad := if resident then anyPoison s a (imageLen (eCg v) (eRows v)) else areaPoisoned s a (imageLen (eCg v) (eRows v))
  let val (k : Nat) : Val :=
    match decodeFp bf16 (imgCode s a k) with
    | .num t m e => .num t m (e + ((imgExp s a (k / 64) : Int) - 127))
    | x => x
  let groups := quiet (groupsOut c true ((List.range n).map (imgExp s a)) ((List.range (64 * n)).map val))
  (imageBytes id (eCg v) (eRows v) 0 (eRenorm v) (eSteps v) (myDev s) groups, bad)

/-- The body of STREAM_EXPORT. A stream that is being loaded or written back is BUSY (DEDUCED, log 59). -/
def streamExportBody : Body := fun s m _ e =>
  let x := eContext e
  let id := eField e 16 24
  let dest := eField e 24 64
  let v := strGet s id
  let len := imageLen (eCg v) (eRows v)
  if streamDenied s m x id then (s, some denied)
  else if id < firstOpen ∨ strCount s ≤ id ∨ !streamHeld s x id ∨ eState v = 5 then (s, some (invalidAt 16))
  else if !areaWritable s x dest len 1 then (s, some (invalidAt 24))
  else if eQueued v ≠ 0 ∨ eState v = 2 ∨ eState v = 4 then (s, some busy)
  else
    let (bs, bad) := exportImage s id
    let s1 := markedWrite s dest bs x bad
    let s2 := if bit (lineN e 20 1) 0 then
        let s2 := releaseStream s1 id
        strSetFld (if eState (strGet s2 id) = 4 then toIdle s2 id else s2) id 0 3 5
      else s1
    (s2, some { status := stOk, result := [(48, 2, len)] })

/-- STREAM_EXPORT. -/
def execStreamExport (m : BoxId) (s : State) : Host.Outcome State Fault Refusal :=
  .next (onCommand m.val 0x0405 streamExportBody s)

/-! STREAM_IMPORT -/

/-- The header of an image breaks no rule of R261: `h` is its 64 bytes. -/
def headOk (h : Nat) : Bool :=
  let cg := bField h 4 5
  let rows := bField h 5 4
  (reservedBit [(0, 24), (32, 5), (40, 4), (48, 6), (56, 6), (64, 64), (128, 248), (384, 14)] h 512).isNone &&
    cgOk cg && rowsOk cg rows && fld h (128 + 8 * (cg * rows)) (8 * (31 - cg * rows)) == 0 &&
    (List.range (cg * rows)).all fun g => bField h (16 + g) 8 != 0xFF

/-- The body of STREAM_IMPORT. -/
def streamImportBody : Body := fun s m _ e =>
  let x := eContext e
  let id := eField e 16 24
  let src := eField e 24 64
  let home := eField e 32 64
  let v := strGet s id
  if streamDenied s m x id then (s, some denied)
  else if id < firstOpen ∨ strCount s ≤ id ∨ !(eState v = 0 ∨ (eState v = 5 ∧ eOwner v = x)) then (s, some (invalidAt 16))
  else
    readArea s x src 64 1 (invalidAt 24) fun s1 =>
      let h := s1.rdN src 64
      let cg := bField h 4 5
      let rows := bField h 5 4
      let len := imageLen cg rows
      if !headOk h then (s1, some (invalidAt 24))
      else if !homeOk s1 x home len then (s1, some (invalidAt 32))
      else readArea s1 x src len 1 (invalidAt 24) fun s2 =>
        let head := setFld (setFld h 0 24 id) 384 14 0
        let s3 := s2.devWr home (leBytes 64 head ++ s2.rd (src + 64) (len - 64))
        let s4 := strPut s3 id (mkStr 1 x cg rows (bField h 7 6) (bField h 6 6) home (bField h 8 64))
        ({ s4 with strFresh := s4.strFresh.set id true }, some okAns)

/-- STREAM_IMPORT. -/
def execStreamImport (m : BoxId) (s : State) : Host.Outcome State Fault Refusal :=
  .next (onCommand m.val 0x0406 streamImportBody s)

end Sys2Proof.Machine
end

