-- ==== Sys2Proof/Machine/CmdSys.lean ====
section
/-! DEFINITION. The info, error, thermal, link and diagnostic commands (R352, R463, R465, R537, R539, R562, R582, R583). -/

namespace Sys2Proof.Machine

/-- INFO (R463). -/
def infoAns (s : State) : Ans :=
  let n := (backedQuires s).length
  let frames := (List.range 8).foldl (fun a d => a + s.rnat (Reg.vatFrameCount d)) 0
  let modes := bitmapOf 16 fun m => s.wmk.overlays.any (·.mode.toNat == m)
  { status := stOk
    result := [(16, 1, 0xA1), (17, 1, 1), (18, 2, 0x0104), (20, 2, myDev s), (22, 1, n), (24, 2, 32 * n),
      (26, 1, at_ 0 1 (b2n (s.rbit Reg.plnReady 2)) + at_ 1 1 (b2n (s.rbit Reg.plnReady 3))), (28, 4, frames), (32, 2, modes)] }

/-- INFO (R463). -/
def execInfo (m : BoxId) (s : State) : Host.Outcome State Fault Refusal :=
  .next (onCommand m.val 0x0001 (fun s _ _ _ => (s, some (infoAns s))) s)

/-! BANK_POWER (R160, R463, R587) -/

/-- Power the named banks of one unit up or down: its bit, and whether a request was recorded against a DRAINING bank. -/
def powerUnit (s : State) (refs : List BankRef) (on : Bool) : State × Bool × Bool :=
  if refs.any fun r => (getBank s r).retired then (s, false, false) else
  refs.foldl (fun acc r =>
    if on then
      let (s1, p) := powerUp acc.1 r
      (s1, true, acc.2.2 || p)
    else (powerDown acc.1 r, true, acc.2.2)) (s, true, false)

/-- The body of BANK_POWER. A unit fails when its position is vacant or a bank that it names is retired (R144)
(DEDUCED, log 66). -/
def bankPowerBody : Body := fun s m _ e =>
  let first := eField e 16 12
  let count := eField e 18 9
  let qsr := bit (lineN e 20 1) 0
  let on := bit (lineN e 20 1) 1
  let mask := eField e 24 32
  let quireOf (u : Nat) : Nat := if qsr then u else u / 32
  let units := (List.range count).map (first + ·)
  if (if qsr then 128 else 4096) ≤ first then (s, some (invalidAt 16))
  else if count = 0 ∨ 256 < count ∨ (if qsr then 128 else 4096) < first + count then (s, some (invalidAt 18))
  else if !qsr ∧ mask / 2 ^ 24 ≠ 0 then (s, some (invalidAt 24))
  else if units.any fun u => !ownQuire s m (eContext e) (quireOf u) then (s, some denied)
  else
    let refsOf (u : Nat) : List BankRef := (bitsOf 32 mask).filterMap fun b => if qsr then qsrRef u b else spdRef u b
    let r := (List.range count).foldl (fun (acc : State × Nat × Bool) i =>
      let u := first + i
      if !isBacked acc.1 (quireOf u) then acc else
      let (s1, ok, p) := powerUnit acc.1 (refsOf u) on
      (s1, acc.2.1 + (if ok then 2 ^ i else 0), acc.2.2 || p)) (s, 0, false)
    (r.1, some (bitmapAns count r.2.1 r.2.2 []))

/-- BANK_POWER. -/
def execBankPower (m : BoxId) (s : State) : Host.Outcome State Fault Refusal :=
  .next (onCommand m.val 0x0004 bankPowerBody s)

/-! Decode tables (R349, R352) -/

/-- A table image obeys R349, and its code lengths form a code (DEDUCED, log 63). -/
def tableImageOk (v : Nat) : Bool :=
  let lens := leBytes 136 (fld v 512 1088)
  let ls := (List.range 272).map (symLen lens)
  fld v 32 16 == 272 && fld v 48 464 == 0 && fld v 1600 448 == 0 && ls.any (· != 0) &&
    decide (ls.foldl (fun a l => a + (if l = 0 then 0 else 2 ^ (15 - l))) 0 ≤ 2 ^ 15)

/-- The body of DECODE_TABLE_LOAD: the lowest FREE slot takes the table, or the load waits
(DEDUCED, log 63). -/
def tableLoadBody : Body := fun s m sn e =>
  let a := eField e 24 64
  readArea s 0 a 256 64 (invalidAt 24) fun s1 =>
    let v := s1.rdN a 256
    let ver := fld v 0 32
    let lens := leBytes 136 (fld v 512 1088)
    let clash := (List.range 4).any fun k =>
      (s1.cal.slots.get k).st ≠ .free && (s1.cal.slots.get k).version.toNat % 256 == ver % 256
    if !tableImageOk v ∨ clash then (s1, some (invalidAt 24))
    else if s1.cal.wait.isSome then (s1, some busy)
    else
      match (List.range 4).find? fun k => (s1.cal.slots.get k).st = .free with
      | some k =>
        (syncSlots (modTable s1 k fun _ =>
          { st := .loading, version := BitVec.ofNat 32 ver, lengths := lens, load := some (m, sn) }), none)
      | none =>
        let s2 := (List.range 24).foldl (fun s k => s.ror (Reg.calStatus k) 0x80) s1
        (syncSlots { s2 with cal := { s2.cal with
          wait := some { box := m, sn := sn, version := BitVec.ofNat 32 ver, lengths := lens } } }, none)

/-- DECODE_TABLE_LOAD (R352). -/
def execDecodeTableLoad (m : BoxId) (s : State) : Host.Outcome State Fault Refusal :=
  .next (onCommand m.val 0x0005 tableLoadBody s)

/-- DECODE_TABLE_WITHDRAW (R350, R352). -/
def execDecodeTableWithdraw (m : BoxId) (s : State) : Host.Outcome State Fault Refusal :=
  .next (onCommand m.val 0x0006 (fun s _ _ _ =>
    match currentSlot s with
    | none => (s, some invalidDev)
    | some k => (syncSlots (retireSlot s k), some okAns)) s)

/-! ERROR_READ and ERROR_CLEAR (R582, R583) -/

/-- The entries that ERROR_READ returns, oldest first: those held from FIRST on. -/
def ringFrom (s : State) (first count : Nat) : List (Nat × ErrEntry) :=
  let held := sortBy (fun c => 2 ^ 32 - (BitVec.ofNat 32 s.arm.seq - c.2.seq).toNat) (s.arm.ring.cells.filter (·.2.held))
  let back := (BitVec.ofNat 32 s.arm.seq - BitVec.ofNat 32 first).toNat
  let l := if back = 0 ∨ 2 ^ 31 ≤ back then [] else held.filter fun c => decide ((BitVec.ofNat 32 s.arm.seq - c.2.seq).toNat ≤ back)
  l.take (min count 1024)

/-- The body of ERROR_READ (DEDUCED, log 62). -/
def errorReadBody : Body := fun s m _ e =>
  let x := eContext e
  let count := eField e 24 16
  if count = 0 ∨ 1024 < count then (s, some (invalidAt 24)) else
  if bit (lineN e 16 1) 0 then
    (putWindow s (diagOff m) (recordBytes (s.ctx x).record), some { status := stOk, result := [(20, 4, s.arm.seq), (48, 4, 1)] })
  else
    let es := ringFrom s (eField e 20 32) count
    let see (k : ErrEntry) : ErrEntry := if m = 0 ∨ k.ctx.toNat = x then k else { (default : ErrEntry) with seq := k.seq }
    let s1 := putWindow s (diagOff m) (es.flatMap fun c => ringBytes (see c.2))
    let s2 : State := if m = 0 then { s1 with arm := { s1.arm with
      ring := es.foldl (fun r c => r.mod c.1 fun k => { k with returned := true }) s1.arm.ring } } else s1
    let (v, s3) := s2.draw
    let lead := match es.head? with | some c => c.2.seq.toNat | none => v.toNat % 2 ^ 32
    (s3, some { status := stOk, result := [(16, 4, lead), (20, 4, s.arm.seq), (48, 4, es.length)] })

/-- ERROR_READ (R582). -/
def execErrorRead (m : BoxId) (s : State) : Host.Outcome State Fault Refusal := .next (onCommand m.val 0x0901 errorReadBody s)

/-- Write one to every bit of the sticky registers of the groups named (R574, R583). -/
def clearGroups (s : State) (groups : Nat) : State :=
  let ks := s.regs.keys.filter fun k =>
    (match regRow k with | some r => r.acc = .w1c | none => false) && (match groupOf k with | some g => bit groups g | none => false)
  ks.foldl (fun s k => writeReg s k 0xFFFFFFFF) s

/-- The body of ERROR_CLEAR. -/
def errorClearBody : Body := fun s _ _ e =>
  let rec_ := bit (lineN e 16 1) 0
  let dev := bit (lineN e 16 1) 1
  if !rec_ ∧ !dev then (s, some (invalidAt 16)) else
  let s1 := if rec_ then s.modCtx (eContext e) fun c => { c with record := default } else s
  (if dev then clearGroups s1 (eField e 20 16) else s1, some okAns)

/-- ERROR_CLEAR (R583). -/
def execErrorClear (m : BoxId) (s : State) : Host.Outcome State Fault Refusal := .next (onCommand m.val 0x0902 errorClearBody s)

/-! THERMAL_SET and THERMAL_GET (R561, R562) -/

/-- A command's write to an RW register, clamped (R561). -/
def cmdWrite (s : State) (off v : Nat) : State :=
  match regRow off with
  | some r => putReg s r off v
  | none => s

/-- The body of THERMAL_SET. -/
def thermalSetBody : Body := fun s _ _ e =>
  let set_ (i : Nat) : Bool := bit (lineN e 16 1) i
  let mask := eField e 32 128
  let s1 := if set_ 0 then cmdWrite (cmdWrite s Reg.thmJuncHi (eField e 17 8)) Reg.thmJuncLo (eField e 18 8) else s
  let s2 := if set_ 1 then cmdWrite (cmdWrite s1 Reg.thmDramHi (eField e 19 8)) Reg.thmDramLo (eField e 20 8) else s1
  let qs := if mask = 0 then List.range 128 else bitsOf 128 mask
  let s3 := if set_ 2 then qs.foldl (fun s q => cmdWrite s (Reg.thmCeil q) (eField e 22 6)) s2 else s2
  let s4 := if set_ 3 then cmdWrite s3 Reg.thmPwrLimit (eField e 24 16) else s3
  (s4, some { status := stOk, result :=
    [(16, 1, s4.rnat Reg.thmJuncHi), (17, 1, s4.rnat Reg.thmJuncLo), (18, 1, s4.rnat Reg.thmDramHi),
      (19, 1, s4.rnat Reg.thmDramLo), (20, 2, s4.rnat Reg.thmPwrLimit)] })

/-- THERMAL_SET (R562). -/
def execThermalSet (m : BoxId) (s : State) : Host.Outcome State Fault Refusal := .next (onCommand m.val 0x0C01 thermalSetBody s)

/-- What THERMAL_GET reports. -/
def thermalAns (s : State) : Ans :=
  let h := hottest s
  let qs := backedQuires s
  { status := stOk, result :=
    [(16, 1, toBits 8 h.1), (17, 1, toBits 8 (hottestDram s)), (18, 2, h.2), (20, 2, avgPower s),
      (22, 2, s.rnat Reg.thmPwrLimit), (24, 1, s.rnat Reg.thmJuncHi), (25, 1, s.rnat Reg.thmJuncLo),
      (26, 1, s.rnat Reg.thmDramHi), (27, 1, s.rnat Reg.thmDramLo), (28, 1, lowestClock s qs),
      (29, 1, (qs.filter fun q => decide (clockOf s q < 48)).length), (30, 1, s.mod.inlet.toNat), (31, 1, s.mod.outlet.toNat),
      (32, 2, s.mod.mainDv.toNat), (34, 2, s.rnat Reg.plnAlertCause)] }

/-- THERMAL_GET (R562). -/
def execThermalGet (m : BoxId) (s : State) : Host.Outcome State Fault Refusal :=
  .next (onCommand m.val 0x0C02 (fun s _ _ _ => (s, some (thermalAns s))) s)

/-! Links (R537, R539) -/

/-- The body of LINK_STATUS. -/
def linkStatusBody : Body := fun s m _ e =>
  let mask := eField e 16 32
  let word (off : Nat) : List Byte := leBytes 4 (readReg s off).toNat
  let bs := ((bitsOf 32 mask).flatMap fun n =>
      word (Reg.chnLinkState n) ++ word (Reg.chnLinkPeer n) ++ word (Reg.chnLinkFlags n) ++ leBytes 4 (topoEntry s n)) ++
    (if bit (lineN e 20 1) 0 then word Reg.cchLinkState ++ word Reg.cchStatus ++ leBytes 8 0 else [])
  (putWindow s (diagOff m) bs,
    some { status := stOk, result := [(16, 4, (readReg s Reg.plnTopoLinks).toNat &&& mask), (48, 4, bs.length)] })

/-- LINK_STATUS (R539). -/
def execLinkStatus (m : BoxId) (s : State) : Host.Outcome State Fault Refusal := .next (onCommand m.val 0x0D01 linkStatusBody s)

/-- The body of LINK_ENABLE. -/
def linkEnableBody : Body := fun s _ _ e =>
  let ns := bitsOf 32 (eField e 16 32)
  let on := bit (lineN e 20 1) 0
  let r := ns.foldl (fun (acc : State × Bool) n =>
    if on then
      let (s1, p) := enableLink acc.1 n
      (s1, acc.2 || p)
    else (disableLink acc.1 n, acc.2)) (s, false)
  (r.1, some (bitmapAns ns.length (2 ^ ns.length - 1) r.2 []))

/-- LINK_ENABLE (R401, R539). -/
def execLinkEnable (m : BoxId) (s : State) : Host.Outcome State Fault Refusal := .next (onCommand m.val 0x0D02 linkEnableBody s)

/-- The device identifier of the manager that the device follows (R417, R537). -/
def managerId (s : State) : Nat := if s.chain.role = 1 then myDev s else myPod s * 16 + s.chain.mgrSlot.toNat

/-- The body of TOPOLOGY_ACCEPT (DEDUCED, log 49). -/
def topologyAcceptBody : Body := fun s _ _ e =>
  let links := eField e 24 32
  if s.rnat Reg.plnTopoChecks = 0 then (s, some busy)
  else if !s.chain.mgrValid ∨ eField e 16 14 ≠ managerId s ∨ eField e 18 16 ≠ s.chain.epoch.toNat then (s, some denied)
  else if (bitsOf 32 links).any fun n => (s.link n).st = .down then (s, some (invalidAt 24))
  else
    let s0 : State := { s with wmk := { s.wmk with
      accLinks := s.wmk.accLinks ||| BitVec.ofNat 32 links, accDies := s.wmk.accDies || bit (lineN e 28 1) 0 } }
    let s1 := s0.ror Reg.plnTopoLinks links
    let s2 := if checksPass s1 then (chainReady s1).ror Reg.plnBootStatus 0x20
      else if s1.rbit Reg.plnReady 2 then
        (bitsOf 32 links).foldl (fun s n => leaveHeld (s.modLink n fun L => { L with accepted := true }) n) s1
      else s1
    (s2, some { status := stOk, result := [(16, 4, s2.rnat Reg.plnTopoLinks)] })

/-- TOPOLOGY_ACCEPT (R537). -/
def execTopologyAccept (m : BoxId) (s : State) : Host.Outcome State Fault Refusal :=
  .next (onCommand m.val 0x0D03 topologyAcceptBody s)

/-! STACK_STATUS and DIAG_READ (R464, R465) -/

/-- The body of STACK_STATUS: a stack whose record or list passes the end of the window is not written. -/
def stackStatusBody : Body := fun s m _ e =>
  let ks := bitsOf 24 (eField e 16 24)
  let r := (List.range ks.length).foldl (fun (acc : List Byte × Nat) i =>
    let bs := stackBytes_ s m (eContext e) (ks.getD i 0)
    if acc.1.length + bs.length ≤ 0x10000 then (acc.1 ++ bs, acc.2 + 2 ^ i) else acc) ([], 0)
  (putWindow s (diagOff m) r.1, some (bitmapAns ks.length r.2 false [(48, 4, r.1.length)]))

/-- STACK_STATUS (R465). -/
def execStackStatus (m : BoxId) (s : State) : Host.Outcome State Fault Refusal := .next (onCommand m.val 0x0D04 stackStatusBody s)

/-- The body of DIAG_READ. A FIRST past the target's last entry leaves no entry to write (DEDUCED, log 66). -/
def diagReadBody : Body := fun s m _ e =>
  let first := eField e 20 32
  match diagTarget s m (eContext e) (eField e 16 4) with
  | none => (s, some (invalidAt 16))
  | some (n, size, entry) =>
    let count := min (eField e 24 32) (min (n - first) (0x10000 / size))
    let bs := (List.range count).flatMap fun i => entry (first + i)
    (putWindow s (diagOff m) bs, some { status := stOk, result := [(48, 4, count)] })

/-- DIAG_READ (R465). -/
def execDiagRead (m : BoxId) (s : State) : Host.Outcome State Fault Refusal := .next (onCommand m.val 0x0E01 diagReadBody s)

end Sys2Proof.Machine
end

