-- ==== Sys2Proof/Machine/Control.lean ====
section
/-! DEFINITION. The control space as the companion writes it (R433, R434, R437, R438, R544): doorbells, registers, and
the notices that wait (R456). -/

namespace Sys2Proof.Machine

/-! Where an offset leads -/

/-- The doorbell blocks (R437). -/
def doorbellBase : Nat := 0x1100000

/-- The offset that a view leads to: a mailbox page's alias leads to its doorbell block (R436). -/
def ctlView (off : Nat) : Nat :=
  if 0x100000 ≤ off ∧ off < doorbellBase ∧ 0x2000 ≤ off % 0x10000 ∧ off % 0x10000 < 0x2040 then
    doorbellBase + 64 * ((off - 0x100000) / 0x10000) + (off % 0x10000 - 0x2000)
  else off

/-- The offset lies in a doorbell block. -/
def isDoorbell (off : Nat) : Bool := decide (doorbellBase ≤ off) && decide (off < doorbellBase + 0x10000)

/-- What the control space serves while the boot ROM waits (R544) (DEDUCED, log 50). -/
def recoveryServes (off : Nat) : Bool :=
  [Reg.plnId, Reg.plnStraps, Reg.plnReady, Reg.plnBootPhase, Reg.plnBootCtrl, Reg.plnBootStatus, Reg.plnBootTime,
    Reg.wmkBoot, Reg.wmkStatus].contains (off / 4 * 4) || (decide (0x3000000 ≤ off) && decide (off < 0x3800000))

/-- The control space serves an offset now: in module reset nothing, and while the boot ROM waits what R544 lists
(DEDUCED, log 50). -/
def ctlServes (s : State) (off : Nat) : Bool :=
  !s.mod.inReset && (bootPhase s != 8 || recoveryServes off)

/-- An access refused as UNMAPPED (R434) (DEDUCED, log 50). -/
def refuseUnmapped (s : State) : State := s.ror Reg.cchStatus 0x40

/-! Doorbells (R438) -/

/-- A doorbell action changes what the alias line shows: a copy of it in the companion is taken back (R435)
(DEDUCED, log 30). -/
def snoopAlias (s : State) (m : Nat) : State :=
  let l := (0x102000 + 0x10000 * m) / 64
  if s.couch.dir.get l ≠ 0 then sendSnoop s l true else s

/-- A write of DBL_CMDm: index `w` covers (w − command read index) mod 64 commands (DEDUCED, log 30). -/
def ringDoorbell (s : State) (m w : Nat) : State :=
  let n := (w % 64 + 64 - (s.box m).cmdRead.toNat) % 64
  if n = (s.box m).covered.toNat then s
  else if n < (s.box m).covered.toNat then refuseUnmapped s
  else serve (snoopAlias (s.modBox m fun b => { b with covered := BitVec.ofNat 6 n }) m) m

/-- A write of DBL_RSP_READm: response entries are free, and NOTIFY_PENDING clears. -/
def takeResponses (s : State) (m r : Nat) : State :=
  serve (flushOutbox 64 (snoopAlias (s.modBox m fun b =>
    { b with rspRead := BitVec.ofNat 6 (r % 64), notifyPending := false }) m) m) m

/-- DBL_CMD: the doorbell rings (R438). -/
def execDblCmd (m : BoxId) (value : Word32) (s : State) : Host.Outcome State Fault Refusal :=
  .next (if ctlServes s doorbellBase then ringDoorbell s m.val value.toNat else s)

/-- DBL_RSP_READ: the response ring read index moves (R438). -/
def execDblRspRead (m : BoxId) (value : Word32) (s : State) : Host.Outcome State Fault Refusal :=
  .next (if ctlServes s doorbellBase then takeResponses s m.val value.toNat else s)

/-! Registers -/

/-- A write of 4 aligned bytes to a register or a doorbell, through either view (R10 to R13, R434, R437, R482, R544)
(DEDUCED, log 70). -/
def writeCtl4 (s : State) (off v : Nat) : State :=
  let o := ctlView off
  if isDoorbell o then
    let m := (o - doorbellBase) / 64
    if o % 64 = 0 then ringDoorbell s m v
    else if o % 64 = 4 then takeResponses s m v
    else writeReg s o v
  else if o = Reg.plnBootCtrl then bootLoad s v
  else writeReg s o v

/-- The offset names a register or a doorbell word: 4-byte aligned, in the register range or in a doorbell block. -/
def ctlWord (off : Nat) : Bool := off % 4 == 0 && (decide (off < 0x100000) || isDoorbell (ctlView off))

/-- REGISTER_WRITE: a write to a register (R10 to R13). -/
def execRegisterWrite (off : BitVec 26) (value : Word32) (s : State) : Host.Outcome State Fault Refusal :=
  if s.mod.inReset then .next s
  else if !ctlWord off.toNat || !ctlServes s off.toNat then .next (refuseUnmapped s)
  else .next (writeCtl4 s off.toNat value.toNat)

/-! Notices that wait (R456) -/

/-- NOTICE_POST: the first queued notice takes a response entry, once the free entries outnumber the commands in
progress (R456) (DEDUCED, log 67). -/
def execNoticePost (m : BoxId) (s : State) : Host.Outcome State Fault Refusal :=
  match (s.box m.val).notices with
  | [] => .next s
  | l :: r =>
    if (s.box m.val).roomForNotice then
      .next ((writeRsp (s.modBox m.val fun b => { b with notices := r }) m.val l).radd Reg.plnNotices 1)
    else .next s

end Sys2Proof.Machine
end

