-- ==== Sys2Proof/Machine/Couch.lean ====
section
/-! DEFINITION. Packets of the Couch link as they arrive (R428 to R440): the companion's accesses to the control
space, its snoops, and its answers to the device's requests and directory snoops. -/

namespace Sys2Proof.Machine

/-! Receiving (R397, R427) -/

/-- The virtual channel of a Couch packet: 0 REQ, 1 RSP, 2 SNP (R429). -/
def cchVc (typ : Nat) : Nat := if typ < 8 then 0 else if typ < 12 then 2 else 1

/-- A packet has left the receive buffer: its flits' credits wait to be returned (R397, R427). -/
def consumeCch (s : State) (typ : Nat) (p : CchPkt) : State :=
  s.modLink 32 fun L =>
    let k := min (1 + dataFlits p.data.length) (L.rxHeld.at_ (cchVc typ))
    { L with rxHeld := L.rxHeld.sub (cchVc typ) k, owed := L.owed.add (cchVc typ) k }

/-- A packet of a type arrives: nothing does while the link is not UP or DEGRADED (R442). -/
def arrive (typ : Nat) (p : CchPkt) (s : State) (k : State → State) : Host.Outcome State Fault Refusal :=
  if p.fits then
    if !(s.link 32).isUp then .next s else .next (k (consumeCch s typ p))
  else .fault .illFormed

/-! Answers -/

/-- An answer to a request: the tag and the address are echoed (R428). -/
def answerCch (s : State) (p : CchPkt) (typ status : Nat) (data : List Byte) : State :=
  sendCch s { mkCch typ p.space p.tag.toNat p.addr.toNat data.length with status := BitVec.ofNat 3 status, data := data }

def ackCch (s : State) (p : CchPkt) : State := answerCch s p 13 0 []
/-- NACK UNMAPPED, which sets CS_UNMAPPED (R434, R544). -/
def nackUnmapped (s : State) (p : CchPkt) : State := answerCch (refuseUnmapped s) p 14 1 []
/-- NACK UNCACHEABLE, which sets CS_UNCACHEABLE (R434). -/
def nackUncacheable (s : State) (p : CchPkt) : State := answerCch (s.ror Reg.cchStatus 0x80) p 14 2 []

/-! The control space (R433) -/

inductive CtlArea where
  | registers | mailboxes | doorbells | reserved | windows
  deriving DecidableEq, Repr

/-- The row of R433's table that an offset lies in; past the control space nothing is mapped. -/
def ctlArea (off : Nat) : CtlArea :=
  if off < 0x100000 then .registers
  else if off < 0x1100000 then .mailboxes
  else if off < 0x1110000 then .doorbells
  else if off < 0x2000000 then .reserved
  else if off < 0x4000000 then .windows
  else .reserved

/-- The byte that a read of the control space returns: registers and doorbells as R10 has them, ring entries and
windows as stored, reserved bytes of a mailbox page as zero. -/
def ctlByte (s : State) (off : Nat) : Byte :=
  let o := ctlView off
  match ctlArea o with
  | .registers | .doorbells => BitVec.ofNat 8 (fld (readReg s (o / 4 * 4)).toNat (8 * (o % 4)) 8)
  | .mailboxes => if o % 0x10000 < 0x2000 then s.mem.get (csAddr o) else 0
  | .windows => s.mem.get (csAddr o)
  | .reserved => 0

def ctlRead (s : State) (off n : Nat) : List Byte := (List.range n).map fun i => ctlByte s (off + i)

/-- Write one byte of a mailbox's rings; reserved bytes of the page ignore it (R13). -/
def ringByte (s : State) (off : Nat) (b : Byte) : State :=
  if off % 0x10000 < 0x2000 then s.wr (csAddr off) [b] else s

/-- Write bytes of mailbox rings, byte j of `data` where `mask j`. -/
def ringWrite (s : State) (off : Nat) (data : List Byte) (mask : Nat → Bool) : State :=
  (List.range data.length).foldl (fun s j => if mask j then ringByte s (off + j) (data.getD j 0) else s) s

/-- Write bytes of the boot window (R544). -/
def windowWrite (s : State) (off : Nat) (data : List Byte) (mask : Nat → Bool) : State :=
  (List.range data.length).foldl (fun s j => if mask j then s.wr (csAddr (off + j)) [data.getD j 0] else s) s

/-- The boot window is open and covers the range (R544). -/
def inBootWindow (s : State) (off n : Nat) : Bool :=
  s.wmk.bootWindow && decide (0x3000000 ≤ off) && decide (off + n ≤ 0x3800000)

/-- The mailbox whose page an offset lies in. -/
def boxOf (off : Nat) : Nat := (off - 0x100000) / 0x10000

/-- The packet keeps the rules of R428 and R429 for a request: to the control space, within 4 KiB of its address, and
in whole aligned lines where `lines` (DEDUCED, log 50). -/
def wellRequested (p : CchPkt) (lines : Bool) : Bool :=
  p.space && decide (1 ≤ p.len.toNat) && decide (p.addr.toNat % 4096 + p.len.toNat ≤ 4096) &&
  (!lines || (p.addr.toNat % 64 == 0 && p.len.toNat % 64 == 0))

/-- Mark the companion's copy of the lines of a range in the directory (R435). -/
def setDir (s : State) (off n : Nat) (v : BitVec 2) : State :=
  { s with couch := { s.couch with dir := (linesOf off n).foldl (fun d l => d.set l v) s.couch.dir } }

/-! Requests of the companion (R429, R433, R434) -/

/-- RD_SHARED: a caching read (R429): mailbox lines only. -/
def rdSharedBody (p : CchPkt) (s : State) : State :=
  let off := p.addr.toNat
  if !wellRequested p true || !ctlServes s off || ctlArea off == .reserved then nackUnmapped s p
  else if ctlArea off ≠ .mailboxes then nackUncacheable s p
  else answerCch (setDir s off p.len.toNat 1) p 12 0 (ctlRead s off p.len.toNat)

/-- RD_SHARED (R429). -/
def execRdShared (pkt : CchPkt) (s : State) : Host.Outcome State Fault Refusal := arrive 0 pkt s (rdSharedBody pkt)

/-- RD_UNCACHED: a read of any part of the control space that is mapped (R429, R433). -/
def rdUncachedBody (p : CchPkt) (s : State) : State :=
  let off := p.addr.toNat
  let n := p.len.toNat
  if !wellRequested p false || !(List.range n).all (fun i => ctlServes s (off + i)) || ctlArea off == .reserved then
    nackUnmapped s p
  else answerCch s p 12 0 (ctlRead s off n)

/-- RD_UNCACHED (R429). -/
def execRdUncached (pkt : CchPkt) (s : State) : Host.Outcome State Fault Refusal :=
  arrive 1 pkt s (rdUncachedBody pkt)

/-- WR: whole lines, into mailboxes and the open boot window (R429, R433, R544). -/
def couchWrBody (p : CchPkt) (s : State) : State :=
  let off := p.addr.toNat
  if !wellRequested p true || decide (p.data.length ≠ p.len.toNat) || !ctlServes s off then nackUnmapped s p
  else match ctlArea off with
    | .mailboxes =>
      if (linesOf off p.len.toNat).any fun l => isDoorbell (ctlView (64 * l)) then nackUnmapped s p
      else serve (ackCch (ringWrite s off p.data fun _ => true) p) (boxOf off)
    | .windows =>
      if inBootWindow s off p.len.toNat then ackCch (windowWrite s off p.data fun _ => true) p else nackUnmapped s p
    | _ => nackUnmapped s p

/-- WR (R429). -/
def execCouchWr (pkt : CchPkt) (s : State) : Host.Outcome State Fault Refusal := arrive 2 pkt s (couchWrBody pkt)

/-- The bytes that a BYTEMASK names, as 4 or 8 aligned bytes: first byte and count. -/
def maskWord (m : BitVec 64) : Option (Nat × Nat) :=
  let at_ (n : Nat) := ((List.range (64 / n)).find? fun i => decide (m.toNat = (2 ^ n - 1) * 2 ^ (n * i))).map
    fun i => (n * i, n)
  (at_ 4).orElse fun _ => at_ 8

/-- A write of 4 or 8 aligned bytes to registers: PLN_TASK_LAUNCH as a whole, others register by register, the lower
first (R434, R482). -/
def ctlWrite (s : State) (off n v : Nat) : State :=
  if n = 8 then
    if off = Reg.plnTaskLaunch then launch s v
    else writeCtl4 (writeCtl4 s off (v % 2 ^ 32)) (off + 4) (v / 2 ^ 32)
  else writeCtl4 s off v

/-- WR_PARTIAL: one line under BYTEMASK (R429, R433, R434). -/
def wrPartialBody (p : CchPkt) (s : State) : State :=
  let off := p.addr.toNat
  if !wellRequested p true || decide (p.len.toNat ≠ 64) || decide (p.data.length ≠ 64) then nackUnmapped s p
  else
    let word (wide : Bool) : State :=
      match maskWord p.mask with
      | some (b, n) =>
        if (n = 4 ∨ wide) && (ctlServes s (off + b) && ctlServes s (off + b + n - 1)) then
          ackCch (ctlWrite s (off + b) n (leNat ((p.data.drop b).take n))) p
        else nackUnmapped s p
      | none => nackUnmapped s p
    match ctlArea off with
    | .registers => word true
    | .doorbells => word false
    | .mailboxes =>
      if isDoorbell (ctlView off) then word false
      else if !ctlServes s off then nackUnmapped s p
      else serve (ackCch (ringWrite s off p.data p.mask.getLsbD) p) (boxOf off)
    | .windows =>
      if inBootWindow s off 64 then ackCch (windowWrite s off p.data p.mask.getLsbD) p else nackUnmapped s p
    | .reserved => nackUnmapped s p

/-- WR_PARTIAL (R429). -/
def execWrPartial (pkt : CchPkt) (s : State) : Host.Outcome State Fault Refusal := arrive 3 pkt s (wrPartialBody pkt)

/-- RD_OWN: a mailbox line is read and kept in M (R429, R433). -/
def rdOwnBody (p : CchPkt) (s : State) : State :=
  let off := p.addr.toNat
  if !wellRequested p true || decide (p.len.toNat ≠ 64) || !ctlServes s off || ctlArea off == .reserved then
    nackUnmapped s p
  else if ctlArea off ≠ .mailboxes then nackUncacheable s p
  else answerCch (setDir s off 64 2) p 12 0 (ctlRead s off 64)

/-- RD_OWN (R429). -/
def execRdOwn (pkt : CchPkt) (s : State) : Host.Outcome State Fault Refusal := arrive 4 pkt s (rdOwnBody pkt)

/-- The data of a line that the companion held in M come back (R435): merged into the mailbox's rings. -/
def mergeBack (s : State) (off : Nat) (data : List Byte) : State :=
  if data.length = 64 ∧ !isDoorbell (ctlView off) then ringWrite s off data fun _ => true else s

/-- EVICT: the companion gives up a mailbox line, with its data when the line was M (R429, R435). -/
def evictBody (p : CchPkt) (s : State) : State :=
  let off := p.addr.toNat
  if !p.space || decide (off % 64 ≠ 0) || !ctlServes s off || ctlArea off != .mailboxes then nackUnmapped s p
  else
    let s1 := if s.couch.dir.get (off / 64) = 2 then mergeBack s off p.data else s
    let s2 := ackCch (setDir s1 off 64 0) p
    serve (flushOutbox 64 s2 (boxOf off)) (boxOf off)

/-- EVICT (R429). -/
def execEvict (pkt : CchPkt) (s : State) : Host.Outcome State Fault Refusal := arrive 5 pkt s (evictBody pkt)

/-! Snoops of the companion (R432) -/

/-- Answer a snoop for a companion line: I or S, without data. -/
def snooped (s : State) (p : CchPkt) (inv : Bool) : State :=
  let l := p.addr.toNat / 64
  let keep := !inv && !p.space && s.couch.cache.contains l
  let s1 : State := if inv && !p.space then
      { s with couch := { s.couch with cache := s.couch.cache.filter (· != l) } }
    else s
  sendCch s1 { mkCch 15 p.space p.tag.toNat p.addr.toNat 0 with keepS := keep }

/-- SNP_INV: the device gives up its copy and answers (R432). -/
def execSnpInv (pkt : CchPkt) (s : State) : Host.Outcome State Fault Refusal :=
  arrive 8 pkt s fun s => snooped s pkt true

/-- SNP_DATA: the device keeps at most S and answers (R432). -/
def execSnpData (pkt : CchPkt) (s : State) : Host.Outcome State Fault Refusal :=
  arrive 9 pkt s fun s => snooped s pkt false

/-! Answers of the companion (R429, R439) -/

/-- The device's request that a response answers, taken off the list. -/
def takeReq (s : State) (p : CchPkt) : State × Option CchReq :=
  match s.couch.reqs.find? (·.tag == p.tag) with
  | none => (s, none)
  | some r => ({ s with couch := { s.couch with reqs := s.couch.reqs.filter (·.tag != p.tag) } }, some r)

/-- The read data of a MOVE: companion bytes from address `a`; whole lines read while the cache is on are kept (R431,
R439). -/
def companionData (s : State) (a : Nat) (d : List Mark) : State :=
  let s1 := compStore s (compBase + a) d
  if s.rbit Reg.cchCtrl 0 && a % 64 == 0 && d.length % 64 == 0 then (linesOf a d.length).foldl cacheAdd s1 else s1

/-- COUCH_DATA: read data arrive for a device read (R431, R439, R443, R312). -/
def couchDataBody (p : CchPkt) (s : State) : State :=
  match takeReq s p with
  | (_, none) => s
  | (s1, some r) =>
    match r.use with
    | .dmv _ c id lin n =>
      let d := marksOf p.data p.poison
      let skip := if p.data.length = n then 0 else r.addr % 64
      if p.data.length < skip + n then s
      else dmvArrived (companionData s1 (r.addr - skip) d) c id lin ((d.drop skip).take n)
    | .vatImport page slot =>
      if p.poison ≠ 0 ∨ s.vat.swapPoison.get slot ≠ 0 then s1.modPage page fun e => { e with bad := true } else s1
    | _ => s

/-- COUCH_DATA (R439) (DEDUCED, log 51). -/
def execCouchData (pkt : CchPkt) (s : State) : Host.Outcome State Fault Refusal := arrive 12 pkt s (couchDataBody pkt)

/-- COUCH_ACK: a device write has been accepted (R430). -/
def couchAckBody (p : CchPkt) (s : State) : State :=
  match takeReq s p with
  | (_, none) => s
  | (s1, some r) =>
    match r.use with
    | .dmvWrite _ c id => dmvAcked s1 c id
    | .vatExport _ | .notify _ | .posted _ => s1
    | .dmv _ _ _ _ _ | .vatImport _ _ => s

/-- COUCH_ACK (R430). -/
def execCouchAck (pkt : CchPkt) (s : State) : Host.Outcome State Fault Refusal := arrive 13 pkt s (couchAckBody pkt)

/-- COUCH_NACK: the companion refuses an access (R438, R439, R312). -/
def couchNackBody (p : CchPkt) (s : State) : State :=
  match takeReq s p with
  | (_, none) => s
  | (s1, some r) =>
    let unmapped (x c id : Nat) : State :=
      if (s1.core c).ctx = x ∧ (flightOf s1 c id).isSome then coreFault s1 c Fc.addrUnmapped 0 else s1
    match r.use with
    | .dmv x c id _ _ => unmapped x c id
    | .dmvWrite x c id => unmapped x c id
    | .vatExport page => exportFails s1 page
    | .vatImport page _ => importFails s1 page
    | .notify _ => s1.ror Reg.cchStatus 0x400
    | .posted x =>
      let s2 := s1.ror (Reg.plnFabricStatus 0) 2
      if x = 0 then s2 else faultCtx s2 x Fc.addrUnmapped none 0

/-- COUCH_NACK (R439) (DEDUCED, log 51). -/
def execCouchNack (pkt : CchPkt) (s : State) : Host.Outcome State Fault Refusal := arrive 14 pkt s (couchNackBody pkt)

/-! Directory snoops (R435) -/

/-- SNP_RSP: the companion answers a directory snoop: returned data are merged first, then the mailbox goes on. -/
def snpRspBody (p : CchPkt) (s : State) : State :=
  match s.couch.snoops.find? (·.tag == p.tag) with
  | none => s
  | some n =>
    let off := 64 * n.line
    let s1 : State := { s with couch := { s.couch with snoops := s.couch.snoops.filter (·.tag != p.tag) } }
    let s2 := setDir (mergeBack s1 off p.data) off 64 (if p.keepS && !n.inv then 1 else 0)
    serve (flushOutbox 64 s2 (boxOf off)) (boxOf off)

/-- SNP_RSP (R435). -/
def execSnpRsp (pkt : CchPkt) (s : State) : Host.Outcome State Fault Refusal := arrive 15 pkt s (snpRspBody pkt)

/-- SNOOP_LATE: a directory snoop has gone unanswered for 10 µs; the device keeps waiting (R435, R456, R581)
(DEDUCED, log 51). -/
def execSnoopLate (line : Fin 1048576) (s : State) : Host.Outcome State Fault Refusal :=
  match s.couch.snoops.find? fun n => n.line == line.val && !n.late with
  | none => .next s
  | some n =>
    let late : State := { s with couch := { s.couch with
      snoops := s.couch.snoops.map fun k => if k.tag = n.tag then { k with late := true } else k } }
    let s1 := ringAdd (late.ror Reg.cchStatus 0x20)
      { kind := 0x36, cls := .event, unitType := 0, unit := 0, detail := detailOf [(28, 4, 64 * n.line)] }
    .next (stallNotice s1 6 0 none 32)

end Sys2Proof.Machine
end

