-- ==== Sys2Proof/Machine/Mma.lean ====
section
/-! DEFINITION. The matrix arrays (chapter 04): LOAD, MUL, DRAIN and SWAP, and relief mode. -/

namespace Sys2Proof.Machine

def Fc.mmaLayout : Nat := 0x110
def Fc.mmaFormat : Nat := 0x111
def Fc.mmaParam : Nat := 0x112
def Fc.mmaSwapEmpty : Nat := 0x113
def Fc.mmaTransposeMx : Nat := 0x114

/-- Flags of the matrix arrays (R133). -/
def fShadowOverwrite : Nat := 0x10000
def fReliefTagMiss : Nat := 0x20000

/-! Fields of an MMA descriptor (R128) -/
def mLayout (w : Nat) : Nat := fld w 68 2
def mSwapFirst (w : Nat) : Bool := bit w 72
def mTranspose (w : Nat) : Bool := bit w 73
def mRelief (w : Nat) : Bool := bit w 74
def mAcc (w : Nat) : Nat := fld w 75 2
def mArith (w : Nat) : Nat := fld w 80 16
def mFmtA (w : Nat) : Nat := fld w 96 5
def mFmtW (w : Nat) : Nat := fld w 104 5
def mFmtOut (w : Nat) : Nat := fld w 112 5
def mFmtC (w : Nat) : Nat := fld w 120 5
def mM (w : Nat) : Nat := fld w 128 10
def mK (w : Nat) : Nat := fld w 144 8
def mN (w : Nat) : Nat := fld w 160 7
def mAccRow (w : Nat) : Nat := fld w 176 9
def mSrc (w : Nat) : Nat := fld w 192 19
def mSrcStride (w : Nat) : Nat := fld w 224 16
def mKBase (w : Nat) : Nat := fld w 240 16
def mSrcScale (w : Nat) : Nat := fld w 256 19
def mDst (w : Nat) : Nat := fld w 288 19
def mDstStride (w : Nat) : Nat := fld w 320 16
def mNBase (w : Nat) : Nat := fld w 336 16
def mDstScale (w : Nat) : Nat := fld w 352 19
def mCAddr (w : Nat) : Nat := fld w 384 19
def mTheta (w : Nat) : Word32 := BitVec.ofNat 32 (fld w 416 32)
def mTable (w : Nat) : Nat := fld w 448 19
def mReliefN (w : Nat) : Nat := fld w 480 8
def mWtag (w : Nat) : Nat := fld w 496 16

/-! Layouts (R105 to R107, R114) -/

/-- The layout is one of the core's kind (R107): press layouts on the last four cores of a quire. -/
def layoutFits (c l : Nat) : Bool := decide (2 ≤ l) == decide (28 ≤ c % 32)

/-- Both operands run at rate 2 (R78, R106). -/
def rateTwo (a w : Nat) : Bool := elemBits a == 4 && elemBits w == 4

/-- DEDUCED, log 55. -/
def kMax (l : Nat) (two : Bool) : Nat := (if l = 0 ∨ l = 2 then 16 else if l = 1 then 32 else 64) * (if two then 2 else 1)
def nMax (l : Nat) : Nat := if l = 0 then 64 else if l = 1 then 32 else 16

/-- Kinds of accumulator (R109). -/
inductive AccKind where
  | float | int | pair
  deriving DecidableEq, Repr

def arrayFloat (f : Nat) : Bool := (decide (1 ≤ f) && decide (f ≤ 5)) || isMx f
def arrayInt (f : Nat) : Bool := f == 0x10 || f == 0x11

/-- The accumulator of an operand pairing, `none` where it is not accepted (R109). -/
def accKind (a w : Nat) : Option AccKind :=
  if arrayFloat a && arrayFloat w then some .float
  else if arrayInt a && arrayInt w then some .int
  else if a == 0x18 && w == 0x18 then some .pair else none

/-- FMT_OUT is allowed for an accumulator (R109), and FMT_C (R110). -/
def outAllowed (k : AccKind) (f : Nat) : Bool := if k = .pair then f == 0x18 else decide (f ≤ 5) || isMx f || isInt f
def cAllowed (k : AccKind) (f : Nat) : Bool :=
  match k with
  | .float => decide (f ≤ 4)
  | .int => isInt f
  | .pair => f == 0x18

/-- Some operand is an MX format. -/
def mMx (w : Nat) : Bool := isMx (mFmtA w) || isMx (mFmtW w)
def mKMax (w : Nat) : Nat := kMax (mLayout w) (rateTwo (mFmtA w) (mFmtW w))

/-- Accumulator entries have two words (R112, R113): pairs, and MX blocks that can span descriptors
(DEDUCED, log 54). -/
def twoWords (w : Nat) : Bool := mFmtA w == 0x18 || (mMx w && decide (mKMax w ≤ 32))

def mMax (w : Nat) : Nat := (if mLayout w = 2 then 512 else 128) / (if twoWords w then 2 else 1)

/-- Entries that M rows take (R114) (DEDUCED, log 54). -/
def entriesOf (w : Nat) : Nat := if mLayout w = 2 then ceilDiv (mM w) 4 else mM w
/-- The entry range runs past the file. -/
def entriesPast (w : Nat) : Bool := decide ((if twoWords w then 64 else 128) < mAccRow w + entriesOf w)

/-- The entry of row `m`, and the arrays that accumulate it (R105). -/
def accEntry (w m : Nat) : Nat := mAccRow w + (if mLayout w = 2 then m / 4 else m)
def arraysOf (w m : Nat) : List Nat :=
  match mLayout w with
  | 0 => [0, 1, 2, 3]
  | 1 => [2, 3]
  | 2 => [m % 4]
  | _ => [3]

/-- Key of the first word of an entry's column (DEDUCED, log 54). -/
def wordKey (w array entry col : Nat) : Nat := (array * 128 + (if twoWords w then 2 * entry else entry)) * 16 + col

/-- Key of the accumulator of output (m, n). -/
def accAt (w m n : Nat) : Nat := wordKey w ((arraysOf w m).getD (n / 16) 0) (accEntry w m) (n % 16)

/-- Key of the relief mode of row `m`'s entry. -/
def modeAt (w m : Nat) : Nat := (arraysOf w m).getD 0 0 * 128 + accEntry w m

/-- Elements of the full row, up to the end of this descriptor, and the block of element `i` (R116). -/
def kTotal (w : Nat) : Nat := mKBase w + mK w
def blockOf (w i : Nat) : Nat := (mKBase w + i) / 32

/-! Weight sets and swaps (R116 to R119) -/

/-- The stored code of weight (k, n), and of its scale. -/
def tileCode (rd : Nat → Byte) (w k n : Nat) : Nat :=
  if mTranspose w then elemCode rd (mSrc w + n * mSrcStride w) (mFmtW w) k
  else elemCode rd (mSrc w + k * mSrcStride w) (mFmtW w) n
def tileScale (rd : Nat → Byte) (w k n : Nat) : Nat :=
  (rd (mSrcScale w + n * ceilDiv (kTotal w) 32 + blockOf w k)).toNat

/-- A map from k × 64 + n. -/
def tileMap (K N : Nat) (f : Nat → Nat → Nat) : SMap Nat :=
  (List.range K).foldl (fun m k => (List.range N).foldl (fun m n => m.set (k * 64 + n) (f k n)) m) ⟨[]⟩

/-- The weight set that a LOAD reads; every other cell is zero (R108). -/
def readTile (rd : Nat → Byte) (w : Nat) : WSet :=
  { layout := mLayout w, fmt := mFmtW w, cells := tileMap (mK w) (mN w) (tileCode rd w)
    scales := if isMx (mFmtW w) then tileMap (mK w) (mN w) (tileScale rd w) else ⟨[]⟩, src := BitVec.ofNat 512 w }

def modMma (s : State) (c : Nat) (f : MmaSt → MmaSt) : State := s.modCore c fun x => { x with mma := f x.mma }

/-- What a LOAD reads (R131). -/
def loadChk (s : State) (e : Upset) (c w : Nat) : Chk :=
  let (rows, len) := if mTranspose w then (mN w, mK w) else (mK w, mN w)
  (readRowsChk s e c (mSrc w) (mSrcStride w) rows (rowLen (mFmtW w) len)).both
    (if isMx (mFmtW w) then
      readRowsChk s e c (mSrcScale w + blockOf w 0) (ceilDiv (kTotal w) 32) (mN w) (ceilDiv (kTotal w) 32 - blockOf w 0) else .ok)

/-- LOAD: the shadow is FILLING, or FULL at once for a zero shape (R116 to R119, R130). -/
def loadBody (c : Nat) (e : Upset) (s0 : State) (w : Nat) : Ran :=
  let s := upset s0 e
  let m := (s.core c).mma
  let zero := mK w == 0 || mN w == 0
  let f := mFmtW w
  if m.shadowSt = .filling then .wait s0
  else if codesReserved 0 [f] then .fault Fc.reserved 0
  else if !layoutFits c (mLayout w) then .fault Fc.mmaLayout 0
  else if !(arrayFloat f || arrayInt f || f == 0x18) then .fault Fc.mmaFormat 0
  else if mTranspose w && isMx f then .fault Fc.mmaTransposeMx 0
  else if kMax (mLayout w) (elemBits f == 4) < mK w ∨ nMax (mLayout w) < mN w then .fault Fc.mmaParam 0
  else
    (if zero then Chk.ok else loadChk s e c w).run s fun _ =>
      let s1 := if m.shadowSt = .full then raiseFlags s c .mma fShadowOverwrite else s
      let s2 := modMma s1 c fun m => { m with shadow := readTile (rdSpd s c) w, shadowSt := if zero then .full else .filling }
      .done s2 fun d => { d with pending := !zero }

/-- LOAD (R116, R117). -/
def execMmaLoad (c : CoreId) (w : WalkerId) (e : Upset) (s : State) : Host.Outcome State Fault Refusal :=
  .next (issue s c.val w.val 1 0 (loadBody c.val e))

/-- SHADOW_FULL: the last row of a LOAD has been written (R118). -/
def execShadowFull (c : CoreId) (s : State) : Host.Outcome State Fault Refusal :=
  if (s.core c.val).mma.shadowSt = .filling then
    .next (s.modCore c.val fun x => { x with
      mma := { x.mma with shadowSt := .full }
      inflight := x.inflight.map fun d => if d.eng = .mma then { d with pending := false } else d })
  else .next s

/-- Active and shadow sets exchange (R118). -/
def swapSets (s : State) (c : Nat) : State :=
  modMma s c fun m => { m with active := m.shadow, shadow := m.active, shadowSt := .spent }

/-- A swap is reached: what it meets (R118). -/
def swapChk (s : State) (c : Nat) : Chk :=
  match (s.core c).mma.shadowSt with
  | .empty => .fault Fc.mmaSwapEmpty 0
  | .filling => .stall
  | _ => .ok

/-- SWAP (R118). -/
def swapBody (c : Nat) (s : State) (_w : Nat) : Ran := (swapChk s c).run s fun _ => .done (swapSets s c) id

/-- SWAP (R118). -/
def execMmaSwap (c : CoreId) (w : WalkerId) (s : State) : Host.Outcome State Fault Refusal :=
  .next (issue s c.val w.val 1 3 (swapBody c.val))

/-! Accumulation (R96, R98 to R101, R111 to R113) -/

/-- One accumulator: its word, its second word, its open block, and a pair whose sum has overflowed
(DEDUCED, log 54). -/
structure AccCell where
  acc : Word32
  second : Word32
  blk : OpenBlk
  povf : Bool
  deriving Inhabited

/-- The accumulator at a key, of two words or of one. -/
def getCell (m : MmaSt) (two : Bool) (key : Nat) : AccCell :=
  if two then
    { acc := m.acc.get key, second := m.acc.get (key + 16), blk := m.opens.get key, povf := m.pairOvf.get key }
  else { (default : AccCell) with acc := m.acc.get key }

/-- Write the accumulator at a key; a word written as a one-word entry holds no open block. -/
def putCell (m : MmaSt) (two : Bool) (key : Nat) (x : AccCell) : MmaSt :=
  if two then
    { m with
      acc := (m.acc.set key x.acc).set (key + 16) x.second, opens := m.opens.set key x.blk
      pairOvf := m.pairOvf.set key x.povf }
  else { m with acc := m.acc.set key x.acc, opens := m.opens.set key default, pairOvf := m.pairOvf.set key default }

/-- A fed element or a weight: its value, the integer it is, its scale code, and its FP32 word (R100). -/
structure Elem where
  val : Val
  int : Int
  scale : Nat
  deriving Inhabited

/-- An operand element from its code: subnormals flushed under flush mode (R94). -/
def operandOf (k : Ctl) (f : Nat) (signed : Bool) (code scale : Nat) : Ar Elem :=
  match fmtOf f with
  | some g => Ar.map (fun v => { val := v, int := 0, scale := scale }) (flushIn k.flush g (decodeFp g code))
  | none => Ar.pure { val := .nan, int := intVal (elemBits f) signed code, scale := scale }

/-- The pass sum of plain operands, and the accumulator after it (R111). -/
def plainRun (ovf : Bool) (acc : Val) (prs : List (Elem × Elem)) : Ar Val :=
  Ar.bind (Ar.fold (fun p (x : Elem × Elem) => Ar.bind (mulX x.1.val x.2.val) (addF ovf p)) (ofInt 0) prs) fun p => addF ovf acc p

/-- Integer accumulation in INT32, the signedness of the accumulator given (R96, R111). -/
def intRun (k : Ctl) (signed : Bool) (acc : Int) (prs : List (Elem × Elem)) : Ar Int :=
  Ar.bind (Ar.fold (fun p (x : Elem × Elem) => intFit 32 signed k.iwrap (p + x.1.int * x.2.int)) 0 prs) fun p =>
    intFit 32 signed k.iwrap (acc + p)

/-- Close an open block: scaled and added (R98, R99, R112). -/
def closeBlock (k : Ctl) (acc sum : Val) (codes : List Nat) : Ar Val :=
  Ar.bind (blockScale k sum codes) fun b => addF k.ovf acc b

/-- The scale codes of an element pair: those of its MX operands. -/
def pairCodes (w : Nat) (x : Elem × Elem) : List Nat :=
  (if isMx (mFmtA w) then [x.1.scale] else []) ++ (if isMx (mFmtW w) then [x.2.scale] else [])

/-- MX accumulation: accumulator, open sum, open block; `whole` closes blocks at their ends in the full row and at the
end of the descriptor (DEDUCED, log 42). -/
def mxRun (k : Ctl) (w : Nat) (whole : Bool) (st : Val × Val × OpenBlk) (prs : List (Elem × Elem)) : Ar (Val × Val × OpenBlk) :=
  let close (st : Val × Val × OpenBlk) : Ar (Val × Val × OpenBlk) :=
    Ar.map (fun a => (a, ofInt 0, { cnt := 0, codes := [] })) (closeBlock k st.1 st.2.1 st.2.2.codes)
  Ar.bind (Ar.fold (fun (st : Val × Val × OpenBlk) (x : Nat × Elem × Elem) =>
    Ar.bind (if whole && (mKBase w + x.1) % 32 == 0 && st.2.2.cnt != 0 then close st else Ar.pure st) fun st =>
    let st := if st.2.2.cnt = 0 then (st.1, ofInt 0, { cnt := 0, codes := pairCodes w x.2 : OpenBlk }) else st
    Ar.bind (mulX x.2.1.val x.2.2.val) fun p =>
    Ar.bind (addF k.ovf st.2.1 p) fun sum =>
      let st : Val × Val × OpenBlk := (st.1, sum, { st.2.2 with cnt := st.2.2.cnt + 1 })
      if st.2.2.cnt = 32 then close st else Ar.pure st) st ((List.range prs.length).zip prs)) fun st =>
  if whole && st.2.2.cnt != 0 then close st else Ar.pure st

/-- The high and the low BF16 part of an FP32 operand (R100). -/
def splitPair (flush : Bool) (v : Val) : Ar (Val × Val) :=
  let hi : Val := match v with
    | .num _ _ _ => decodeFp bf16 ((toW v).toNat / 65536)
    | v => v
  Ar.bind (subX v hi) fun d =>
  Ar.bind (toFp bf16 false false false d) fun code => Ar.map (fun lo => (hi, lo)) (flushIn flush bf16 (decodeFp bf16 code))

/-- One product taken into a pair (s, e), with whether s has overflowed (R100, R101) (DEDUCED, log 42). -/
def pairStep (ovf : Bool) (st : Val × Val × Bool) (p : Val) : Ar (Val × Val × Bool) :=
  let (s, e, past0) := st
  Ar.bind (addX s p) fun x =>
    let past := match x with | .num _ m g => decide (fp32.top < roundMag fp32 none m g) | _ => false
    Ar.bind (f32 ovf x) fun t =>
      if past0 || past then Ar.pure (t, (if t.isNan then .nan else ofInt 0), true)
      else
        Ar.bind (subF ovf t s) fun bp =>
        Ar.bind (subF ovf t bp) fun q =>
        Ar.bind (subF ovf s q) fun d1 =>
        Ar.bind (subF ovf p bp) fun d2 =>
        Ar.bind (addF ovf d1 d2) fun d =>
        Ar.map (fun e1 => (t, (if t.isNan then .nan else e1), false)) (addF ovf e d)

/-- Pair accumulation over the elements (R100, R113). -/
def pairRun (k : Ctl) (st : Val × Val × Bool) (prs : List (Elem × Elem)) : Ar (Val × Val × Bool) :=
  Ar.fold (fun st (x : Elem × Elem) =>
    Ar.bind (splitPair k.flush x.1.val) fun a =>
    Ar.bind (splitPair k.flush x.2.val) fun b =>
    Ar.bind (Ar.each (fun (y : Val × Val) => mulX y.1 y.2) [(a.2, b.1), (a.1, b.2), (a.1, b.1)]) fun ps =>
      Ar.fold (pairStep k.ovf) st ps) st prs

/-- The accumulator of an integer operation is signed (R96). -/
def accSigned (k : Ctl) (w : Nat) : Bool := if isInt (mFmtOut w) then k.sgnOut else true

/-- Run the elements of one output into its accumulator. -/
def cellRun (k : Ctl) (w : Nat) (kind : AccKind) (x : AccCell) (prs : List (Elem × Elem)) : Ar AccCell :=
  match kind with
  | .int => Ar.map (fun (i : Int) => { x with acc := BitVec.ofNat 32 (toBits 32 i) })
      (intRun k (accSigned k w) (intVal 32 (accSigned k w) x.acc.toNat) prs)
  | .pair => Ar.map (fun (r : Val × Val × Bool) => { x with acc := toW r.1, second := toW r.2.1, povf := r.2.2 })
      (pairRun k (ofW x.acc, ofW x.second, x.povf) prs)
  | .float =>
    if mMx w then
      Ar.map (fun (r : Val × Val × OpenBlk) => { x with acc := toW r.1, second := toW r.2.1, blk := r.2.2 })
        (mxRun k w (!twoWords w) (ofW x.acc, ofW x.second, x.blk) prs)
    else Ar.map (fun v => { x with acc := toW v }) (plainRun k.ovf (ofW x.acc) prs)

/-! Relief mode (R120 to R124) -/

/-- Entry `m` of the relief table, and fields of the record that it names. -/
def reliefEntry (s : State) (c w m : Nat) : Nat := leNat (spdRead s c (mTable w + 4 * m) 4)
def recAt (s : State) (c w m : Nat) : Nat := fld (reliefEntry s c w m) 0 19
def recHead (s : State) (c w m : Nat) : Nat := leNat (spdRead s c (recAt s c w m) 8)

/-- A table entry is malformed: reserved bits, or a record that is not aligned (DEDUCED, log 56). -/
def entryWrong (s : State) (c w m : Nat) : Bool :=
  fld (reliefEntry s c w m) 19 12 != 0 || recAt s c w m % 64 != 0

/-- Row `m` runs RELIEF (R121) (DEDUCED, log 56). -/
def reliefRow (s : State) (c w m : Nat) : Bool :=
  let h := recHead s c w m
  !bit (reliefEntry s c w m) 31 && bit h 8 && fld h 16 16 == mWtag w && decide (fld h 0 8 < mReliefN w)

/-- A valid record carries another tag. -/
def tagMiss (s : State) (c w m : Nat) : Bool :=
  let h := recHead s c w m
  bit h 8 && fld h 16 16 != mWtag w

/-- The mode of row `m`: chosen with ACC = 0, kept with the entry otherwise (R121). -/
def rowMode (s : State) (c w m : Nat) : Bool :=
  if !mRelief w then false
  else if mAcc w = 0 then reliefRow s c w m else (s.core c).mma.relief.get (modeAt w m)

/-- Formats accepted in relief (R122). -/
def reliefFormat (w : Nat) : Bool :=
  decide (1 ≤ mFmtA w) && decide (mFmtA w ≤ 4) && decide (1 ≤ mFmtW w) && decide (mFmtW w ≤ 5)

/-- Where X_PREV of row `m` lies, from this descriptor's first element on. -/
def prevAt (s : State) (c w m : Nat) : Nat := recAt s c w m + 64 + mKBase w * (elemBits (mFmtA w) / 8)

/-- The delta stage: what element `i` of a row in RELIEF mode feeds (R122). -/
def deltaElem (k : Ctl) (w : Nat) (x prev : Val) : Ar Val :=
  match fmtOf (mFmtA w) with
  | none => Ar.pure .nan
  | some g =>
    Ar.bind (subX x prev) fun d =>
      if ltV d.abs (ofW (mTheta w)) then Ar.pure (ofInt 0)
      else Ar.map (decodeFp g) (toFp g k.stoch k.ovf k.flush d)

/-- The code of element `i` of activation row `m`, and its scale code. -/
def actCode (rd : Nat → Byte) (w m i : Nat) : Nat := elemCode rd (mSrc w + m * mSrcStride w) (mFmtA w) i
def actScale (rd : Nat → Byte) (w m i : Nat) : Nat :=
  if isMx (mFmtA w) then (rd (mSrcScale w + m * ceilDiv (kTotal w) 32 + blockOf w i)).toNat else 0

/-- What row `m` feeds (R108, R122). -/
def feedRow (s : State) (c : Nat) (k : Ctl) (w m : Nat) : Ar (List Elem) :=
  let rd := rdSpd s c
  let f := mFmtA w
  Ar.each (fun i =>
    if rowMode s c w m then
      Ar.map (fun v => { val := v, int := 0, scale := 0 })
        (deltaElem k w (elemVal f false (actCode rd w m i)) (elemVal f false (elemCode rd (prevAt s c w m) f i)))
    else operandOf k f k.sgnA (actCode rd w m i) (actScale rd w m i)) (List.range (mK w))

/-- The column `n` of the active weights. -/
def weightColumn (a : WSet) (k : Ctl) (w n : Nat) : Ar (List Elem) :=
  Ar.each (fun i => operandOf k a.fmt k.sgnB (a.cells.get (i * 64 + n)) (a.scales.get (i * 64 + n))) (List.range (mK w))

/-- Row `m` qualifies for a skip (R123) (DEDUCED, log 56). -/
def rowSkips (s : State) (c w m : Nat) (feed : List Elem) : Bool :=
  rowMode s c w m && feed.all fun x => x.val.isZero

/-- Rows that one feed interval feeds (DEDUCED, log 56; DEDUCED, log 75). -/
def intervalRows (w i : Nat) : List Nat :=
  if mLayout w = 2 then ((List.range 4).map (4 * i + ·)).filter (decide <| · < mM w) else [i]

/-! MUL -/

/-- The accumulator that output (m, n) starts from (R110, R115). -/
def startCell (rd : Nat → Byte) (k : Ctl) (w : Nat) (kind : AccKind) (x : AccCell) (m n : Nat) : Ar AccCell :=
  if mAcc w = 2 then
    let base := mCAddr w + m * mDstStride w
    let f := mFmtC w
    match kind with
    | .int => Ar.pure { (default : AccCell) with acc := BitVec.ofNat 32 (toBits 32 (intVal (elemBits f) k.sgnOut (elemCode rd base f n))) }
    | .pair => Ar.pure { (default : AccCell) with
        acc := BitVec.ofNat 32 (elemCode rd base 0 (2 * n)), second := BitVec.ofNat 32 (elemCode rd base 0 (2 * n + 1)) }
    | .float => Ar.map (fun v => { (default : AccCell) with acc := toW v }) (readElem rd k.flush base 0 f false n)
  else Ar.pure x

/-- With ACC = 0 the entries of row `m` are set to +0 (R115) (DEDUCED, log 55). -/
def clearRow (mm : MmaSt) (w m : Nat) : MmaSt :=
  (arraysOf w m).foldl (fun mm a => (List.range 16).foldl (fun mm col =>
    putCell mm (twoWords w) (wordKey w a (accEntry w m) col) default) mm) mm

/-- Accumulate one row. -/
def mulRow (rd : Nat → Byte) (k : Ctl) (w : Nat) (kind : AccKind) (cols : List (List Elem)) (mm : MmaSt) (m : Nat)
    (feed : List Elem) (skip : Bool) : Ar MmaSt :=
  let mm0 := if mAcc w = 0 then clearRow mm w m else mm
  Ar.fold (fun mm n =>
    let key := accAt w m n
    Ar.bind (startCell rd k w kind (getCell mm (twoWords w) key) m n) fun x =>
    Ar.map (putCell mm (twoWords w) key)
      (if skip then Ar.pure x else cellRun k w kind x (feed.zip (cols.getD n [])))) mm0 (List.range (mN w))

/-- Run a MUL whose checks have passed (R111 to R115, R121 to R123) (DEDUCED, log 55). -/
def mulRun (s : State) (c w : Nat) (kind : AccKind) : State :=
  let k := ctlFor s c (mArith w)
  let rd := rdSpd s c
  let rows := List.range (mM w)
  let (feeds, s1) := runAr s c .mma (Ar.each (feedRow s c k w) rows)
  let (cols, s2) := runAr s1 c .mma (Ar.each (weightColumn (s.core c).mma.active k w) (List.range (mN w)))
  let skips := rows.map fun m => rowSkips s c w m (feeds.getD m [])
  let intervals := List.range (entriesOf w)
  let skipped := intervals.filter fun i => mRelief w && (intervalRows w i).all fun m => skips.getD m false
  let (mm, s3) := runAr s2 c .mma (Ar.fold (fun mm m =>
    mulRow rd k w kind cols mm m (feeds.getD m []) (skipped.contains (if mLayout w = 2 then m / 4 else m))) (s.core c).mma rows)
  let mm1 := if mAcc w = 0 then { mm with
    relief := rows.foldl (fun r m => r.set (modeAt w m) (rowMode s c w m)) mm.relief } else mm
  let s4 := modMma s3 c fun _ => mm1
  let s5 := (s4.radd (Reg.mmaVectors c) intervals.length).radd (Reg.mmaSkipped c) skipped.length
  if !mRelief w then s5 else
  let s6 := if mAcc w = 0 ∧ rows.any (tagMiss s c w) then raiseFlags s5 c .mma fReliefTagMiss else s5
  let len := mK w * (elemBits (mFmtA w) / 8)
  rows.foldl (fun t m => spdWrite t c (prevAt s c w m) (spdRead s c (mSrc w + m * mSrcStride w) len) 0 false (s.core c).nextId) s6

/-- What a MUL reads and writes besides its relief records. -/
def mulChk (s : State) (e : Upset) (c w : Nat) : Chk :=
  Chk.all [readRowsChk s e c (mSrc w) (mSrcStride w) (mM w) (rowLen (mFmtA w) (mK w)),
    if isMx (mFmtA w) then
      readRowsChk s e c (mSrcScale w + blockOf w 0) (ceilDiv (kTotal w) 32) (mM w) (ceilDiv (kTotal w) 32 - blockOf w 0)
    else .ok,
    if mAcc w = 2 then readRowsChk s e c (mCAddr w) (mDstStride w) (mM w)
      (if mFmtC w = 0x18 then 8 * mN w else rowLen (mFmtC w) (mN w)) else .ok,
    if mRelief w then spdReadChk s e c (mTable w) (4 * mM w) else .ok]

/-- The relief records of a MUL: header with ACC = 0, X_PREV read in RELIEF rows and written in all. -/
def mulRecChk (s : State) (e : Upset) (c w : Nat) : Chk :=
  if !mRelief w then .ok else
  let len := mK w * (elemBits (mFmtA w) / 8)
  Chk.all ((List.range (mM w)).map fun m =>
    Chk.all [if mAcc w = 0 then spdReadChk s e c (recAt s c w m) 8 else .ok,
      if rowMode s c w m then spdReadChk s e c (prevAt s c w m) len else .ok,
      spdChk s c (prevAt s c w m) len])

/-- A MUL's formats are not accepted (R109, R110, R122, R128). -/
def mulFormatWrong (a : WSet) (w : Nat) : Bool :=
  match accKind (mFmtA w) (mFmtW w) with
  | none => true
  | some kind =>
    mFmtW w != a.fmt || (mAcc w == 2 && !cAllowed kind (mFmtC w)) || (kind == .int && !outAllowed kind (mFmtOut w)) ||
      (mRelief w && !reliefFormat w)

/-- A MUL's parameters are wrong (R87, R107, R112, R114, R121, R129). -/
def mulParamWrong (k : Ctl) (a : WSet) (w : Nat) : Bool :=
  let th := ofW (mTheta w)
  a.layout != mLayout w || decide (mMax w < mM w) || decide (mKMax w < mK w) || decide (nMax (mLayout w) < mN w) ||
    entriesPast w ||
    (mMx w && twoWords w && ((mK w != 16 && mK w != 32) || (mKBase w % 32 != 0 && mKBase w % 32 != 16))) ||
    (mRelief w && (mAcc w == 2 || mReliefN w == 0 || th.isNan || ltV th (ofInt 0))) ||
    signsWrong k (isInt (mFmtA w)) (isInt (mFmtW w))
      ((accKind (mFmtA w) (mFmtW w) == some .int && isInt (mFmtOut w)) || (mAcc w == 2 && isInt (mFmtC w)))

/-- MUL behind its swap (DEDUCED, log 55). -/
def mulChecked (c : Nat) (e : Upset) (s : State) (w : Nat) : Ran :=
  let a := (s.core c).mma.active
  match accKind (mFmtA w) (mFmtW w) with
  | none => .fault Fc.mmaFormat 0
  | some kind =>
    if mulFormatWrong a w then .fault Fc.mmaFormat 0
    else if mulParamWrong (ctlFor s c (mArith w)) a w then .fault Fc.mmaParam 0
    else
      (mulChk s e c w).run s fun _ =>
        if mRelief w ∧ (List.range (mM w)).any (entryWrong s c w) then .stop s Fc.mmaParam else
        (mulRecChk s e c w).run s fun _ => .done (mulRun s c w kind) id

/-- Formats that a MUL uses. -/
def mulFormats (w : Nat) : List Nat :=
  [mFmtA w, mFmtW w] ++ (if mAcc w = 2 then [mFmtC w] else []) ++
    (if accKind (mFmtA w) (mFmtW w) = some .int then [mFmtOut w] else [])

/-- A fault or a stall of a descriptor leaves no swap behind: it has no effect (R132). -/
def Ran.undo (r : Ran) (s : State) : Ran :=
  match r with
  | .wait _ => .wait s
  | .stop _ c o => .stop s c o
  | r => r

/-- MUL (R111 to R115, R118, R130). -/
def mulBody (c : Nat) (e : Upset) (s0 : State) (w : Nat) : Ran :=
  let s := upset s0 e
  let zero := mM w == 0 || mK w == 0 || mN w == 0
  if !zero && (codesReserved (mArith w) (mulFormats w) || mAcc w == 3) then .fault Fc.reserved 0
  else if !zero && !layoutFits c (mLayout w) then .fault Fc.mmaLayout 0
  else
    (if mSwapFirst w then swapChk s c else Chk.ok).run s fun _ =>
      let s1 := if mSwapFirst w then swapSets s c else s
      if zero then .done s1 id else (mulChecked c e s1 w).undo s

/-- MUL (R111). -/
def execMmaMul (c : CoreId) (w : WalkerId) (e : Upset) (s : State) : Host.Outcome State Fault Refusal :=
  .next (issue s c.val w.val 1 1 (mulBody c.val e))

/-! DRAIN (R109, R112, R115, R124) -/

/-- The floating value of an accumulator, an open block closed (R112). -/
def drainValue (k : Ctl) (x : AccCell) : Ar Val :=
  if x.blk.cnt = 0 then Ar.pure (ofW x.acc) else closeBlock k (ofW x.acc) (ofW x.second) x.blk.codes

/-- Address of Y_REF of row `m`, from this descriptor's first column on. -/
def refAt (s : State) (c w m : Nat) : Nat :=
  recAt s c w m + fld (recHead s c w m) 32 19 + 4 * mNBase w

/-- The values of row `m`, before conversion (R124). -/
def drainRow (s : State) (c : Nat) (k : Ctl) (w : Nat) (kind : AccKind) (m : Nat) : Ar (List Val) :=
  let mm := (s.core c).mma
  Ar.each (fun n =>
    let x := getCell mm (twoWords w) (accAt w m n)
    match kind with
    | .int => Ar.pure (ofInt (intVal 32 (accSigned k w) x.acc.toNat))
    | _ =>
      Ar.bind (if twoWords w then drainValue k x else Ar.pure (ofW x.acc)) fun v =>
        if mRelief w && mm.relief.get (modeAt w m) then
          addF k.ovf (ofW (BitVec.ofNat 32 (elemCode (rdSpd s c) (refAt s c w m) 0 n))) v
        else Ar.pure v) (List.range (mN w))

/-- The bytes of a row of pairs (R101). -/
def pairBytes (s : State) (c w m : Nat) : List Byte :=
  (List.range (mN w)).flatMap fun n =>
    let x := getCell (s.core c).mma (twoWords w) (accAt w m n)
    leBytes 4 x.acc.toNat ++ leBytes 4 x.second.toNat

/-- A relief record after a DRAIN: COUNT, VALID and WTAG, and Y_REF (R124). -/
def finishRecord (s0 : State) (c w desc : Nat) (s : State) (m : Nat) (ys : List Val) : State :=
  let a := recAt s0 c w m
  let s1 := if (s0.core c).mma.relief.get (modeAt w m) then
      spdWrite s c a (leBytes 1 (fld (recHead s0 c w m) 0 8 + 1)) 0 false desc
    else spdWrite s c a (leBytes 2 0x100 ++ leBytes 2 (mWtag w)) 0 false desc
  spdWrite s1 c (refAt s0 c w m) (ys.flatMap fun y => leBytes 4 (toW y).toNat) 0 false desc

/-- Run a DRAIN whose checks have passed. -/
def drainRun (s : State) (c w : Nat) (kind : AccKind) : State :=
  let k := ctlFor s c (mArith w)
  let desc := (s.core c).nextId
  let rows := List.range (mM w)
  if kind = .pair then writeRows s c (mDst w) (mDstStride w) (rows.map (pairBytes s c w)) false desc else
  let (ys, s1) := runAr s c .mma (Ar.each (drainRow s c k w kind) rows)
  let s2 := if mRelief w then (rows.zip ys).foldl (fun t r => finishRecord s c w desc t r.1 r.2) s1 else s1
  let (lines, s3) := runAr s2 c .mma (Ar.each (writeLine (mFmtOut w) k) ys)
  (rows.zip lines).foldl (fun t r =>
    spdWrite (spdWrite t c (mDst w + r.1 * mDstStride w) r.2.1 0 false desc) c (mDstScale w + r.1 * ceilDiv (mN w) 32) r.2.2 0 false
      desc) s3

/-- What a DRAIN writes, and its relief table. -/
def drainChk (s : State) (e : Upset) (c w : Nat) : Chk :=
  let f := mFmtOut w
  let len := if f = 0x18 then 8 * mN w else if isMx f then rowLen f (32 * ceilDiv (mN w) 32) else rowLen f (mN w)
  Chk.all [writeRowsChk s c (mDst w) (mDstStride w) (mM w) len,
    if isMx f then spdChk s c (mDstScale w) (mM w * ceilDiv (mN w) 32) else .ok,
    if mRelief w then spdReadChk s e c (mTable w) (4 * mM w) else .ok]

/-- The relief records of a DRAIN. -/
def drainRecChk (s : State) (e : Upset) (c w : Nat) : Chk :=
  if !mRelief w then .ok else
  (Chk.all ((List.range (mM w)).map fun m => (spdReadChk s e c (recAt s c w m) 8).both (spdChk s c (recAt s c w m) 8))).both
    (Chk.all ((List.range (mM w)).map fun m =>
      (if (s.core c).mma.relief.get (modeAt w m) then spdReadChk s e c (refAt s c w m) (4 * mN w) else Chk.ok).both
        (spdChk s c (refAt s c w m) (4 * mN w))))

/-- DRAIN (R115, R124, R130). -/
def drainBody (c : Nat) (e : Upset) (s0 : State) (w : Nat) : Ran :=
  let s := upset s0 e
  let k := ctlFor s c (mArith w)
  if mM w = 0 ∨ mN w = 0 then .done s id
  else if codesReserved (mArith w) [mFmtA w, mFmtW w, mFmtOut w] then .fault Fc.reserved 0
  else if !layoutFits c (mLayout w) then .fault Fc.mmaLayout 0
  else
    match accKind (mFmtA w) (mFmtW w) with
    | none => .fault Fc.mmaFormat 0
    | some kind =>
      if !outAllowed kind (mFmtOut w) ∨ (mRelief w ∧ !reliefFormat w) then .fault Fc.mmaFormat 0
      else if mMax w < mM w ∨ nMax (mLayout w) < mN w ∨ entriesPast w ∨
          signsWrong k (isInt (mFmtA w)) (isInt (mFmtW w)) (isInt (mFmtOut w)) then .fault Fc.mmaParam 0
      else
        (drainChk s e c w).run s fun _ =>
          if mRelief w ∧ (List.range (mM w)).any (fun m => entryWrong s c w m || fld (recHead s c w m) 32 19 % 64 != 0) then
            .stop s Fc.mmaParam else
          (drainRecChk s e c w).run s fun _ => .done (drainRun s c w kind) id

/-- DRAIN (R115). -/
def execMmaDrain (c : CoreId) (w : WalkerId) (e : Upset) (s : State) : Host.Outcome State Fault Refusal :=
  .next (issue s c.val w.val 1 2 (drainBody c.val e))

end Sys2Proof.Machine
end

