-- ==== Sys2Proof/Machine/Rebuild.lean ====
section
/-! DEFINITION. Rebuilding dropped pages (R307 to R312). -/

namespace Sys2Proof.Machine

/-- The pages of entries 0 to KIDX − 1 of a page's source list (R308). -/
def lowerPages (s : State) (d : Nat) : List Nat :=
  (List.range (s.page d).kidx.toNat).map fun i => listEntry s (s.page d).srcPage.toNat i

/-- Why a queued rebuild cannot be made (R312): no rebuild partition or program, or another geometry. -/
def rebuildBarred (s : State) (p d : Nat) : Bool :=
  let e := s.page d
  match rebuildPart s e.owner.toNat, (s.part p).program with
  | some rp, some g =>
    rp != p || (s.part p).st != .ready ||
      (match g.stepPart with
       | some sp => gLayers (geomOf s sp) != e.layer.toNat || (s.part sp).program.all fun h => h.rebuildPart != some p || h.ctx != e.owner.toNat
       | none => true)
  | _, _ => true

/-- A rebuild fails: the page keeps its previous state, and every context stalled on it faults (R312). -/
def rebuildFails (s : State) (d : Nat) : State :=
  let e := s.page d
  let s1 : State := { s with vat := { s.vat with
    queue := s.vat.queue.mapAll fun _ l => l.filter (· != d)
    active := s.vat.active.cells.foldl (fun m c => if c.2.any (·.page == d) then m.set c.1 none else m) s.vat.active } }
  let s1 : State := { s1 with arm := { s1.arm with parts := s1.arm.parts.mapAll fun _ P =>
    { P with waiting := P.waiting.filter fun w => w.kind ≠ .rebuild d } } }
  let s2 := (s1.modPage d fun e => { e with st := .dropped, waiters := [] }).ror Reg.vatStatus 8
  let s3 := ringAdd s2 { kind := 0x46, cls := .event, unitType := 13, unit := e.owner.toNat, ctx := e.owner.toNat,
                         detail := detailOf [(28, 4, d)] }
  e.waiters.foldl (fun s x => faultCtx s x Fc.vatRebuild none 0) s3

/-- What a rebuild holds goes back: the task, the scratch page, the working list and the reference on SRC_PAGE. -/
def dropRebuild (s : State) (r : Rebuild) : State :=
  let k := (s.page r.page).kidx.toNat
  let lower := (List.range k).map fun i => listEntry s r.work i
  let s1 := lower.foldl (fun s p => queueRef s p false 0) s
  let s2 := freePage (s1.modPage r.scratch fun e => { e with held := false }) r.scratch
  let s3 := freePage (s2.modPage r.work fun e => { e with held := false }) r.work
  queueRef s3 (s.page r.page).srcPage.toNat false 0

/-- The rebuild partition takes up a page: a working list and a scratch page are made, and the rebuild's task is queued
(R308 steps 1 to 4, R481). -/
def beginRebuild (s : State) (p d : Nat) : State :=
  let e := s.page d
  let x := e.owner.toNat
  let k := e.kidx.toNat
  let dies := partDies s p
  match allocPage s x 1 false false none dies with
  | (s1, .ok work) =>
    match allocPage s1 x 0 false false none dies with
    | (s2, .ok scratch) =>
      let s3 := copyFrame (touch s2 e.srcPage.toNat) (s2.page e.srcPage.toNat).frame.toNat (s2.page work).frame.toNat
      let a := (s3.page work).frame.toNat * 0x200000
      let s4 := s3.devWr (a + 4 * k) (leBytes 4 scratch ++ List.replicate (16380 - 4 * (k + 1)) 0 ++ leBytes 4 work)
      let s5 := (lowerPages s d).foldl (fun s q => queueRef s q true 0) (refUp s4 e.srcPage.toNat)
      let s6 := s5.modPage d fun e => { e with st := .rebuilding }
      let s7 : State := { s6 with vat := { s6.vat with
        queue := s6.vat.queue.mod p (·.drop 1)
        active := s6.vat.active.set p (some { page := d, work := work, scratch := scratch, walked := false }) } }
      let P := gPage (match (s.part p).program.bind (·.stepPart) with | some sp => geomOf s sp | none => 0)
      queueWork s7 p { (default : Work) with
        kind := .rebuild d, ctx := x, want := popCount 128 (s.part p).quires.toNat, high := true
        args := leBytes 4 k ++ leBytes 4 (k * P) ++ leBytes 4 P ++ leBytes 4 d ++ List.replicate 16 0
        handle := (match (s.part p).program with | some g => g.handle | none => 0) }
    | (s2, _) => freePage (s2.modPage work fun e => { e with held := false }) work
  | (s1, _) => s1

/-- REBUILD_START: the rebuild partition takes up the first page of its queue; what the page needs comes first, SRC_PAGE
and then the lower pages in ascending order (R308). -/
def execRebuildStart (p : PartId) (s : State) : Host.Outcome State Fault Refusal :=
  let n := p.val
  match s.vat.active.get n, s.vat.queue.get n with
  | none, d :: rest =>
    if (s.page d).st ≠ .dropped then
      .next { s with vat := { s.vat with queue := s.vat.queue.set n rest } }
    else if rebuildBarred s n d then .next (rebuildFails s d)
    else
      let held (q : Nat) : Bool := (s.page q).st = .live
      match ((s.page d).srcPage.toNat :: lowerPages s d).find? fun q => !held q with
      | none => .next (beginRebuild s n d)
      | some q =>
        match (s.page q).st with
        | .dropped => .next { s with vat := { s.vat with queue := s.vat.queue.set n (q :: (d :: rest).filter (· != q)) } }
        | _ => .next (fetchPage s q (partDies s n))
  | _, _ => .next s

/-- REBUILD_COMPLETE: the walk has ended; the scratch page's frame passes to the page (R308 step 6, R314)
(DEDUCED, log 47). -/
def execRebuildComplete (p : PartId) (s : State) : Host.Outcome State Fault Refusal :=
  match s.vat.active.get p.val with
  | none => .next s
  | some r =>
    if !r.walked then .next s else
    if (s.page r.scratch).st ≠ .live then .next (needFrame s r.scratch (partDies s p.val)).1 else
    let f := (s.page r.scratch).frame.toNat
    let lower := (List.range (s.page r.page).kidx.toNat).map fun i => listEntry s r.work i
    let s1 := s.modPage r.page fun e => { e with
      st := .live, frame := BitVec.ofNat 20 f, lastDie := BitVec.ofNat 3 (frameDie f), age := tick16 s
      comp := (s.page r.scratch).comp, dtslot := (s.page r.scratch).dtslot, waiters := [] }
    let s2 : State := (({ s1 with vat := { s1.vat with
      bound := s1.vat.bound.set f (r.page + 1), active := s1.vat.active.set p.val none } }).modPage r.scratch
        fun _ => default).radd Reg.vatRebuilds 1
    let s3 := (lower ++ [r.work, (s.page r.page).srcPage.toNat]).foldl (fun s q => queueRef s q false 0) s2
    .next (settle s3 r.page)

/-- REBUILD_FAIL: a rebuild that cannot go on, or an import whose data have all arrived and are poisoned, fails (R312). A
rebuild whose walk faulted has gone with the teardown of its context (R314). -/
def execRebuildFail (page : PageId) (s : State) : Host.Outcome State Fault Refusal :=
  let d := page.val
  match (s.page d).st with
  | .importing => if (s.page d).bad ∧ !vatPending s d then .next (importFails s d) else .next s
  | .dropped =>
    match s.vat.queue.cells.find? fun c => c.2.contains d with
    | some (p, _) => if rebuildBarred s p d then .next (rebuildFails s d) else .next s
    | none => if (s.page d).waiters ≠ [] ∧ (rebuildPart s (s.page d).owner.toNat).isNone then .next (rebuildFails s d) else .next s
  | .rebuilding =>
    match s.vat.active.cells.find? fun c => c.2.any (·.page == d) with
    | some (p, some r) =>
      if rebuildBarred s p d then .next (rebuildFails (dropRebuild s r) d) else .next s
    | _ => .next (rebuildFails s d)
  | _ => .next s

end Sys2Proof.Machine
end

