-- ==== Sys2Proof/Machine/Resume.lean ====
section
/-! DEFINITION. Preempted work resumes (R127, R161, R162, R183, R191, R194, R493, R495). -/

namespace Sys2Proof.Machine

/-! What a core restores -/

/-- The word of a live range's accumulators as spilled: key in MmaSt.acc and place in the range. -/
def accWords (v : Nat) : List (Nat × Nat) := (List.range (vLength v / 4)).map fun i => (accWord v i, 4 * i)

/-- Restore a live range of a scratchpad, or of a state store, from the spill at `a`. -/
def restoreBytes (s : State) (dst a n : Nat) : State :=
  let bad := memPoison s a n
  let s1 := s.wr dst (s.rd a n)
  if bad = 0 then s1 else (linesOf dst n).foldl (fun s l => s.setPoison l bad) s1

/-- Restore the accumulator words of a live range, with the open blocks and the modes of their entries (R127). -/
def restoreAcc (s : State) (c v a : Nat) (old : MmaSt) : State :=
  (accWords v).foldl (fun s k => s.modCore c fun x => { x with mma := { x.mma with
    acc := x.mma.acc.set k.1 (BitVec.ofNat 32 (s.rdN (a + k.2) 4))
    opens := x.mma.opens.set k.1 (old.opens.get k.1)
    pairOvf := x.mma.pairOvf.set k.1 (old.pairOvf.get k.1)
    relief := x.mma.relief.set (k.1 / 16) (old.relief.get (k.1 / 16)) } }) s

/-- Restore the live ranges of a core, one after another as they were spilled (R194). -/
def restoreRanges (s : State) (c a : Nat) (old : MmaSt) (ranges : List Nat) : State :=
  (ranges.foldl (fun (acc : State × Nat) v =>
    let s := acc.1
    let s1 := match vStore v with
      | 0 => restoreBytes s (spdAddr c (vStart v)) acc.2 (vLength v)
      | 1 => restoreAcc s c v acc.2 old
      | _ => restoreBytes s (stsAddr c (vStart v)) acc.2 (vLength v)
    (s1, acc.2 + vLength v)) (s, a)).1

/-- Execute a recorded LOAD again; the empty set has none. -/
def reload (s : State) (c : Nat) (W : WSet) : WSet := if W.src = 0 then W else readTile (rdSpd s c) W.src.toNat

/-- Both weight sets and the shadow state are made again from the last LOAD of each (R127). -/
def restoreSets (s : State) (c : Nat) (old : MmaSt) : State :=
  let a := reload s c old.active
  let b := reload s c old.shadow
  let s1 := modMma s c fun m => { m with active := a, shadow := b, shadowSt := old.shadowSt }
  [old.active, old.shadow].foldl (fun (s : State) (W : WSet) =>
    if W.src = 0 ∨ mK W.src.toNat = 0 ∨ mN W.src.toNat = 0 then s else
    match loadChk s .clean c W.src.toNat with
    | .fault code o => coreFault s c code o
    | _ => s) s1

/-- A core takes its walk up again: cleared for the context, its slot table and live ranges restored, the cut item
continued under the new epoch, and then the replay list (R161, R162, R183, R194)
(DESIGN CHOICE, log 37; DEDUCED, log 38). -/
def resumeCore (s : State) (p slot c : Nat) : State :=
  let w := (s.part p).works.get slot
  if w.st ≠ .running then s else
  let key := (p * 17 + slot) * 4096 + c
  let C := s.saved.get key
  let a := spillAt s p w c
  let s1 := decodeRange (startCore s c p slot w.ctx) a (spillBytes (imLiveMax (partImg s p)))
  let slots := (List.range 64).foldl (fun m k => m.set k (slotFrom (s1.rdN (a + 256 + 8 * k) 8))) (⟨[]⟩ : SMap Slot)
  let im := coreImg s1 c
  let epoch (k : Nat) : BitVec 16 := ((s1.quire (c / 32)).ctrs.get (nCtr (imNest im k))).epoch
  let s2 := s1.modCore c fun y => { y with
    pos := C.pos, ended := C.ended, hold := C.hold, nest := C.nest, layer := C.layer, slots := slots, replay := C.replay
    walkers := C.walkers.map fun W => { W with epoch := epoch C.nest }
    openItems := C.openItems.map fun o => { o with epoch := epoch o.nest } }
  let s3 := restoreSets (restoreRanges s2 c (a + 768) C.mma (liveRanges im C.cheapAt)) c C.mma
  let s4 := if C.walkers.isEmpty then s3 else replayItems s3 c C.nest
  { s4 with saved := s4.saved.set key default }

/-! What a quire restores -/

/-- A counter as saved (R492 step 4). -/
def counterFrom (v : Nat) : Counter :=
  { value := BitVec.ofNat 32 v, done := BitVec.ofNat 32 (fld v 32 32), epoch := BitVec.ofNat 16 (fld v 64 16) }

/-- A quire restores its counters, and a task's quires their headers; the prefetcher goes on from the layers that the
cores had entered: what an entry's DST held may have been overwritten, so entries still in use are fetched again
(R183, R191, R483, R495) (DEDUCED, log 38). -/
def resumeQuire (s : State) (p slot q : Nat) : State :=
  let w := (s.part p).works.get slot
  let a := countersAt s p w q
  let s1 := decodeRange s a 256
  let ctrs := (List.range 16).foldl (fun m k => m.set k (counterFrom (s1.rdN (a + 16 * k) 16))) (⟨[]⟩ : SMap Counter)
  let layers := (List.range 32).filterMap fun i =>
    let C := s.saved.get ((p * 17 + slot) * 4096 + (32 * q + i))
    if C.ended then none else some C.layer
  let lo := layers.foldl min (layers.headD 0)
  let top := layers.foldl max 0
  let res := residentLayers (qImg s q)
  let done := (List.range (imLayers (qImg s q))).filter fun j => decide (j + 1 < lo) || res.contains j
  let s2 := s1.modQuire q fun y => { y with ctrs := ctrs, started := top, issued := done, landed := done, layerCtx := w.ctx }
  if slot = 16 then s2 else
  let entry := taskEntry s2 w
  let s3 := qsrWrite s2 q 0x3BFFC0 (taskHeader w slot (quireRank w q) (b2n entry.isSome)) 0
  match entry with
  | some b => qsrWrite s3 q 0x3C0000 b 0
  | none => s3

/-- Preempted work may resume (R495): not held by PREEMPT, and every quire it held free to it. No walk starts while the
entropy source fails (R519) (DEDUCED, log 38). -/
def mayResume (s : State) (p slot : Nat) : Bool :=
  let P := s.part p
  let w := P.works.get slot
  P.st = .ready && w.st = .preempted && !w.held && s.wmk.entropy = .healthy &&
    (bitsOf 128 w.quires.toNat).all fun q => (freeQuires s p w (some slot) []).contains q

/-- WORK_RESUME: preempted work takes its quires again and goes on (R495). -/
def execWorkResume (p : PartId) (slot : Fin 17) (s : State) : Host.Outcome State Fault Refusal :=
  if !mayResume s p.val slot.val then .next s else
  let w := (s.part p.val).works.get slot.val
  let s1 := (markLate s p.val w).modPart p.val fun P =>
    { P with works := P.works.set slot.val { w with st := .running, asked := 0 } }
  let s2 := (bitsOf 128 w.quires.toNat).foldl (fun s q => resumeQuire s p.val slot.val q) s1
  .next ((coresOf w.quires).foldl (fun s c => resumeCore s p.val slot.val c) s2)

end Sys2Proof.Machine
end

