-- ==== Sys2Proof/Machine/Syn.lean ====
section
/-! DEFINITION. Synchronisation: the SYN descriptors (R146, R180, R198, R199). -/

namespace Sys2Proof.Machine

/-! Fields of a SYN descriptor (R198) -/
def ySlot (w : Nat) : Nat := fld w 72 6
def yCounter (w : Nat) : Nat := fld w 80 4
def yOnDone (w : Nat) : Bool := bit w 84
def yBase (w : Nat) : Nat := fld w 96 13
def yLines (w : Nat) : Nat := fld w 109 13
def yReaders (w : Nat) : Nat := fld w 122 4
def yValue (w : Nat) : Nat := fld w 128 32
def yResult (w : Nat) : Nat := fld w 160 19
def yScope (w : Nat) : Bool := bit w 192
def yCores (w : Nat) : Nat := fld w 193 2

/-- The slot fields of the header are clear (R198). -/
def synHeader (w : Nat) : Bool := fld w 8 7 == 0 && fld w 16 7 == 0

/-- Run a SYN whose header is well formed. -/
def synRun (w : Nat) (r : Unit → Ran) : Ran := if synHeader w then r () else .fault Fc.synParam 0

/-- A descriptor of another walker is stalled on a slot (R146). -/
def stalledOn (s : State) (c w k : Nat) : Bool :=
  (List.range (s.core c).walkers.length).any fun v =>
    v != w &&
    match headDesc s c v with
    | some (_, some d) => hClass d != 6 && (hCons d == some k || prodHere c d == some k) &&
        slotChk s c (hCons d) (prodHere c d) == .stall
    | _ => false

/-- A newly defined slot: empty, REMAIN = READERS (R146). -/
def newSlot (d : Nat) : Slot :=
  { base := BitVec.ofNat 13 (yBase d), lines := BitVec.ofNat 13 (yLines d), readers := BitVec.ofNat 4 (yReaders d),
    full := false, defined := true, remain := BitVec.ofNat 4 (yReaders d) }

/-- SLOT_DEF (R146). -/
def slotDefBody (c w : Nat) (s : State) (d : Nat) : Ran :=
  synRun d fun _ =>
    let k := ySlot d
    if 6144 < yBase d + yLines d ∨ yLines d = 0 ∨ yReaders d = 0 ∨ ((s.core c).slots.get k).full ∨ stalledOn s c w k then
      .fault Fc.slotParam 0
    else
      .done (s.modCore c fun x => { x with slots := x.slots.set k (newSlot d) }) id

/-- SLOT_DEF (R146). -/
def execSlotDef (c : CoreId) (w : WalkerId) (s : State) : Host.Outcome State Fault Refusal :=
  .next (issue s c.val w.val 6 0 (slotDefBody c.val w.val))

/-- SLOT_UNDEF (R199). -/
def slotUndefBody (c w : Nat) (s : State) (d : Nat) : Ran :=
  synRun d fun _ =>
    if ((s.core c).slots.get (ySlot d)).full ∨ stalledOn s c w (ySlot d) then .fault Fc.slotParam 0
    else .done (s.modCore c fun x => { x with slots := x.slots.set (ySlot d) default }) id

/-- SLOT_UNDEF (R199). -/
def execSlotUndef (c : CoreId) (w : WalkerId) (s : State) : Host.Outcome State Fault Refusal :=
  .next (issue s c.val w.val 6 1 (slotUndefBody c.val w.val))

/-- CTR_SET: VALUE set, DONE cleared, EPOCH unchanged (R199). -/
def ctrSetBody (c : Nat) (s : State) (d : Nat) : Ran :=
  synRun d fun _ =>
    .done (modCounter s (c / 32) (yCounter d) fun x => { x with value := BitVec.ofNat 32 (yValue d), done := 0 }) id

/-- CTR_SET (R199). -/
def execCtrSet (c : CoreId) (w : WalkerId) (s : State) : Host.Outcome State Fault Refusal :=
  .next (issue s c.val w.val 6 2 (ctrSetBody c.val))

/-- CTR_FADD: fetch-and-add; the old VALUE goes to RESULT (R180, R199). -/
def ctrFaddBody (c : Nat) (s : State) (d : Nat) : Ran :=
  synRun d fun _ =>
    if yResult d % 4 ≠ 0 then .fault Fc.synParam 0 else
    (spdChk s c (yResult d) 4).run s fun _ =>
      let (s1, old) := fetchAdd s (c / 32) (yCounter d) (yValue d)
      .done (spdWrite s1 c (yResult d) (leBytes 4 old) 0 false (s1.core c).nextId) id

/-- CTR_FADD (R180). -/
def execCtrFadd (c : CoreId) (w : WalkerId) (s : State) : Host.Outcome State Fault Refusal :=
  .next (issue s c.val w.val 6 3 (ctrFaddBody c.val))

/-- The chosen word of a counter is at least the threshold, unsigned (R199). -/
def counterMet (s : State) (q k : Nat) (onDone : Bool) (threshold : Nat) : Bool :=
  let x := counterOf s q k
  decide (threshold ≤ (if onDone then x.done else x.value).toNat)

/-- WAIT_GE: the walker is held unless the word is there already (R199). -/
def waitGeBody (c w : Nat) (s : State) (d : Nat) : Ran :=
  synRun d fun _ =>
    if counterMet s (c / 32) (yCounter d) (yOnDone d) (yValue d) then .done s id
    else .done (setHold s c w (.waitGe (yCounter d) (yOnDone d) (yValue d))) id

/-- WAIT_GE (R199). -/
def execWaitGe (c : CoreId) (w : WalkerId) (s : State) : Host.Outcome State Fault Refusal :=
  .next (issue s c.val w.val 6 4 (waitGeBody c.val w.val))

/-- BARRIER: the walker is held until every participating core has arrived (R199). -/
def barrierBody (c w : Nat) (s : State) (d : Nat) : Ran :=
  synRun d fun _ =>
    if yCores d = 3 then .fault Fc.synParam 0 else .done (setHold s c w (.barrier (yScope d) (yCores d))) id

/-- BARRIER (R199). -/
def execBarrier (c : CoreId) (w : WalkerId) (s : State) : Host.Outcome State Fault Refusal :=
  .next (issue s c.val w.val 6 5 (barrierBody c.val w.val))

/-- FENCE: issue goes on only when every earlier descriptor of the core has completed (R199). -/
def fenceBody (c : Nat) (s : State) (d : Nat) : Ran :=
  synRun d fun _ => if (s.core c).inflight.isEmpty then .done s id else .wait s

/-- FENCE (R199). -/
def execFence (c : CoreId) (w : WalkerId) (s : State) : Host.Outcome State Fault Refusal :=
  .next (issue s c.val w.val 6 6 (fenceBody c.val))

/-- WAIT_GE_SATISFIED: the word has reached the threshold and the walker goes on (R199). -/
def execWaitGeSatisfied (c : CoreId) (w : WalkerId) (s : State) : Host.Outcome State Fault Refusal :=
  let n := c.val
  match holdOf (s.core n) w.val with
  | .waitGe k onDone t => if counterMet s (n / 32) k onDone t then .next (advance (setHold s n w.val .none) n) else .next s
  | _ => .next s

/-- The participants of a barrier of core `c` (R199). -/
def barrierCores (s : State) (c : Nat) (partition : Bool) (cores : Nat) : List Nat :=
  let qs := if partition then (workOf s c).quires else BitVec.ofNat 128 (2 ^ (c / 32))
  selectCores qs cores

/-- The walker of a core that is held at a barrier of a scope. -/
def barrierAt (s : State) (c : Nat) (partition : Bool) : Option Nat :=
  (List.range 4).find? fun v => match holdOf (s.core c) v with | .barrier p _ => p == partition | _ => false

/-- BARRIER_RELEASE: every participating core has reached a BARRIER of the scope, and all of them go on (R199). -/
def execBarrierRelease (c : CoreId) (w : WalkerId) (s : State) : Host.Outcome State Fault Refusal :=
  let n := c.val
  match holdOf (s.core n) w.val with
  | .barrier p cores =>
    let who := barrierCores s n p cores
    if who.all fun d => (barrierAt s d p).isSome then
      let s1 := advance (setHold s n w.val .none) n
      .next ((who.filter (· != n)).foldl (fun s d =>
        match barrierAt s d p with
        | some v => advance (setHold s d v .none) d
        | none => s) s1)
    else .next s
  | _ => .next s

end Sys2Proof.Machine
end

