-- ==== Sys2Proof/Machine/Watermark.lean ====
section
/-! DEFINITION. The Watermark (R503 to R524): entropy, link keys, attestation, firmware and configuration updates, and
the overlays (R469). -/

namespace Sys2Proof.Machine

/-! Attestation (R515, R516) -/

/-- The first 1,152 bytes of an attestation report (R516). -/
def reportBody (s : State) (e : Line) : List Byte :=
  leBytes 4 0x41545331 ++ leBytes 2 1 ++ leBytes 2 1152 ++ leBytes 2 0x01A1 ++ leBytes 2 0x0104 ++ leBytes 2 (myDev s) ++
    leBytes 2 (eContext e) ++ leBytes 32 (eField e 16 256) ++ leBytes 4 (readReg s Reg.plnReady).toNat ++
    leBytes 4 (readReg s Reg.plnStraps).toNat ++ leBytes 4 (readReg s Reg.wmkFuses).toNat ++
    leBytes 4 (readReg s Reg.wmkBoot).toNat ++ digestBytes (sha3 Config.identityKey) ++
    (List.range 16).flatMap (fun m => digestBytes (s.wmk.mr.get m)) ++
    (List.range 16).flatMap (fun m => match s.wmk.overlays.find? (·.mode.toNat == m) with
      | some o => digestBytes o.digest
      | none => List.replicate 32 0) ++
    leBytes 4 (s.rnat Reg.wmkReports) ++ List.replicate 28 0

/-- Sign and write an attestation report into the window of mailbox `m`, and answer (R515, R516). -/
def giveReport (s : State) (m sn : Nat) (e : Line) : State :=
  let s1 := s.radd Reg.wmkReports 1
  let body := reportBody s1 e
  let s2 := { s1 with fresh := s1.fresh + 1 }
  let sig := (Config.sign s1.fresh (ascii "FLB-ATT") body).take sigLen
  respond (putWindow s2 (attOff m) (body ++ sig)) m sn { status := stOk, result := [(48, 4, 3572)] }

/-- The entry of a command in progress. -/
def entryOf (s : State) (m sn : Nat) : Line :=
  match (s.box m).inProg.find? (·.sn == sn) with
  | some ip => ip.entry
  | none => 0

/-- ATTEST_REPORT (R515): it waits for the entropy source, and is FAULTED while that has failed (R519). The spec gives
no fault code there; it is a free value. -/
def execAttestReport (m : BoxId) (s : State) : Host.Outcome State Fault Refusal :=
  .next (onCommand m.val 0x0A01 (fun s m sn e =>
    match s.wmk.entropy with
    | .healthy => (giveReport s m sn e, none)
    | .restarting => ({ s with arm := { s.arm with reports := s.arm.reports ++ [(m, sn)] } }, none)
    | .failed =>
      let (v, s1) := s.draw
      (s1, some { status := stFaulted, detail := v.toNat % 65536 })) s)

/-- CERT_READ (R515, R517) (DESIGN CHOICE, log 22). -/
def execCertRead (m : BoxId) (s : State) : Host.Outcome State Fault Refusal :=
  .next (onCommand m.val 0x0A02 (fun s m _ e =>
    let i := eField e 16 2
    if i = 0 ∧ s.wmk.certBad then (s, some (invalidAt 16)) else
    let bs := (if i = 3 then Config.identityKey else Config.certAt (flashBytes s 0x1140000 0x10000) i).take 0x10000
    (putWindow s (attOff m) bs, some { status := stOk, result := [(48, 4, bs.length)] })) s)

/-! Entropy (R519) -/

/-- WMK_ENTROPY's state bits. -/
def entropyBits (s : State) (v : Nat) : State := s.rsetFld Reg.wmkEntropy 0 2 v

/-- ENTROPY_HEALTH_FAIL: the source restarts and its output is withheld (R519). -/
def execEntropyHealthFail (s : State) : Host.Outcome State Fault Refusal :=
  match s.wmk.entropy with
  | .healthy =>
    let s1 := { s with wmk := { s.wmk with entropy := .restarting } }.ror Reg.wmkStatus 4
    .next (entropyBits (s1.rsetFld Reg.wmkEntropy 16 16 (s1.rfld Reg.wmkEntropy 16 16 + 1)) 2)
  | _ => .next s

/-- ENTROPY_FAIL: the source has not passed within 10 ms (R519): waiting creates and reports are answered, and the
device is not context-ready meanwhile (R542). -/
def execEntropyFail (s : State) : Host.Outcome State Fault Refusal :=
  match s.wmk.entropy with
  | .restarting =>
    let s1 := ((({ s with wmk := { s.wmk with entropy := .failed } }.ror Reg.wmkStatus 2).ror Reg.plnAlertCause 0x10).rput
      Reg.plnReady 3 false)
    let s2 := ringAdd s1 { kind := 0x43, cls := .permanent, unitType := 0, unit := 0 }
    let s3 := s2.arm.creates.foldl (fun s w => respond s w.box w.sn noResource) s2
    let (v, s4) := s3.draw
    let s5 := s4.arm.reports.foldl (fun s w => respond s w.1 w.2 { status := stFaulted, detail := v.toNat % 65536 }) s4
    .next (sensorEvents { s5 with arm := { s5.arm with creates := [], reports := [] } })
  | _ => .next s

/-- ENTROPY_RECOVERED: 1,024 consecutive samples passed: the waits end (R519), and the device is context-ready again
if only the entropy failure had ended that (R542). -/
def execEntropyRecovered (s : State) : Host.Outcome State Fault Refusal :=
  if s.wmk.entropy = .healthy then .next s else
  let ready := s.wmk.entropy = .failed ∧ bootPhase s = 7 ∧ !s.arm.refuse
  let s1 := entropyBits ({ s with wmk := { s.wmk with entropy := .healthy } }.rclr Reg.plnAlertCause 0x10) 1
  let s2 := if ready then s1.rput Reg.plnReady 3 true else s1
  let s3 := s2.arm.creates.foldl (fun s w => respond (makeContext s w.ctx w.par) w.box w.sn okAns) s2
  let s4 := s3.arm.reports.foldl (fun s w => giveReport s w.1 w.2 (entryOf s w.1 w.2)) s3
  let s5 : State := { s4 with arm := { s4.arm with creates := [], reports := [] } }
  let free := (s5.arm.ctxs.cells.filter fun c => c.2.st = .free).filterMap fun c => c.2.recorded.map fun p => (c.1, p)
  .next (sensorEvents (free.foldl (fun s c => makeContext s c.1 c.2) s5))

/-! Link keys (R521, R522) -/

/-- The exchange fails; the link stays HELD (R522). -/
def keyFails (s : State) (n : Nat) : State :=
  (s.modLink n fun L => { L with key := .failed }).ror Reg.wmkStatus 0x10

/-- An exchange is under way. -/
def keyRunning (L : Link) : Bool := L.key = .certWait || L.key = .initWait || L.key = .respWait

/-- This end is the initiator: the lower device identifier (R521). -/
def isInitiator (s : State) (n : Nat) : Bool := decide (myDev s < (s.link n).peerDev.toNat)

/-- Key of one direction (R521): from device `a`, link `l`. -/
def linkKey (k t : BitVec 256) (a l : Nat) : BitVec 256 :=
  sha3 (digestBytes k ++ digestBytes t ++ leBytes 2 a ++ leBytes 1 l)

/-- The exchange has completed (R521, R522): both keys stand, and an accepted link leaves HELD. -/
def keyDone (s : State) (n : Nat) (k t : BitVec 256) : State :=
  let s1 := s.modLink n fun L => { L with
    key := .done, gcmTx := 0
    keyTx := linkKey k t (myDev s) n, keyRx := linkKey k t L.peerDev.toNat L.peerLink.toNat }
  leaveHeld (s1.radd Reg.wmkLinkKeys 1) n

/-- `n` random bytes from the DRBG, 8 to a draw (R518). -/
def randBytes : Nat → State → List Byte × State
  | 0, s => ([], s)
  | n + 1, s =>
    let (v, s1) := s.draw
    let (r, s2) := randBytes n s1
    (leBytes 8 v.toNat ++ r, s2)

/-- A signature for a link key message (R503, R521). -/
def linkSign (s : State) (m : List Byte) : List Byte × State :=
  ((Config.sign s.fresh (ascii "FLB-LNK") m).take sigLen, { s with fresh := s.fresh + 1 })

/-- CERT: the peer's certificate chain is checked to the root (R521); the initiator then sends its KEY_INIT
(DESIGN CHOICE, log 22). -/
def execCert (n : ChainId) (msg : List Byte) (s : State) : Host.Outcome State Fault Refusal :=
  if msg.length ≤ 8192 then
    let k := n.val
    let L := s.link k
    if L.st ≠ .held ∨ L.key ≠ .certWait then .next s else
    match Config.certKey msg Config.rootDigest with
    | none => .next (keyFails s k)
    | some pk =>
      if isInitiator s k then
        let ek := Config.kemKey s.fresh
        let (rnd, s1) := randBytes 4 { s with fresh := s.fresh + 1 }
        let (sig, s2) := linkSign s1 (ek ++ rnd)
        let init := ek ++ rnd ++ sig
        let s3 := s2.modLink k fun L => { L with
          key := .respWait, peerKey := pk, keyRand := s.fresh, transcript := L.transcript ++ msg ++ init }
        .next (sendMsg s3 k L.peerDev.toNat 16 init)
      else .next (s.modLink k fun L => { L with key := .initWait, peerKey := pk, transcript := msg ++ L.transcript })
  else .fault .illFormed

/-- Length of an ML-KEM-768 encapsulation key and of a ciphertext (R521). -/
def kemKeyLen : Nat := 1184
def kemCtLen : Nat := 1088

/-- The body of a key message, its random bytes included, and its signature. -/
def splitMsg (kem : Nat) (msg : List Byte) : Option (List Byte × List Byte) :=
  if msg.length = kem + 32 + sigLen then some (msg.take (kem + 32), msg.drop (kem + 32)) else none

/-- KEY_INIT: the responder checks the signature, answers with KEY_RESP, and has both keys (R521). -/
def execKeyInit (n : ChainId) (msg : List Byte) (s : State) : Host.Outcome State Fault Refusal :=
  if msg.length ≤ 8192 then
    let k := n.val
    let L := s.link k
    if L.st ≠ .held ∨ L.key ≠ .initWait then .next s else
    match splitMsg kemKeyLen msg with
    | none => .next (keyFails s k)
    | some (body, sig) =>
      if !Config.verify L.peerKey (ascii "FLB-LNK") body sig then .next (keyFails s k) else
      let ek := body.take kemKeyLen
      let r := s.fresh
      let (rnd, s1) := randBytes 4 { s with fresh := s.fresh + 1 }
      let ct := Config.kemCipher ek r
      let t := sha3 (L.transcript ++ msg ++ ct ++ rnd)
      let (sg, s2) := linkSign s1 (digestBytes t)
      .next (keyDone (sendMsg s2 k L.peerDev.toNat 17 (ct ++ rnd ++ sg)) k (Config.kemSecret r ek) t)
  else .fault .illFormed

/-- KEY_RESP: the initiator checks the signature over the digest of all messages and has both keys (R521). -/
def execKeyResp (n : ChainId) (msg : List Byte) (s : State) : Host.Outcome State Fault Refusal :=
  if msg.length ≤ 8192 then
    let k := n.val
    let L := s.link k
    if L.st ≠ .held ∨ L.key ≠ .respWait then .next s else
    match splitMsg kemCtLen msg with
    | none => .next (keyFails s k)
    | some (body, sig) =>
      let t := sha3 (L.transcript ++ body)
      if !Config.verify L.peerKey (ascii "FLB-LNK") (digestBytes t) sig then .next (keyFails s k)
      else .next (keyDone s k (Config.kemSecret L.keyRand (body.take kemCtLen)) t)
  else .fault .illFormed

/-- LINK_KEY_TIMEOUT: an exchange has not completed within 10 ms (R522) (DESIGN CHOICE, log 27). -/
def execLinkKeyTimeout (n : ChainId) (s : State) : Host.Outcome State Fault Refusal :=
  if keyRunning (s.link n.val) then .next (keyFails s n.val) else .next s

/-- KEY_EXCHANGE_RETRY: a failed exchange is tried again after 1 s (R522). -/
def execKeyExchangeRetry (n : ChainId) (s : State) : Host.Outcome State Fault Refusal :=
  if (s.link n.val).st = .held ∧ (s.link n.val).key = .failed then .next (startKeys s n.val) else .next s

/-! Firmware and configuration updates (R511 to R513) -/

/-- FW_STAGE (R511, R513). -/
def execFwStage (m : BoxId) (s : State) : Host.Outcome State Fault Refusal :=
  .next (onCommand m.val 0x0B01 (fun s _ _ e =>
    let n := eField e 16 23
    let a := eField e 24 64
    if n = 0 then (s, some (invalidAt 16)) else
    readArea s 0 a n 1 (invalidAt 24) fun s1 =>
      let img := s1.rd a n
      let bank := 1 - s1.wmk.fwBank.toNat
      let s2 : State := { s1 with nv := { s1.nv with flash := memWrite s1.nv.flash (0x10000 + bank * 0x800000) img } }
      if fwVerifies s2 img then
        (extend { s2 with wmk := { s2.wmk with stagedOk := true } } 5 (fwDigest img),
          some { status := stOk, result := [(16, 32, (fwDigest img).toNat)] })
      else ({ s2 with wmk := { s2.wmk with stagedOk := false } }.ror Reg.wmkStatus 0x20, some (invalidAt 24))) s)

/-- A configuration area of flash that holds an image. -/
def holdsImage (img : List Byte) : Bool := (img.take 64).any (· != 0)

/-- The selector record (R505). -/
def selectorRecord (seq bank : Nat) : List Byte :=
  let r := leBytes 4 seq ++ leBytes 4 bank ++ leBytes 8 0
  r ++ (digestBytes (sha3 r)).take 16

/-- FW_COMMIT's parts in order (R512): the state, or the byte of the part whose condition fails. -/
def fwCommit (s : State) (select raise revFw : Bool) (revOwner : Nat) : Except Nat State :=
  let revoked := s.nv.ownerRevoked.toNat ||| revOwner
  let base := flashBytes s 0x1010000 0x80000
  let staged := flashBytes s 0x1090000 0x80000
  if revOwner ≠ 0 ∧ !(cfgSigned s revoked base && (!holdsImage staged || cfgSigned s revoked staged)) then .error 17 else
  let s1 : State := if revOwner = 0 then s else
    { s with nv := { s.nv with ownerRevoked := BitVec.ofNat 4 revoked } }.ror Reg.wmkStatus 0x80
  let fwRev := BitVec.ofNat 2 (setFld s1.nv.fwRevoked.toNat (1 - s1.wmk.fwSlot.toNat) 1 1)
  let s2 : State := if !revFw then s1 else
    { s1 with nv := { s1.nv with fwRevoked := fwRev } }.ror Reg.wmkStatus 0x80
  let svn := if s2.nv.svnMin < s2.wmk.fwSvn then s2.wmk.fwSvn else s2.nv.svnMin
  let s3 : State := if !raise then s2 else
    { s2 with nv := { s2.nv with svnMin := svn } }.ror Reg.wmkStatus 0x40
  if !select then .ok s3 else
  let bank := 1 - s3.wmk.fwBank.toNat
  if !s3.wmk.stagedOk ∨ !fwVerifies s3 (bankImage s3 bank) then .error 16 else
  let (copy, seq) := match selector s3 with | some (c, n, _) => (1 - c, n + 1) | none => (0, 1)
  let rec_ := selectorRecord seq bank
  .ok (extend { s3 with nv := { s3.nv with flash := memWrite s3.nv.flash (copy * 0x8000) rec_ } } 5 (sha3 rec_))

/-- FW_COMMIT (R512, R513). -/
def execFwCommit (m : BoxId) (s : State) : Host.Outcome State Fault Refusal :=
  .next (onCommand m.val 0x0B02 (fun s _ _ e =>
    let x := eExpert e
    match fwCommit s (bit (lineN e 16 1) 0) (x && bit (lineN e 16 1) 1) (x && bit (lineN e 16 1) 2)
        (if x then eField e 17 4 else 0) with
    | .ok s1 => (s1, some okAns)
    | .error b => (s, some (invalidAt b))) s)

/-- A configuration image is rejected (R468, R511). -/
def rejectConfig (s : State) : State := (s.ror Reg.wmkStatus 0x20).ror Reg.plnArmStatus 8

/-- CONFIG_STAGE (R511, R513) (DEDUCED, log 66). -/
def execConfigStage (m : BoxId) (s : State) : Host.Outcome State Fault Refusal :=
  .next (onCommand m.val 0x0B03 (fun s _ _ e =>
    let overlay := bit (lineN e 16 1) 0
    let mode := eField e 17 4
    let n := eField e 20 20
    let a := eField e 24 64
    if n = 0 then (s, some (invalidAt 20)) else
    readArea s 0 a n 1 (invalidAt 24) fun s1 =>
      let img := s1.rd a n
      let ok := if overlay then overlayOk s1 img && cfgMode img == mode else (baseOk s1 img).isSome
      let off := if overlay then 0x1110000 + mode * 0x2000 else 0x1090000
      if ok then
        (extend { s1 with nv := { s1.nv with flash := memWrite s1.nv.flash off (img.take (cfgLength img + sigLen)) } } 5
          (cfgDigest img), some okAns)
      else (rejectConfig s1, some (invalidAt 24))) s)

/-! Overlays (R469, R470) -/

/-- The registers whose value a change of overlays changes, with their new effective values. -/
def revertEntries (s : State) (old new : List Overlay) (offs : List Nat) : List (Nat × Word32) :=
  (offs.eraseDups.filter fun off => effective s.wmk.base old off ≠ effective s.wmk.base new off).map fun off =>
    (off, (effective s.wmk.base new off).getD (regReset off))

/-- Measure an overlay event (R514, MR4). -/
def measureOverlay (s : State) (event mode : Nat) (d : BitVec 256) : State :=
  extend s 4 (sha3 (leBytes 1 event ++ leBytes 1 mode ++ digestBytes d))

/-- Apply a verified overlay image: atomic, under the idle check (R469). -/
def applyOverlay (s : State) (mode : Nat) (img : List Byte) : State × Option Ans :=
  let o : Overlay := { mode := BitVec.ofNat 4 mode, digest := cfgDigest img, entries := cfgStored img }
  let rest := s.wmk.overlays.filter (·.mode.toNat != mode)
  let old := s.wmk.overlays.filter (·.mode.toNat == mode)
  let gone := (old.flatMap (·.entries)).map (·.1) |>.filter fun off => !o.entries.any (·.1 == off)
  let back := revertEntries s s.wmk.overlays (rest ++ [o]) gone
  if !entriesIdle s (back ++ o.entries) then (s, some busy) else
  let s1 := (back ++ o.entries).foldl (fun s e => applyEntry s (e.1, e.2.toNat)) s
  let s2 := syncOverlays { s1 with wmk := { s1.wmk with overlays := rest ++ [o] } }
  (measureOverlay s2 1 mode o.digest, some okAns)

/-- Verify and apply an overlay image; `field` names it. -/
def tryOverlay (s : State) (mode field : Nat) (img : List Byte) : State × Option Ans :=
  if !overlayOk s img then (rejectConfig s, some (invalidAt field))
  else if cfgMode img ≠ mode then (s, some (invalidAt 16))
  else applyOverlay s mode img

/-- OVERLAY_APPLY (R469). -/
def execOverlayApply (m : BoxId) (s : State) : Host.Outcome State Fault Refusal :=
  .next (onCommand m.val 0x0002 (fun s _ _ e =>
    let mode := eField e 16 4
    let a := eField e 24 64
    if !bit (lineN e 17 1) 0 then
      tryOverlay s mode 17 ((List.range 0x2000).map fun i => s.wmk.ovlCopy.get (mode * 0x2000 + i))
    else
      readArea s 0 a 64 1 (invalidAt 24) fun s1 =>
        let n := min (cfgLength (s1.rd a 64)) 4096 + sigLen
        readArea s1 0 a n 1 (invalidAt 24) fun s2 => tryOverlay s2 mode 24 (s2.rd a n)) s)

/-- OVERLAY_WITHDRAW (R469): only registers whose effective value changes are written, under the idle check
(DEDUCED, log 66). -/
def execOverlayWithdraw (m : BoxId) (s : State) : Host.Outcome State Fault Refusal :=
  .next (onCommand m.val 0x0003 (fun s _ _ e =>
    let mode := eField e 16 4
    let rest := s.wmk.overlays.filter (·.mode.toNat != mode)
    let offs := ((s.wmk.overlays.filter (·.mode.toNat == mode)).flatMap (·.entries)).map (·.1)
    let back := revertEntries s s.wmk.overlays rest offs
    if !entriesIdle s back then (s, some busy) else
    let s1 := back.foldl (fun s e => applyEntry s (e.1, e.2.toNat)) s
    (measureOverlay (syncOverlays { s1 with wmk := { s1.wmk with overlays := rest } }) 2 mode 0, some okAns)) s)

end Sys2Proof.Machine
end

