-- ==== Sys2Proof/Machine/Dispatch.lean ====
section
/-! DEFINITION. One arm per command: its meaning. -/

namespace Sys2Proof.Machine

/-- The effect of a command on everything but the queue. -/
def exec (i : Instr) (s : State) : Host.Outcome State Fault Refusal :=
  match i with
  | .converterStart mainDv => Sys2Proof.Machine.execConverterStart mainDv s
  | .converterStop mainDv auxDv => Sys2Proof.Machine.execConverterStop mainDv auxDv s
  | .auxLost => Sys2Proof.Machine.execAuxLost s
  | .modResetN ns => Sys2Proof.Machine.execModResetN ns s
  | .bringUpStart straps => Sys2Proof.Machine.execBringUpStart straps s
  | .bootWindowLoad value => Sys2Proof.Machine.execBootWindowLoad value s
  | .stackTrained stk failedPcs => Sys2Proof.Machine.execStackTrained stk failedPcs s
  | .retentionRestEnd stk failed => Sys2Proof.Machine.execRetentionRestEnd stk failed s
  | .memoryTestComplete stk failed => Sys2Proof.Machine.execMemoryTestComplete stk failed s
  | .pointingPass => Sys2Proof.Machine.execPointingPass s
  | .proofRunComplete unit same poisoned => Sys2Proof.Machine.execProofRunComplete unit same poisoned s
  | .thermalTrip cause => Sys2Proof.Machine.execThermalTrip cause s
  | .refclkSerdesLost => Sys2Proof.Machine.execRefclkSerdesLost s
  | .refclkCoreLost => Sys2Proof.Machine.execRefclkCoreLost s
  | .extest insn => Sys2Proof.Machine.execExtest insn s
  | .powerSample watts mainDv => Sys2Proof.Machine.execPowerSample watts mainDv s
  | .powerGovernor => Sys2Proof.Machine.execPowerGovernor s
  | .junctionRead q degC => Sys2Proof.Machine.execJunctionRead q degC s
  | .junctionLimit => Sys2Proof.Machine.execJunctionLimit s
  | .coolantRead inlet outlet => Sys2Proof.Machine.execCoolantRead inlet outlet s
  | .setNumericEffecterValue effecter value => Sys2Proof.Machine.execSetNumericEffecterValue effecter value s
  | .getSensorReading sensor => Sys2Proof.Machine.execGetSensorReading sensor s
  | .entropyHealthFail => Sys2Proof.Machine.execEntropyHealthFail s
  | .entropyFail => Sys2Proof.Machine.execEntropyFail s
  | .entropyRecovered => Sys2Proof.Machine.execEntropyRecovered s
  | .linkKeyTimeout n => Sys2Proof.Machine.execLinkKeyTimeout n s
  | .dblCmd m value => Sys2Proof.Machine.execDblCmd m value s
  | .dblRspRead m value => Sys2Proof.Machine.execDblRspRead m value s
  | .registerWrite off value => Sys2Proof.Machine.execRegisterWrite off value s
  | .powerDownRequest bank => Sys2Proof.Machine.execPowerDownRequest bank s
  | .powerUpRequest bank => Sys2Proof.Machine.execPowerUpRequest bank s
  | .bankDrained bank => Sys2Proof.Machine.execBankDrained bank s
  | .rampDownComplete bank => Sys2Proof.Machine.execRampDownComplete bank s
  | .rampUpComplete bank => Sys2Proof.Machine.execRampUpComplete bank s
  | .bankClearComplete bank => Sys2Proof.Machine.execBankClearComplete bank s
  | .chnLinkEnableSet n => Sys2Proof.Machine.execChnLinkEnableSet n s
  | .chnLinkEnableClear n => Sys2Proof.Machine.execChnLinkEnableClear n s
  | .taskLaunch addr => Sys2Proof.Machine.execTaskLaunch addr s
  | .noticePost m => Sys2Proof.Machine.execNoticePost m s
  | .info m => Sys2Proof.Machine.execInfo m s
  | .overlayApply m => Sys2Proof.Machine.execOverlayApply m s
  | .overlayWithdraw m => Sys2Proof.Machine.execOverlayWithdraw m s
  | .bankPower m => Sys2Proof.Machine.execBankPower m s
  | .decodeTableLoad m => Sys2Proof.Machine.execDecodeTableLoad m s
  | .decodeTableWithdraw m => Sys2Proof.Machine.execDecodeTableWithdraw m s
  | .partitionCreate m => Sys2Proof.Machine.execPartitionCreate m s
  | .partitionDestroy m => Sys2Proof.Machine.execPartitionDestroy m s
  | .contextCreate m => Sys2Proof.Machine.execContextCreate m s
  | .contextDestroy m => Sys2Proof.Machine.execContextDestroy m s
  | .mailboxGrant m => Sys2Proof.Machine.execMailboxGrant m s
  | .mailboxRevoke m => Sys2Proof.Machine.execMailboxRevoke m s
  | .memoryGrant m => Sys2Proof.Machine.execMemoryGrant m s
  | .programLoad m => Sys2Proof.Machine.execProgramLoad m s
  | .programUnload m => Sys2Proof.Machine.execProgramUnload m s
  | .groupOpen m => Sys2Proof.Machine.execGroupOpen m s
  | .groupClose m => Sys2Proof.Machine.execGroupClose m s
  | .branchFork m => Sys2Proof.Machine.execBranchFork m s
  | .trimPolicy m => Sys2Proof.Machine.execTrimPolicy m s
  | .streamOpen m => Sys2Proof.Machine.execStreamOpen m s
  | .streamClose m => Sys2Proof.Machine.execStreamClose m s
  | .streamSwapOut m => Sys2Proof.Machine.execStreamSwapOut m s
  | .streamFlush m => Sys2Proof.Machine.execStreamFlush m s
  | .streamExport m => Sys2Proof.Machine.execStreamExport m s
  | .streamImport m => Sys2Proof.Machine.execStreamImport m s
  | .vatReserve m => Sys2Proof.Machine.execVatReserve m s
  | .vatRelease m => Sys2Proof.Machine.execVatRelease m s
  | .vatQuery m => Sys2Proof.Machine.execVatQuery m s
  | .cycleTableSet m => Sys2Proof.Machine.execCycleTableSet m s
  | .cycleTableClear m => Sys2Proof.Machine.execCycleTableClear m s
  | .preempt m => Sys2Proof.Machine.execPreempt m s
  | .resume m => Sys2Proof.Machine.execResume m s
  | .partitionReset m => Sys2Proof.Machine.execPartitionReset m s
  | .errorRead m => Sys2Proof.Machine.execErrorRead m s
  | .errorClear m => Sys2Proof.Machine.execErrorClear m s
  | .attestReport m => Sys2Proof.Machine.execAttestReport m s
  | .certRead m => Sys2Proof.Machine.execCertRead m s
  | .fwStage m => Sys2Proof.Machine.execFwStage m s
  | .fwCommit m => Sys2Proof.Machine.execFwCommit m s
  | .configStage m => Sys2Proof.Machine.execConfigStage m s
  | .thermalSet m => Sys2Proof.Machine.execThermalSet m s
  | .thermalGet m => Sys2Proof.Machine.execThermalGet m s
  | .linkStatus m => Sys2Proof.Machine.execLinkStatus m s
  | .linkEnable m => Sys2Proof.Machine.execLinkEnable m s
  | .topologyAccept m => Sys2Proof.Machine.execTopologyAccept m s
  | .stackStatus m => Sys2Proof.Machine.execStackStatus m s
  | .diagRead m => Sys2Proof.Machine.execDiagRead m s
  | .taskStart p => Sys2Proof.Machine.execTaskStart p s
  | .taskEnd p slot => Sys2Proof.Machine.execTaskEnd p slot s
  | .slotBoundary p => Sys2Proof.Machine.execSlotBoundary p s
  | .cheapPointSpill c => Sys2Proof.Machine.execCheapPointSpill c s
  | .preemptionComplete p slot => Sys2Proof.Machine.execPreemptionComplete p slot s
  | .workResume p slot => Sys2Proof.Machine.execWorkResume p slot s
  | .progressNotice c => Sys2Proof.Machine.execProgressNotice c s
  | .teardownComplete x => Sys2Proof.Machine.execTeardownComplete x s
  | .resetComplete p => Sys2Proof.Machine.execResetComplete p s
  | .destroyComplete p => Sys2Proof.Machine.execDestroyComplete p s
  | .rootTaskComplete g => Sys2Proof.Machine.execRootTaskComplete g s
  | .rosterClose p => Sys2Proof.Machine.execRosterClose p s
  | .recordRingStall g => Sys2Proof.Machine.execRecordRingStall g s
  | .allocSkipStall b => Sys2Proof.Machine.execAllocSkipStall b s
  | .partitionStepComplete p => Sys2Proof.Machine.execPartitionStepComplete p s
  | .groupBoundary g => Sys2Proof.Machine.execGroupBoundary g s
  | .forkComplete b => Sys2Proof.Machine.execForkComplete b s
  | .branchFree b => Sys2Proof.Machine.execBranchFree b s
  | .groupEnd g => Sys2Proof.Machine.execGroupEnd g s
  | .vatTick => Sys2Proof.Machine.execVatTick s
  | .vatSweep page => Sys2Proof.Machine.execVatSweep page s
  | .refcountIncrement page => Sys2Proof.Machine.execRefcountIncrement page s
  | .refcountDecrement page => Sys2Proof.Machine.execRefcountDecrement page s
  | .backgroundEviction d => Sys2Proof.Machine.execBackgroundEviction d s
  | .pageExportComplete page => Sys2Proof.Machine.execPageExportComplete page s
  | .pageImportComplete page => Sys2Proof.Machine.execPageImportComplete page s
  | .rebuildStart p => Sys2Proof.Machine.execRebuildStart p s
  | .rebuildComplete p => Sys2Proof.Machine.execRebuildComplete p s
  | .rebuildFail page => Sys2Proof.Machine.execRebuildFail page s
  | .moveComplete page => Sys2Proof.Machine.execMoveComplete page s
  | .writeGatherFlush stk block => Sys2Proof.Machine.execWriteGatherFlush stk block s
  | .seal stk => Sys2Proof.Machine.execSeal stk s
  | .recode stk => Sys2Proof.Machine.execRecode stk s
  | .tableLoadComplete slot => Sys2Proof.Machine.execTableLoadComplete slot s
  | .tableSlotFree slot => Sys2Proof.Machine.execTableSlotFree slot s
  | .stackRead stk unit found => Sys2Proof.Machine.execStackRead stk unit found s
  | .stackWrite stk unit data mask found => Sys2Proof.Machine.execStackWrite stk unit data mask found s
  | .parityError stk pc => Sys2Proof.Machine.execParityError stk pc s
  | .parityReissue stk pc ok => Sys2Proof.Machine.execParityReissue stk pc ok s
  | .softRepairComplete stk => Sys2Proof.Machine.execSoftRepairComplete stk s
  | .refresh stk pc bank => Sys2Proof.Machine.execRefresh stk pc bank s
  | .patrolScrub stk found => Sys2Proof.Machine.execPatrolScrub stk found s
  | .dramTempRead stk reading => Sys2Proof.Machine.execDramTempRead stk reading s
  | .stackLimit => Sys2Proof.Machine.execStackLimit s
  | .pcRetire stk pc => Sys2Proof.Machine.execPcRetire stk pc s
  | .redirectCopyStart stk pc => Sys2Proof.Machine.execRedirectCopyStart stk pc s
  | .redirectCopyComplete stk pc => Sys2Proof.Machine.execRedirectCopyComplete stk pc s
  | .repairLogAppend => Sys2Proof.Machine.execRepairLogAppend s
  | .gatherFlush c line bad => Sys2Proof.Machine.execGatherFlush c line bad s
  | .lineTest line fails => Sys2Proof.Machine.execLineTest line fails s
  | .slotStallNotice c w => Sys2Proof.Machine.execSlotStallNotice c w s
  | .waitStallNotice c w => Sys2Proof.Machine.execWaitStallNotice c w s
  | .nestEntry c => Sys2Proof.Machine.execNestEntry c s
  | .tileEntry c w => Sys2Proof.Machine.execTileEntry c w s
  | .itemDraw c w => Sys2Proof.Machine.execItemDraw c w s
  | .doneNotice c => Sys2Proof.Machine.execDoneNotice c s
  | .multicastDelivery q => Sys2Proof.Machine.execMulticastDelivery q s
  | .prefetchIssue q => Sys2Proof.Machine.execPrefetchIssue q s
  | .prefetchLanded q j => Sys2Proof.Machine.execPrefetchLanded q j s
  | .descriptorComplete c eng => Sys2Proof.Machine.execDescriptorComplete c eng s
  | .remoteProducerLanded c => Sys2Proof.Machine.execRemoteProducerLanded c s
  | .shadowFull c => Sys2Proof.Machine.execShadowFull c s
  | .mmaLoad c w e => Sys2Proof.Machine.execMmaLoad c w e s
  | .mmaMul c w e => Sys2Proof.Machine.execMmaMul c w e s
  | .mmaDrain c w e => Sys2Proof.Machine.execMmaDrain c w e s
  | .mmaSwap c w => Sys2Proof.Machine.execMmaSwap c w s
  | .copy c w e => Sys2Proof.Machine.execCopy c w e s
  | .add c w e => Sys2Proof.Machine.execAdd c w e s
  | .sub c w e => Sys2Proof.Machine.execSub c w e s
  | .vecMul c w e => Sys2Proof.Machine.execVecMul c w e s
  | .div c w e => Sys2Proof.Machine.execDiv c w e s
  | .max c w e => Sys2Proof.Machine.execMax c w e s
  | .min c w e => Sys2Proof.Machine.execMin c w e s
  | .fma c w e => Sys2Proof.Machine.execFma c w e s
  | .abs c w e => Sys2Proof.Machine.execAbs c w e s
  | .relu c w e => Sys2Proof.Machine.execRelu c w e s
  | .gelu c w e => Sys2Proof.Machine.execGelu c w e s
  | .silu c w e => Sys2Proof.Machine.execSilu c w e s
  | .sigmoid c w e => Sys2Proof.Machine.execSigmoid c w e s
  | .tanh c w e => Sys2Proof.Machine.execTanh c w e s
  | .exp c w e => Sys2Proof.Machine.execExp c w e s
  | .log c w e => Sys2Proof.Machine.execLog c w e s
  | .sqrt c w e => Sys2Proof.Machine.execSqrt c w e s
  | .rsqrt c w e => Sys2Proof.Machine.execRsqrt c w e s
  | .recip c w e => Sys2Proof.Machine.execRecip c w e s
  | .clamp c w e => Sys2Proof.Machine.execClamp c w e s
  | .rsum c w e => Sys2Proof.Machine.execRsum c w e s
  | .rmax c w e => Sys2Proof.Machine.execRmax c w e s
  | .rmin c w e => Sys2Proof.Machine.execRmin c w e s
  | .rsumsq c w e => Sys2Proof.Machine.execRsumsq c w e s
  | .rargmax c w e => Sys2Proof.Machine.execRargmax c w e s
  | .softmax c w e => Sys2Proof.Machine.execSoftmax c w e s
  | .layernorm c w e => Sys2Proof.Machine.execLayernorm c w e s
  | .rmsnorm c w e => Sys2Proof.Machine.execRmsnorm c w e s
  | .conv c w e => Sys2Proof.Machine.execConv c w e s
  | .sample c w e => Sys2Proof.Machine.execSample c w e s
  | .attend c w e => Sys2Proof.Machine.execAttend c w e s
  | .finish c w e => Sys2Proof.Machine.execFinish c w e s
  | .exportRows c w e => Sys2Proof.Machine.execExportRows c w e s
  | .appendRows c w e => Sys2Proof.Machine.execAppendRows c w e s
  | .arm c w => Sys2Proof.Machine.execArm c w s
  | .combineMerge q => Sys2Proof.Machine.execCombineMerge q s
  | .combineFinalise q => Sys2Proof.Machine.execCombineFinalise q s
  | .combineResultLanded q => Sys2Proof.Machine.execCombineResultLanded q s
  | .chunk c w e => Sys2Proof.Machine.execChunk c w e s
  | .flush c w e => Sys2Proof.Machine.execFlush c w e s
  | .release c w e => Sys2Proof.Machine.execRelease c w e s
  | .streamClaim c => Sys2Proof.Machine.execStreamClaim c s
  | .streamLoaded c => Sys2Proof.Machine.execStreamLoaded c s
  | .streamWrittenBack c => Sys2Proof.Machine.execStreamWrittenBack c s
  | .migrateRelease c => Sys2Proof.Machine.execMigrateRelease c s
  | .move c w e => Sys2Proof.Machine.execMove c w e s
  | .fill c w => Sys2Proof.Machine.execFill c w s
  | .lcopy c w e => Sys2Proof.Machine.execLcopy c w e s
  | .slotDef c w => Sys2Proof.Machine.execSlotDef c w s
  | .slotUndef c w => Sys2Proof.Machine.execSlotUndef c w s
  | .ctrSet c w => Sys2Proof.Machine.execCtrSet c w s
  | .ctrFadd c w => Sys2Proof.Machine.execCtrFadd c w s
  | .waitGe c w => Sys2Proof.Machine.execWaitGe c w s
  | .barrier c w => Sys2Proof.Machine.execBarrier c w s
  | .fence c w => Sys2Proof.Machine.execFence c w s
  | .waitGeSatisfied c w => Sys2Proof.Machine.execWaitGeSatisfied c w s
  | .barrierRelease c w => Sys2Proof.Machine.execBarrierRelease c w s
  | .detect l groups => Sys2Proof.Machine.execDetect l groups s
  | .detectTimeout l => Sys2Proof.Machine.execDetectTimeout l s
  | .equalizeDone l failed => Sys2Proof.Machine.execEqualizeDone l failed s
  | .alignDone l locked => Sys2Proof.Machine.execAlignDone l locked s
  | .exchangeDone l peer => Sys2Proof.Machine.execExchangeDone l peer s
  | .linkPermanentError l => Sys2Proof.Machine.execLinkPermanentError l s
  | .retrainDone l groups peer => Sys2Proof.Machine.execRetrainDone l groups peer s
  | .retrainTimeout l => Sys2Proof.Machine.execRetrainTimeout l s
  | .drainComplete l => Sys2Proof.Machine.execDrainComplete l s
  | .downRetry l => Sys2Proof.Machine.execDownRetry l s
  | .frameReceive l frame => Sys2Proof.Machine.execFrameReceive l frame s
  | .replayTimeout l => Sys2Proof.Machine.execReplayTimeout l s
  | .ctrlFlitSend l => Sys2Proof.Machine.execCtrlFlitSend l s
  | .heldPacketRoute n => Sys2Proof.Machine.execHeldPacketRoute n s
  | .chnRd n pkt => Sys2Proof.Machine.execChnRd n pkt s
  | .chnWr n pkt => Sys2Proof.Machine.execChnWr n pkt s
  | .chnExpd n pkt => Sys2Proof.Machine.execChnExpd n pkt s
  | .inboxDeliver n => Sys2Proof.Machine.execInboxDeliver n s
  | .chnRddata n pkt => Sys2Proof.Machine.execChnRddata n pkt s
  | .chnWrack n pkt => Sys2Proof.Machine.execChnWrack n pkt s
  | .chnNack n pkt => Sys2Proof.Machine.execChnNack n pkt s
  | .heartbeatTick => Sys2Proof.Machine.execHeartbeatTick s
  | .managerSilence => Sys2Proof.Machine.execManagerSilence s
  | .silence n slot epoch => Sys2Proof.Machine.execSilence n slot epoch s
  | .managerChange n slot epoch => Sys2Proof.Machine.execManagerChange n slot epoch s
  | .cert n msg => Sys2Proof.Machine.execCert n msg s
  | .keyInit n msg => Sys2Proof.Machine.execKeyInit n msg s
  | .keyResp n msg => Sys2Proof.Machine.execKeyResp n msg s
  | .rdShared pkt => Sys2Proof.Machine.execRdShared pkt s
  | .rdUncached pkt => Sys2Proof.Machine.execRdUncached pkt s
  | .couchWr pkt => Sys2Proof.Machine.execCouchWr pkt s
  | .wrPartial pkt => Sys2Proof.Machine.execWrPartial pkt s
  | .rdOwn pkt => Sys2Proof.Machine.execRdOwn pkt s
  | .evict pkt => Sys2Proof.Machine.execEvict pkt s
  | .snpInv pkt => Sys2Proof.Machine.execSnpInv pkt s
  | .snpData pkt => Sys2Proof.Machine.execSnpData pkt s
  | .couchData pkt => Sys2Proof.Machine.execCouchData pkt s
  | .couchAck pkt => Sys2Proof.Machine.execCouchAck pkt s
  | .couchNack pkt => Sys2Proof.Machine.execCouchNack pkt s
  | .snpRsp pkt => Sys2Proof.Machine.execSnpRsp pkt s
  | .snoopLate line => Sys2Proof.Machine.execSnoopLate line s
  | .auxWithinRange auxDv => Sys2Proof.Machine.execAuxWithinRange auxDv s
  | .bridgeLinkError d side again => Sys2Proof.Machine.execBridgeLinkError d side again s
  | .keyExchangeRetry n => Sys2Proof.Machine.execKeyExchangeRetry n s
  | .setEventReceiver eid => Sys2Proof.Machine.execSetEventReceiver eid s

end Sys2Proof.Machine
end

