-- ==== Sys2Proof/Machine/Tick.lean ====
section
/-! DEFINITION. The passing of one plinth cycle, 1 ns (R580 TIME, R487), and the counts that go with time. -/

namespace Sys2Proof.Machine

/-- Cycles of a clock of `num / den` GHz that begin in plinth cycle `t`. -/
def cyclesIn (t num den : Nat) : Nat := (t + 1) * num / den - t * num / den

/-- A partition's cycle counter counts the core cycles of its lowest-numbered quire (R487). -/
def countPartition (s : State) (P : Part) : Part :=
  if P.st = .free then P else
  match (bitsOf 128 P.quires.toNat).head? with
  | none => P
  | some q =>
    let n := P.cycleRem + clockOf s q
    { P with cycle := P.cycle + BitVec.ofNat 64 (n / 40), cycleRem := n % 40 }

/-- A descriptor at the head of one of the core's walks waits for a FILLING shadow (R118). -/
def swapStalls (s : State) (c : Nat) : Bool :=
  (s.core c).mma.shadowSt = .filling &&
    (List.range 4).any fun w =>
      match headDesc s c w with
      | some (_, some d) => !laterReady s c w && hClass d == 1 && (hOp d == 3 || (hOp d == 1 && mSwapFirst d))
      | _ => false

/-- MMA_SWAP_STALLc counts core cycles (R118). -/
def countSwapStalls (s : State) : State :=
  ((s.cores.cells.map (·.1)).filter (swapStalls s)).foldl (fun s c =>
    s.radd (Reg.mmaSwapStall c) (cyclesIn s.now (clockOf s (c / 32)) 40)) s

/-- CHN_EXP_HELD counts fabric cycles, 1.6 GHz (R424). -/
def countHeldExperts (s : State) : State :=
  if s.links.cells.any fun l => !l.2.expHeld.isEmpty then s.radd Reg.chnExpHeld (cyclesIn s.now 8 5) else s

/-- One plinth cycle with no command (DESIGN CHOICE, log 3); in module reset nothing is clocked. -/
def tick (s : State) : State :=
  if s.mod.inReset then s else
  let s1 := countHeldExperts (countSwapStalls s)
  let s2 : State := { s1 with arm := { s1.arm with parts := s1.arm.parts.mapAll fun _ P => countPartition s P } }
  let s3 := s2.arm.boxes.keys.foldl serve s2
  { s3 with now := s3.now + 1 }

end Sys2Proof.Machine
end

