-- ==== Sys2Proof/Safety.lean ====
section
/-! DEFINITION. The terms in which the statements speak of a run: the canonical form of the sparse memories, which
parts of the block a command leaves alone, and how a mailbox answers. -/

namespace Sys2Proof.Machine

/-- Memory, its poison, its tags and the registers are in canonical form: keys strictly rising, no default listed
(DESIGN CHOICE, log 2). -/
def State.memWf (s : State) : Bool := s.mem.wf && s.poison.wf && s.rect.wf && s.regs.wf

/-- The parts that belong to the device are the same: fuses and flash, package, module, Watermark, chain links, chain
layer, stacks. -/
def SameDevice (s t : State) : Prop :=
  t.nv = s.nv ∧ t.pkg = s.pkg ∧ t.mod = s.mod ∧ t.wmk = s.wmk ∧ t.links = s.links ∧ t.chain = s.chain ∧ t.stk = s.stk

/-- The parts that belong to work are the same: cores, quires, claims, streams, rollouts, pages, frames, partitions,
contexts. -/
def SameWork (s t : State) : Prop :=
  t.cores = s.cores ∧ t.quires = s.quires ∧ t.saved = s.saved ∧ t.claims = s.claims ∧ t.strFresh = s.strFresh ∧
    t.roll = s.roll ∧ t.vat = s.vat ∧ t.cal = s.cal ∧ t.arm.parts = s.arm.parts ∧ t.arm.ctxs = s.arm.ctxs

/-- Every byte below the control space is the same: stacked memory, quire stores, scratchpads, state stores. -/
def SameBelow (s t : State) : Prop := ∀ a, a < csBase → t.mem.get a = s.mem.get a

/-- Every byte and every poison mark is the same. -/
def SameMemory (s t : State) : Prop := t.mem = s.mem ∧ t.poison = s.poison ∧ t.rect = s.rect

/-- Mailbox `m` holds opcode `op` at its head, the command may start, and nothing answers it before its own rules. -/
def Takes (s : State) (m op : Nat) : Prop := atHead s m op = true ∧ precheck s m (headEntry s m) = none

/-- Mailbox `m` answers its head command with `a`: seen when no other command waits, its serial number is its own, and
the companion holds neither an earlier answer back nor the line of this one. -/
def Answers (s t : State) (m : Nat) (a : Ans) : Prop :=
  (s.box m).covered = 1 → (s.box m).outbox = [] → (∀ p, p ∈ (s.box m).inProg → p.sn < (s.box m).nextSn) →
  s.couch.dir.get (rspOff m (s.box m).rspWrite.toNat / 64) = 0 →
    t.rd (csAddr (rspOff m (s.box m).rspWrite.toNat)) 64 = lineBytes (rspLine (headEntry s m) a) ∧
    (t.box m).rspWrite = (s.box m).rspWrite + 1 ∧ (t.box m).inProg = (s.box m).inProg

/-- An area that a command names can be read on behalf of context `x`, and none of it is poisoned. -/
def Reads (s : State) (x a n align : Nat) : Prop := areaReadable s x a n align = true ∧ areaPoisoned s a n = false

/-- The mailbox commands: their opcodes and their rows. -/
def boxCommands : List (Nat × (BoxId → Instr)) :=
  [(0x0001, .info), (0x0002, .overlayApply), (0x0003, .overlayWithdraw), (0x0004, .bankPower), (0x0005, .decodeTableLoad),
    (0x0006, .decodeTableWithdraw), (0x0101, .partitionCreate), (0x0102, .partitionDestroy), (0x0103, .contextCreate),
    (0x0104, .contextDestroy), (0x0105, .mailboxGrant), (0x0106, .mailboxRevoke), (0x0107, .memoryGrant),
    (0x0201, .programLoad), (0x0202, .programUnload), (0x0301, .groupOpen), (0x0302, .groupClose), (0x0303, .branchFork),
    (0x0304, .trimPolicy), (0x0401, .streamOpen), (0x0402, .streamClose), (0x0403, .streamSwapOut), (0x0404, .streamFlush),
    (0x0405, .streamExport), (0x0406, .streamImport), (0x0501, .vatReserve), (0x0502, .vatRelease), (0x0503, .vatQuery),
    (0x0601, .cycleTableSet), (0x0602, .cycleTableClear), (0x0701, .preempt), (0x0702, .resume), (0x0801, .partitionReset),
    (0x0901, .errorRead), (0x0902, .errorClear), (0x0A01, .attestReport), (0x0A02, .certRead), (0x0B01, .fwStage),
    (0x0B02, .fwCommit), (0x0B03, .configStage), (0x0C01, .thermalSet), (0x0C02, .thermalGet), (0x0D01, .linkStatus),
    (0x0D02, .linkEnable), (0x0D03, .topologyAccept), (0x0D04, .stackStatus), (0x0E01, .diagRead)]

/-! Descriptors -/

/-- Walker `w` of core `c` has at its head a descriptor `d` of class `cls` and operation `op` that is free to issue now
(R147, R170, R171, R186, R192). -/
def Ready (s : State) (c w cls op d : Nat) : Prop :=
  (∃ i, headDesc s c w = some (i, some d)) ∧ laterReady s c w = false ∧ layerLanded s c w = true ∧ classOk d = true ∧
    hClass d = cls ∧ hOp d = op ∧ reservedSet d = false ∧
    (cls = 6 ∨ slotChk s c (hCons d) (prodHere c d) = .ok) ∧ hasRoom s c (engineOf d) = true

/-- The walk has moved past the descriptor at the head of walker `w`: outside nests to the next position, inside one to
the next descriptor of the visit. -/
def Passed (s t : State) (c w : Nat) : Prop :=
  ((s.core c).walkers = [] → (t.core c).pos = (s.core c).pos + 1) ∧
  ∀ W e r, (s.core c).walkers[w]? = some W → W.issue = e :: r → r ≠ [] →
    ∃ V, (t.core c).walkers[w]? = some V ∧ V.issue = r

/-- Descriptor `d` has issued to engine `e`: it is in flight under the next number, and the walk has moved past it. -/
def Issued (s t : State) (c w : Nat) (e : Engine) (d : Nat) : Prop :=
  Passed s t c w ∧ (t.core c).nextId = (s.core c).nextId + 1 ∧
    ∃ f, (t.core c).inflight = (s.core c).inflight ++ [f] ∧ f.id = (s.core c).nextId ∧ f.eng = e ∧
      f.word = BitVec.ofNat 512 d ∧ f.walker = w ∧ f.cons = hCons d ∧ f.prod = prodHere c d

/-- Bytes written one part after another over old ones. -/
def overlay (parts : List (Nat × List Byte)) (old : Nat → Byte) (off : Nat) : Byte :=
  parts.foldl (fun b p => if p.1 ≤ off ∧ off < p.1 + p.2.length then p.2.getD (off - p.1) 0 else b) (old off)

/-- The scratchpad of core `c` reads as before but for these parts, and every byte of memory outside it is the same. -/
def Wrote (u t : State) (c : Nat) (parts : List (Nat × List Byte)) : Prop :=
  (∀ off, off < 0x60000 → spdByte t c off = overlay parts (spdByte u c) off) ∧
    ∀ a, a < spdAddr c 0 ∨ spdAddr c 0 + 0x60000 ≤ a → t.mem.get a = u.mem.get a

/-- What an engine of core `c` leaves alone: the device, the other cores, the quires, the rollouts, the pages, the frames
and the partitions. -/
def SameOutside (u t : State) (c : Nat) : Prop :=
  SameDevice u t ∧ (∀ x, x ≠ c → t.core x = u.core x) ∧ t.quires = u.quires ∧ t.saved = u.saved ∧ t.roll = u.roll ∧
    t.vat = u.vat ∧ t.cal = u.cal ∧ t.arm.parts = u.arm.parts ∧ t.arm.boxes = u.arm.boxes

/-- What a descriptor leaves alone in its own core: its slots, banks, stream slots and generator. -/
def SameCore (u t : State) (c : Nat) : Prop :=
  (t.core c).slots = (u.core c).slots ∧ (t.core c).banks = (u.core c).banks ∧
    (t.core c).strSlots = (u.core c).strSlots ∧ (t.core c).genKey = (u.core c).genKey

/-- Generator, matrix arrays and statistics of core `c` are the same. -/
def SameArrays (u t : State) (c : Nat) : Prop :=
  (t.core c).genCtr = (u.core c).genCtr ∧ (t.core c).genWord = (u.core c).genWord ∧ (t.core c).mma = (u.core c).mma ∧
    (t.core c).stats = (u.core c).stats

/-- A VEC descriptor meets every rule of formats, parameters and banks (R86, R143, R203, R207, R210, R226). -/
def VecPasses (u : State) (e : Upset) (c d : Nat) : Prop :=
  let k := ctlFor u c (vArith d)
  vNoop d = false ∧ codesReserved (vArith d) ((vFormats d).map (·.1)) = false ∧ ¬(hOp d = 0x38 ∧ vMode d = 3) ∧
    vFormatWrong d = false ∧ vParamWrong u c k d = false ∧ (hOp d = 0x30 → intoWeights u c d = false) ∧
    (if hOp d = 0x30 then convChk u e c d else vecChk u e c k d) = .ok ∧ noiseZero u c k d = false

/-- The parts that output lines of a VEC descriptor make: each line at its place, its scale codes at SCALE_ADDR. -/
def lineParts (d : Nat) (place : Nat → Nat) (lines : List (List Byte × List Byte)) : List (Nat × List Byte) :=
  ((List.range lines.length).zip lines).flatMap fun r =>
    [(place r.1, r.2.1), (vScale d + r.1 * (ceilDiv (vCols d) 32 * scaleBytes (vFmtOut d)), r.2.2)]

/-- `t` holds the rows of values `r` of a VEC descriptor, encoded and written at their places, and what the arithmetic
raised and counted (R102, R208, R224, R230). -/
def VecWrote (u t : State) (c d : Nat) (place : Nat → Nat) (r : List (List Val) × State) : Prop :=
  let l := runAr r.2 c .vec (Ar.each (writeLine (vFmtOut d) (ctlFor u c (vArith d))) r.1)
  let n := (r.1.map List.length).foldl (· + ·) 0
  let z := ((r.1.zip l.1).map fun x => zerosIn (vFmtOut d) x.1.length x.2.1).foldl (· + ·) 0
  Wrote u t c (lineParts d place l.1) ∧ t.regs = (countOut l.2 c d n z).regs ∧ t.arm.ctxs = l.2.arm.ctxs

/-- The element-wise operations of the vector engine (R206): their codes and their rows. -/
def vecElementwise : List (Nat × (CoreId → WalkerId → Upset → Instr)) :=
  [(0x00, .copy), (0x01, .add), (0x02, .sub), (0x03, .vecMul), (0x04, .div), (0x05, .max), (0x06, .min), (0x07, .fma),
    (0x08, .abs), (0x09, .relu), (0x0A, .gelu), (0x0B, .silu), (0x0C, .sigmoid), (0x0D, .tanh), (0x0E, .exp), (0x0F, .log),
    (0x10, .sqrt), (0x11, .rsqrt), (0x12, .recip), (0x13, .clamp)]

/-- The reductions (R209), the row operations (R212, R213), and the others. -/
def vecReductions : List (Nat × (CoreId → WalkerId → Upset → Instr)) :=
  [(0x20, .rsum), (0x21, .rmax), (0x22, .rmin), (0x23, .rsumsq)]
def vecRowOps : List (Nat × (CoreId → WalkerId → Upset → Instr)) :=
  [(0x28, .softmax), (0x29, .layernorm), (0x2A, .rmsnorm)]
def vecAll : List (Nat × (CoreId → WalkerId → Upset → Instr)) :=
  vecElementwise ++ vecReductions ++ [(0x24, .rargmax)] ++ vecRowOps ++ [(0x30, .conv), (0x38, .sample)]

/-- A SYN descriptor of core `c` has run on walker `w`: the walk has moved past it, and of memory, registers, the device
and the work of others nothing has changed. -/
def Synced (s t : State) (c w : Nat) : Prop :=
  Passed s t c w ∧ SameDevice s t ∧ t.arm = s.arm ∧ t.roll = s.roll ∧ t.vat = s.vat ∧ t.cal = s.cal ∧ t.regs = s.regs ∧
    (∀ x, x ≠ c → t.core x = s.core x) ∧ (t.core c).inflight = (s.core c).inflight ∧
    (t.core c).banks = (s.core c).banks ∧ SameArrays s t c

/-- Walker `w` of core `c`, or the walk outside nests, is held by nothing. -/
def Freed (s t : State) (c w : Nat) : Prop :=
  ((s.core c).walkers = [] → (t.core c).hold = .none) ∧ ∀ V, (t.core c).walkers[w]? = some V → V.hold = .none

/-! Transfers -/

/-- A byte of the device as a read returns it: of a scratchpad with its gather buffer, of memory otherwise. -/
def devByte (s : State) (a : Nat) : Byte :=
  match region a with
  | .spd c off => spdByte s c off
  | _ => s.mem.get a

/-- A MOVE meets every rule of its fields, its pages and its ranges; its rows are `a` and `b` (R75, R172, R184, R189,
R196, R197). -/
def MovePasses (u : State) (c w d : Nat) (a b : List (Nat × Nat)) : Prop :=
  commitOk u c w d = true ∧ dNoop d = false ∧ moveParam c d = true ∧ (dMcast d = true → leaderOf (dMask d) = c % 32) ∧
    sideRows u c w d false (dSrcMode d) (dSrc d) (dSrcStride d) (dRows d) = .rows a ∧
    sideRows u c w d true (dDstMode d) (dDst d) (dDstStride d) (destShape d).1 = .rows b ∧
    srcChk u c d a = .ok ∧ dstChk u c d b = .ok

/-- The state once the source of a MOVE has passed the decoder, and the rows that it delivers. -/
def sourceRows (u : State) (d : Nat) (a : List (Nat × Nat)) : State × List (List Mark) :=
  let v := a.foldl (fun s r => decodeRange s (rowAddr s r) (dRowBytes d)) u
  (v, destData d (a.map fun r => readRow v (rowAddr v r) (dRowBytes d)))

/-- A descriptor has gone in flight with `n` packets or deliveries outstanding; `held`: its data have not all come. -/
def InFlightWith (s t : State) (c w d : Nat) (held : Bool) (n : Nat) : Prop :=
  Passed s t c w ∧ (t.core c).nextId = (s.core c).nextId + 1 ∧
    ∃ f, (t.core c).inflight = (s.core c).inflight ++ [f] ∧ f.id = (s.core c).nextId ∧ f.eng = .dmv ∧
      f.word = BitVec.ofNat 512 d ∧ f.pending = held ∧ f.wait = n

/-! Matrix arrays -/

/-- A MUL on the active weights of `v` meets every rule (R109 to R114, R121 to R124, R129, R131). -/
def MulPasses (v : State) (e : Upset) (c d : Nat) (kind : AccKind) : Prop :=
  accKind (mFmtA d) (mFmtW d) = some kind ∧ mulFormatWrong (v.core c).mma.active d = false ∧
    mulParamWrong (ctlFor v c (mArith d)) (v.core c).mma.active d = false ∧ mulChk v e c d = .ok ∧
    ¬(mRelief d = true ∧ (List.range (mM d)).any (entryWrong v c d) = true) ∧ mulRecChk v e c d = .ok

/-- A DRAIN meets every rule (R109, R112, R114, R124, R129, R131). -/
def DrainPasses (u : State) (e : Upset) (c d : Nat) (kind : AccKind) : Prop :=
  mM d ≠ 0 ∧ mN d ≠ 0 ∧ codesReserved (mArith d) [mFmtA d, mFmtW d, mFmtOut d] = false ∧
    layoutFits c (mLayout d) = true ∧ accKind (mFmtA d) (mFmtW d) = some kind ∧ outAllowed kind (mFmtOut d) = true ∧
    ¬(mRelief d = true ∧ reliefFormat d = false) ∧ mM d ≤ mMax d ∧ mN d ≤ nMax (mLayout d) ∧ entriesPast d = false ∧
    signsWrong (ctlFor u c (mArith d)) (isInt (mFmtA d)) (isInt (mFmtW d)) (isInt (mFmtOut d)) = false ∧
    drainChk u e c d = .ok ∧
    ¬(mRelief d = true ∧
      (List.range (mM d)).any (fun m => entryWrong u c d m || fld (recHead u c d m) 32 19 % 64 != 0) = true) ∧
    drainRecChk u e c d = .ok

/-- The parts that a DRAIN in relief mode writes into its records: the header bytes and Y_REF of each row (R124). -/
def recordParts (u : State) (c d : Nat) (ys : List (List Val)) : List (Nat × List Byte) :=
  ((List.range (mM d)).zip ys).flatMap fun r =>
    [(recAt u c d r.1,
        if (u.core c).mma.relief.get (modeAt d r.1) then leBytes 1 (fld (recHead u c d r.1) 0 8 + 1)
        else leBytes 2 0x100 ++ leBytes 2 (mWtag d)),
      (refAt u c d r.1, r.2.flatMap fun y => leBytes 4 (toW y).toNat)]

/-! Streams -/

/-- No command of a mailbox is in progress, and no descriptor of core `c` waits in its state engine's queue. -/
def StreamsQuiet (s : State) (c : Nat) : Prop :=
  (∀ b, b ∈ s.arm.boxes.cells → b.2.inProg = []) ∧ ∀ f, f ∈ (s.core c).inflight → f.eng = .sta → f.pending = false

/-- The stream table lies in stacked memory, and a range of stacked memory lies outside it. -/
def TableApart (s : State) (a n : Nat) : Prop :=
  strBase s + 32 * strCount s ≤ stackedTop ∧ a + n ≤ stackedTop ∧ (a + n ≤ strBase s ∨ strBase s + 32 * strCount s ≤ a)

/-- A descriptor of the state engine names streams that it may use, in a list that it can read (R268, R281). -/
def StreamsOk (u : State) (e : Upset) (c d : Nat) : Prop :=
  tNoop d = false ∧ tStreams d ≤ 32 ∧ spdReadChk u e c (tList d) (16 * tStreams d) = .ok ∧ listWrong u c d = false ∧
    ∀ id, id ∈ namedStreams u c d → streamOk u (u.core c).ctx id = true

/-- A CHUNK meets the rules of its fields and ranges (R264, R268, R281, R282). -/
def ChunkPasses (u : State) (e : Upset) (c d : Nat) : Prop :=
  StreamsOk u e c d ∧ codesReserved (tArith d) [tFmtX d, tFmtY d, tFmtC d] = false ∧ tRec d ≠ 3 ∧ tFmtX d ≤ 4 ∧
    tFmtY d ≤ 4 ∧ tFmtC d ≤ 1 ∧ tParam (ctlFor u c (tArith d)) d = false ∧ chunkReadChk u e c d = .ok ∧
    writeRowsChk u c (tY d) (tStrideY d) (tStreams d * tSteps d) (rowLen (tFmtY d) (tChannels d)) = .ok ∧
    ∀ id, id ∈ namedStreams u c d → eQueued (strGet u id) < 255

/-! Links -/

/-- Packet `p` has gone out on link `n`, or waits there behind others. -/
def SentChn (s t : State) (n : Nat) (p : ChnPkt) : Prop :=
  t.out.chn = s.out.chn ++ [(n, p)] ∨ (t.link n).held = (s.link n).held ++ [p]

end Sys2Proof.Machine
end

