-- ==== Sys2Proof/Certificates/Slice0/Obligations.lean ====
section
/-! DEFINITION. The statements for the provers. -/

open Sys2Proof Sys2Proof.Machine

/-- A step takes the command in front and runs it on the state with the rest of the queue -/
def Obligations.StepRunsFront : Prop :=
  ∀ (c : Instr) (rest : List Instr) (s : State),
    step { s with pending := c :: rest } = exec c { s with pending := rest }

/-- What the supply and reset commands leave (R548, R549, R554, R556, R558, R564) -/
def Obligations.SuppliesComplete : Prop :=
  (∀ (s : State) (v : BitVec 10), s.mod.auxOk = true → s.mod.tripped = false → s.mod.converters = false →
    470 ≤ v.toNat → ∃ t, exec (.converterStart v) s = .next t ∧ t.mod.converters = true ∧ t.mod.mainDv = v ∧
      t.mem = s.mem ∧ t.regs = s.regs ∧ t.nv = s.nv ∧ t.arm = s.arm ∧ t.cores = s.cores ∧ t.links = s.links) ∧
  (∀ (s : State) (v a : BitVec 10), s.mod.converters = true →
    (v.toNat < 460 ∨ 600 < v.toNat ∨ auxInRange a = false) →
    ∃ t, exec (.converterStop v a) s = .next t ∧ t.mod.converters = false ∧ t.mod.mainDv = v ∧ t.mod.auxDv = a ∧
      t.nv = s.nv ∧ t.arm = ArmSt.reset ∧ t.cores = ⟨[]⟩ ∧ t.quires = ⟨[]⟩ ∧ t.vat = VatSt.reset ∧
      ∀ a', a' < compBase → t.mem.get a' = 0) ∧
  (∀ s : State, ∃ t, exec .auxLost s = .next t ∧ t.mod = { ModSt.reset with mainDv := s.mod.mainDv } ∧ t.nv = s.nv ∧
      t.arm = ArmSt.reset ∧ t.cores = ⟨[]⟩ ∧ ∀ a', a' < compBase → t.mem.get a' = 0) ∧
  (∀ (s : State) (a : BitVec 10), auxInRange a = true → s.mod.auxOk = false →
    ∃ t, exec (.auxWithinRange a) s = .next t ∧ t.mod.auxOk = true ∧ t.mod.auxDv = a ∧ t.mem = s.mem ∧
      t.regs = s.regs ∧ t.nv = s.nv ∧ t.arm = s.arm ∧ t.cores = s.cores) ∧
  (∀ (s : State) (ns : BitVec 40), 1000000 ≤ ns.toNat →
    ∃ t, exec (.modResetN ns) s = .next t ∧ t.mod.inReset = true ∧ t.mod.converters = s.mod.converters ∧
      t.mod.tripped = (s.mod.tripped && decide (ns.toNat < 1000000000)) ∧ t.mod.auxOk = s.mod.auxOk ∧
      t.mod.receiver = s.mod.receiver ∧ t.nv = s.nv ∧ t.arm = ArmSt.reset ∧ t.wmk = WmkSt.reset ∧ t.cores = ⟨[]⟩ ∧
      ∀ a', a' < compBase → t.mem.get a' = 0) ∧
  (∀ (s : State) (ns : BitVec 40), ns.toNat < 1000 → exec (.modResetN ns) s = .next s) ∧
  (∀ (s : State) (i : TapInsn), ∃ t, exec (.extest i) s = .next t ∧ t.mod.inReset = true ∧
      t.mod.converters = s.mod.converters ∧ t.mod.tripped = s.mod.tripped ∧ t.nv = s.nv ∧ t.arm = ArmSt.reset ∧
      t.cores = ⟨[]⟩) ∧
  (∀ (s : State) (c : TripCause), s.mod.converters = true →
    ∃ t, exec (.thermalTrip c) s = .next t ∧ t.mod.tripped = true ∧ t.mod.converters = false ∧ t.nv = s.nv ∧
      t.arm = ArmSt.reset ∧ t.cores = ⟨[]⟩ ∧ ∀ a', a' < compBase → t.mem.get a' = 0) ∧
  (∀ s : State, ∃ t, exec .refclkCoreLost s = .next t ∧ t.arm.refuse = true)

/-- What the power, junction and coolant commands do (R551, R560, R570) -/
def Obligations.PowerAndCoolant : Prop :=
  (∀ (s : State) (w : BitVec 16) (v : BitVec 10), s.mod.converters = true →
    ∃ t, exec (.powerSample w v) s = .next t ∧ t.mod.samples = (w :: s.mod.samples).take 100 ∧ t.mod.mainDv = v ∧
      t.mod.powerClock = s.mod.powerClock ∧ t.mem = s.mem ∧ t.nv = s.nv ∧ t.arm = s.arm ∧ t.cores = s.cores) ∧
  (∀ s : State, ∃ t, exec .powerGovernor s = .next t ∧
      t.mod.powerClock = BitVec.ofNat 6
        (if s.rnat Reg.thmPwrLimit < avgPower s then max 12 (s.mod.powerClock.toNat - 1)
         else if avgPower s * 100 < s.rnat Reg.thmPwrLimit * 97 then min 48 (s.mod.powerClock.toNat + 1)
         else s.mod.powerClock.toNat) ∧
      t.mod.samples = s.mod.samples ∧ t.mem = s.mem ∧ t.nv = s.nv ∧ t.arm = s.arm ∧ t.cores = s.cores) ∧
  (∀ (s : State) (q : QuireId) (d : BitVec 8), ∃ t, exec (.junctionRead q d) s = .next t ∧
      t.mod.junc.get q.val = (d :: s.mod.junc.get q.val).take 6 ∧
      (105 ≤ d.toInt → t.mod.juncDrop.get q.val = 36) ∧ t.mem = s.mem ∧ t.nv = s.nv ∧ t.cores = s.cores) ∧
  (∀ s : State, ∃ t, exec .junctionLimit s = .next t ∧
      (∀ q, q < 128 → ∀ r rs, (s.mod.junc.get q).map degC = r :: rs →
        t.mod.juncDrop.get q =
          if (s.rnat Reg.thmJuncHi : Int) ≤ rs.foldl max r then
            BitVec.ofNat 6 (min 36 ((s.mod.juncDrop.get q).toNat + 1))
          else if rs.foldl max r ≤ (s.rnat Reg.thmJuncLo : Int) then
            BitVec.ofNat 6 ((s.mod.juncDrop.get q).toNat - 1)
          else s.mod.juncDrop.get q) ∧
      (∀ q, s.mod.junc.get q = [] → t.mod.juncDrop.get q = s.mod.juncDrop.get q) ∧
      t.mem = s.mem ∧ t.nv = s.nv ∧ t.arm = s.arm ∧ t.cores = s.cores) ∧
  (∀ (s : State) (i o : BitVec 8), s.mod.auxOk = true → ∃ t, exec (.coolantRead i o) s = .next t ∧
      t.mod.inlet = i ∧ t.mod.outlet = o ∧
      t.rget Reg.thmCoolant = BitVec.ofNat 32 (i.toNat + 256 * o.toNat) ∧
      t.rbit Reg.plnAlertCause 7 = (decide (35 < i.toInt) || decide (i.toInt + 15 < o.toInt)) ∧
      t.rget Reg.thmStatus = (if 35 < i.toInt ∨ i.toInt + 15 < o.toInt then s.rget Reg.thmStatus ||| 8
        else s.rget Reg.thmStatus) ∧ t.mem = s.mem ∧ t.nv = s.nv ∧ t.arm = s.arm ∧ t.cores = s.cores)

/-- What the commands of the management bus do (R561, R563; the message bytes are the model's own, DESIGN CHOICE, log 14) -/
def Obligations.ManagementBus : Prop :=
  (∀ (s : State) (v : BitVec 16), s.mod.auxOk = true → ∃ t, exec (.setNumericEffecterValue 10 v) s = .next t ∧
      t.mod.effecter = some (BitVec.ofNat 16 (max 1500 (min 3600 v.toNat))) ∧
      (s.mod.converters = false → t.regs = s.regs) ∧
      (s.mod.converters = true → t.rnat Reg.thmPwrLimit = max 1500 (min 3600 v.toNat)) ∧
      t.mem = s.mem ∧ t.nv = s.nv ∧ t.arm = s.arm ∧ t.cores = s.cores) ∧
  (∀ (s : State) (i : BitVec 8), s.mod.auxOk = true → 1 ≤ i.toNat → i.toNat ≤ 9 → sensorAvailable s i.toNat = true →
    exec (.getSensorReading i) s = .next (smbusOut s ([0x11, 0, 0] ++ leBytes 4 (toBits 32 (sensorValue s i.toNat))))) ∧
  (∀ (s : State) (e : BitVec 8), s.mod.auxOk = true →
    exec (.setEventReceiver e) s =
      .next (smbusOut { s with mod := { s.mod with receiver := some e } } [0x04, 0]))

/-- What the bring-up commands do (R63, R525, R530, R531, R536, R541, R544, R584) -/
def Obligations.BringUpComplete : Prop :=
  (∀ (s : State) (v : BitVec 10), s.mod.converters = true → s.mod.tripped = false → s.mod.inReset = true →
    ∃ t, exec (.bringUpStart v) s = .next t ∧ t.mod.straps = v ∧ t.mod.inReset = false ∧ t.nv.svnMin = s.nv.svnMin ∧
      t.nv.fwRevoked = s.nv.fwRevoked ∧ (v.getLsbD 6 = true → bootPhase s ≠ 9 → bootPhase t = 8 ∧ t.wmk.bootWindow = true) ∧
      (v.getLsbD 6 = false → (fwVerifies s (bankImage s 0) = true ∨ fwVerifies s (bankImage s 1) = true) →
        t.rbit Reg.plnReady 0 = true)) ∧
  (∀ (s : State) (v : Word32), s.wmk.bootWindow = true → bit v.toNat 31 = true → bit v.toNat 23 = false →
    s.rbit Reg.plnReady 0 = false →
    ∃ t, exec (.bootWindowLoad v) s = .next t ∧
      (if fwVerifies s (s.rd (csAddr 0x3000000) (fld v.toNat 0 23)) = true then t.rbit Reg.plnReady 0 = true
       else t = s.ror Reg.plnBootStatus 1)) ∧
  (∀ (s : State) (k : StackId) (f : BitVec 32), testsBegun s = true → (s.stack k.val).train = .idle →
    ∃ t, exec (.stackTrained k f) s = .next t ∧
      ((t.stack k.val).train = .done ∨ (t.stack k.val).train = .testing (testRests s))) ∧
  (∀ (s : State) (k : StackId) (rows : List RowRef) (n : Nat), (s.stack k.val).train = .testing (n + 1) →
    ∃ t, exec (.retentionRestEnd k rows) s = .next t ∧ (t.stack k.val).train = .testing n) ∧
  (∀ (s : State) (k : StackId) (rows : List RowRef), (s.stack k.val).train = .testing 0 →
    ∃ t, exec (.memoryTestComplete k rows) s = .next t ∧ (t.stack k.val).train = .done) ∧
  (∀ s : State, passDue s = true → checksPass s = true →
    ∃ t, exec .pointingPass s = .next t ∧ t.rbit Reg.plnReady 2 = true ∧ t.mem = s.mem ∧ t.nv = s.nv) ∧
  (∀ (s : State) (c : CoreId), proofDue s c.val (c.val / 32) = true →
    ∃ t, exec (.proofRunComplete (.core c) true false) s = .next t ∧ t.pkg.proofOk.get c.val = true ∧
      t.mem = s.mem ∧ t.nv = s.nv ∧ t.cores = s.cores) ∧
  (∀ (s : State) (q : QuireId), proofDue s (4096 + q.val) q.val = true →
    ∃ t, exec (.proofRunComplete (.quire q) true false) s = .next t ∧ t.pkg.proofOk.get (4096 + q.val) = true ∧
      t.mem = s.mem ∧ t.nv = s.nv ∧ t.cores = s.cores) ∧
  (∀ (s : State) (d : DieId) (side : BridgeSide) (again : Bool), s.pkg.bridgeFailed.getLsbD (3 * d.val + sideBit side) = false →
    ∃ t, exec (.bridgeLinkError d side again) s = .next t ∧
      (side ≠ .plinth → again = true → 7 ≤ (s.pkg.bridgeSame.get (3 * d.val + sideBit side)).toNat →
        t.pkg.bridgeFailed.getLsbD (3 * d.val + sideBit side) = true) ∧
      (again = false → s.pkg.bridgeBurst.get (3 * d.val + sideBit side) = [] →
        t.pkg.bridgeFailed = s.pkg.bridgeFailed ∧ t.rbit (Reg.plnFabricStatus d.val) (4 + sideBit side) = true ∧
        t.mem = s.mem ∧ t.cores = s.cores ∧ t.arm = s.arm))

/-- What the unit commands of a stack do (R343, R364, R366, R371, R382) -/
def Obligations.StackUnits : Prop :=
  (∀ (s : State) (k : StackId) (u : BitVec 28), u.toNat < 167772160 → bankBlocked s k.val u.toNat = false →
    ∃ t, exec (.stackRead k u .clean) s = .next t ∧ t.mem = s.mem ∧ t.cores = s.cores ∧ t.nv = s.nv ∧
      (undecodable s (blockEnt s ((k.val * stackBytes + u.toNat * 512) / 4096)) = false → t = s)) ∧
  (∀ (s : State) (k : StackId) (u : BitVec 28) (data : List Byte) (mask : BitVec 512),
    u.toNat < 167772160 → data.length = 512 → bankBlocked s k.val u.toNat = false →
    ∃ t, exec (.stackWrite k u data mask .clean) s = .next t ∧ t.cores = s.cores ∧ t.nv = s.nv ∧
      (∀ i, i < 512 → t.mem.get (k.val * stackBytes + u.toNat * 512 + i) =
        if mask.getLsbD i then data.getD i 0 else s.mem.get (k.val * stackBytes + u.toNat * 512 + i)) ∧
      (∀ a, (a < k.val * stackBytes + u.toNat * 512 ∨ k.val * stackBytes + u.toNat * 512 + 512 ≤ a) →
        t.mem.get a = s.mem.get a)) ∧
  (∀ (s : State) (k : StackId), ∃ t, exec (.patrolScrub k .clean) s = .next t ∧
      (t.stack k.val).scrubUnit = ((s.stack k.val).scrubUnit + 1) % 167772160 ∧
      t.rnat (Reg.hbmScrubPos k.val) = unitFrame (s.stack k.val).scrubUnit % 2 ^ 32 ∧ t.mem = s.mem ∧
      t.cores = s.cores ∧ t.nv = s.nv) ∧
  (∀ (s : State) (k : StackId) (pc : PcId) (b : Fin 64), exec (.refresh k pc b) s =
      .next (s.rput (Reg.hbmTemp k.val) 8 (decide (85 ≤ sext 8 (s.rfld (Reg.hbmTemp k.val) 0 8))))) ∧
  (∀ (s : State) (k : StackId) (b : BitVec 25), b.toNat < 20971520 →
    ∃ t, exec (.writeGatherFlush k b) s = .next t ∧
      (∀ g, g ∈ gatherOf t (frameStack ((k.val * 20971520 + b.toNat) / 512)) → g.block ≠ k.val * 20971520 + b.toNat) ∧
      t.mem = s.mem ∧ t.cores = s.cores ∧ t.nv = s.nv)

/-- What the repair commands of a stack do (R368, R372, R374, R377, R379) -/
def Obligations.StackErrorsAndRepair : Prop :=
  (∀ (s : State) (k : StackId) (pc : PcId), ∃ t, exec (.parityError k pc) s = .next t ∧
      ((t.stack k.val).pcs.get pc.val).waiting = true ∧ t.cores = s.cores ∧ t.nv = s.nv) ∧
  (∀ (s : State) (k : StackId) (pc : PcId), ((s.stack k.val).pcs.get pc.val).waiting = true →
    exec (.parityReissue k pc true) s = .next (s.modStack k.val fun S =>
      { S with pcs := S.pcs.mod pc.val fun p => { p with waiting := false, reissues := 0 } })) ∧
  (∀ (s : State) (k : StackId), exec (.softRepairComplete k) s =
      .next (s.modStack k.val fun S => { S with repairing := S.repairing.drop 1 })) ∧
  (∀ (s : State) (k : StackId) (pc : PcId), ((s.stack k.val).pcs.get pc.val).due = true →
    ((s.stack k.val).pcs.get pc.val).st = .active → (s.stack k.val).order.length < 2 →
    ∃ t, exec (.pcRetire k pc) s = .next t ∧ ((t.stack k.val).pcs.get pc.val).st = .evacuating ∧
      ((t.stack k.val).pcs.get pc.val).due = false ∧ (t.stack k.val).order = (s.stack k.val).order ++ [pc.val]) ∧
  (∀ (s : State) (k : StackId) (pc : PcId), ((s.stack k.val).pcs.get pc.val).st = .evacuating →
    allVacated s k.val = true → exec (.redirectCopyStart k pc) s = .next (s.modStack k.val fun S =>
      { S with pcs := S.pcs.mod pc.val fun p => { p with st := .copying } })) ∧
  (∀ (s : State) (k : StackId) (pc : PcId), ((s.stack k.val).pcs.get pc.val).st = .copying →
    ∃ t, exec (.redirectCopyComplete k pc) s = .next t ∧ ((t.stack k.val).pcs.get pc.val).st = .retired ∧
      t.cores = s.cores ∧ t.nv = s.nv) ∧
  (∀ (s : State) (e : LogEnt) (r : List LogEnt), s.stk.logQ = e :: r → s.nv.logLen + 8 ≤ 0x400000 →
    exec .repairLogAppend s = .next { s with
      stk := { s.stk with logQ := r }
      nv := { s.nv with flash := memWrite s.nv.flash (0x1150000 + s.nv.logLen) (logBytes e), logLen := s.nv.logLen + 8 } })

/-- What the temperature commands of the stacks do (R382, R383, R384) -/
def Obligations.StackTemperature : Prop :=
  (∀ (s : State) (k : StackId) (v : BitVec 8), ∃ t, exec (.dramTempRead k (some v)) s = .next t ∧
      (t.stack k.val).tempFails = 0 ∧ t.rfld (Reg.hbmTemp k.val) 0 8 = v.toNat ∧
      (95 ≤ v.toInt → (t.stack k.val).drop = 36 ∧ (t.stack k.val).emergency = true) ∧
      (v.toInt < 95 → (t.stack k.val).drop = (s.stack k.val).drop) ∧ t.mem = s.mem ∧ t.cores = s.cores ∧ t.nv = s.nv) ∧
  (∀ (s : State) (k : StackId), (s.stack k.val).tempFails < 2 → exec (.dramTempRead k none) s =
      .next (s.modStack k.val fun S => { S with tempFails := (s.stack k.val).tempFails + 1 })) ∧
  (∀ (s : State) (k : StackId), 2 ≤ (s.stack k.val).tempFails → ∃ t, exec (.dramTempRead k none) s = .next t ∧
      (t.stack k.val).tempFails = 0 ∧ t.rfld (Reg.hbmTemp k.val) 0 8 = 95 ∧ t.rbit (Reg.hbmStatus k.val) 11 = true ∧
      (t.stack k.val).drop = 36 ∧ t.mem = s.mem ∧ t.cores = s.cores ∧ t.nv = s.nv) ∧
  (∀ s : State, ∃ t, exec .stackLimit s = .next t ∧
      (∀ k, k < 24 → (t.stack k).drop = BitVec.ofNat 6
        (if (s.rnat Reg.thmDramHi : Int) ≤ sext 8 (s.rfld (Reg.hbmTemp k) 0 8) then min 36 ((s.stack k).drop.toNat + 1)
         else if sext 8 (s.rfld (Reg.hbmTemp k) 0 8) ≤ (s.rnat Reg.thmDramLo : Int) then (s.stack k).drop.toNat - 1
         else (s.stack k).drop.toNat)) ∧
      t.mem = s.mem ∧ t.cores = s.cores ∧ t.nv = s.nv ∧ t.arm = s.arm ∧ t.mod = s.mod)

/-- The power state machine of a bank (R158) -/
def Obligations.BankPower : Prop :=
  (∀ (s : State) (b : BankRef), (getBank s b).st = .on →
    ∃ t, exec (.powerDownRequest b) s = .next t ∧ (getBank t b).st = .draining ∧ t.nv = s.nv ∧ t.vat = s.vat) ∧
  (∀ (s : State) (b : BankRef), (getBank s b).st = .off → (getBank s b).phase = false →
    ∃ t, exec (.powerUpRequest b) s = .next t ∧ (getBank t b).st = .waking ∧ (getBank t b).phase = false ∧
      t.mem = s.mem ∧ t.nv = s.nv) ∧
  (∀ (s : State) (b : BankRef), (getBank s b).st = .draining → pendingWrites s b = 0 →
    ∃ t, exec (.bankDrained b) s = .next t ∧ (getBank t b).st = .off ∧ (getBank t b).phase = true ∧
      (∀ i, i < bankBytes b → t.mem.get (bankBase b + i) = 0) ∧
      (∀ a, (a < bankBase b ∨ bankBase b + bankBytes b ≤ a) → t.mem.get a = s.mem.get a) ∧ t.regs = s.regs) ∧
  (∀ (s : State) (b : BankRef), (getBank s b).st = .off → (getBank s b).phase = true →
    ∃ t, exec (.rampDownComplete b) s = .next t ∧ (getBank t b).phase = false ∧ (getBank t b).upRecorded = false ∧
      (getBank t b).st = (if (getBank s b).upRecorded then .waking else .off) ∧ t.mem = s.mem ∧ t.regs = s.regs) ∧
  (∀ (s : State) (b : BankRef), (getBank s b).st = .waking → (getBank s b).phase = false →
    ∃ t, exec (.rampUpComplete b) s = .next t ∧ (getBank t b).st = .waking ∧ (getBank t b).phase = true ∧
      (∀ i, i < bankBytes b → t.mem.get (bankBase b + i) = 0) ∧
      (∀ a, (a < bankBase b ∨ bankBase b + bankBytes b ≤ a) → t.mem.get a = s.mem.get a) ∧ t.regs = s.regs) ∧
  (∀ (s : State) (b : BankRef), (getBank s b).st = .waking → (getBank s b).phase = true →
    ∃ t, exec (.bankClearComplete b) s = .next t ∧ (getBank t b).st = .on ∧ (getBank t b).phase = false ∧
      t.mem = s.mem ∧ t.regs = s.regs)

/-- What flushing a gather entry and testing a line do (R144, R152, R153) -/
def Obligations.GatherAndLineTest : Prop :=
  (∀ (s : State) (c : CoreId) (l : Fin 6144) (e : GatherEnt), gatherAt s c.val l.val = some e →
    ∃ t, exec (.gatherFlush c l false) s = .next t ∧ gatherAt t c.val l.val = none ∧
      (∀ i, i < 64 → t.mem.get (spdAddr c.val (64 * l.val) + i) =
        (mergeLine (s.rd (spdAddr c.val (64 * l.val)) 64) e.mask e.data).getD i 0) ∧
      (∀ a, (a < spdAddr c.val (64 * l.val) ∨ spdAddr c.val (64 * l.val) + 64 ≤ a) → t.mem.get a = s.mem.get a) ∧
      t.regs = s.regs ∧ t.nv = s.nv) ∧
  (∀ (s : State) (c : CoreId) (l : Fin 6144) (fails : Bool), testDue s (.spd c l) = true →
    ∃ t, exec (.lineTest (.spd c l) fails) s = .next t ∧ (spdBank t c.val (l.val / 256)).uncorr = true ∧
      (fails = true → (spdBank t c.val (l.val / 256)).retired = true)) ∧
  (∀ (s : State) (c : CoreId) (l : Fin 2048) (fails : Bool), testDue s (.sts c l) = true →
    ∃ t, exec (.lineTest (.sts c l) fails) s = .next t ∧ (t.core c.val).stateUncorr = true ∧
      (fails = true → (t.core c.val).withdrawn = true)) ∧
  (∀ (s : State) (q : QuireId) (l : Fin 65536) (fails : Bool), testDue s (.qsr q l) = true →
    ∃ t, exec (.lineTest (.qsr q l) fails) s = .next t ∧ (qsrBank t q.val (l.val / 2048)).uncorr = true ∧
      (fails = true → (qsrBank t q.val (l.val / 2048)).retired = true))

/-- What the Calender's own commands do (R346, R350, R353) -/
def Obligations.CalenderTables : Prop :=
  (∀ (s : State) (k : Fin 4), (s.cal.slots.get k.val).st = .loading →
    ∃ t, exec (.tableLoadComplete k) s = .next t ∧ (t.cal.slots.get k.val).st = .current ∧
      (∀ a, a < csBase → t.mem.get a = s.mem.get a) ∧ t.cores = s.cores ∧ t.nv = s.nv) ∧
  (∀ (s : State) (k : Fin 4), (s.cal.slots.get k.val).st = .retiring → queuedOf s k.val = 0 → s.cal.wait = none →
    ∃ t, exec (.tableSlotFree k) s = .next t ∧ (t.cal.slots.get k.val).st = .free ∧ t.mem = s.mem ∧ t.cores = s.cores) ∧
  (∀ (s : State) (k : StackId) (f : Nat) (r : List Nat), s.cal.sealQ.get k.val = f :: r → s.rbit Reg.calCtrl 1 = true →
    ∃ t, exec (.seal k) s = .next t ∧ t.cal.sealQ.get k.val = r ∧ t.mem = s.mem ∧ t.cores = s.cores ∧ t.nv = s.nv) ∧
  (∀ (s : State) (k : StackId) (f old j : Nat), recodeFrame s k.val = some (f, old) → s.rbit Reg.calCtrl 2 = true →
    currentSlot s = some j →
    ∃ t, exec (.recode k) s = .next t ∧ (t.frec f).recode = false ∧ (t.frec f).dtslot = BitVec.ofNat 2 j ∧
      t.mem = s.mem ∧ t.cores = s.cores ∧ t.nv = s.nv)

/-- What the Vat's counting commands do (R287, R290, R302) -/
def Obligations.VatCounts : Prop :=
  (∀ s : State, exec .vatTick s = .next { s with vat := { s.vat with tick := s.vat.tick + 1 } }) ∧
  (∀ (s : State) (p : PageId), (s.page p.val).st ≠ .free → 32768 < ageOf s (s.page p.val) →
    exec (.vatSweep p) s = .next (s.modPage p.val fun e => { e with age := tick16 s - 32768 })) ∧
  (∀ (s : State) (p : PageId) (o : RefOp), firstRef s.vat.refq p.val = some o → o.up = true →
    ∃ t, exec (.refcountIncrement p) s = .next t ∧ t.vat.refq = dropRef p.val s.vat.refq ∧
      (t.page p.val).held = true ∧
      (t.page p.val).refcnt = (if (s.page p.val).held then (s.page p.val).refcnt + 1 else 0) ∧
      t.mem = s.mem ∧ t.regs = s.regs ∧ t.cores = s.cores ∧ t.nv = s.nv) ∧
  (∀ (s : State) (p : PageId) (o : RefOp), firstRef s.vat.refq p.val = some o → o.up = false →
    (s.page p.val).refcnt ≠ 0 → (s.page p.val).held = true →
    ∃ t, exec (.refcountDecrement p) s = .next t ∧ t.vat.refq = dropRef p.val s.vat.refq ∧
      (t.page p.val).refcnt = (s.page p.val).refcnt - 1 ∧ (t.page p.val).held = true ∧ t.mem = s.mem ∧
      t.regs = s.regs ∧ t.cores = s.cores ∧ t.nv = s.nv)

/-- What the Vat's page commands do (R289, R305, R313) -/
def Obligations.VatPages : Prop :=
  (∀ (s : State) (d : DieId) (i p : Nat), vatFree s d.val < s.rnat (Reg.vatLow d.val) →
    dropPasses s (fun o => decide (reserveOf s o < usedBy s o)) (handTurn s d.val) 17 32768 = some (i, p) →
    ∃ t, exec (.backgroundEviction d) s = .next t ∧ (t.page p).st = .dropped ∧ t.cores = s.cores ∧ t.nv = s.nv) ∧
  (∀ (s : State) (p : PageId), (s.page p.val).st = .exporting → vatPending s p.val = false →
    VatEnt.count (s.page p.val) ≠ 0 →
    ∃ t, exec (.pageExportComplete p) s = .next t ∧ (t.page p.val).st = .exported ∧
      (t.page p.val).frame = BitVec.ofNat 20 (s.page p.val).other ∧ t.cores = s.cores ∧ t.nv = s.nv) ∧
  (∀ (s : State) (p : PageId), (s.page p.val).st = .importing → (s.page p.val).bad = false →
    vatPending s p.val = false → VatEnt.count (s.page p.val) ≠ 0 →
    ∃ t, exec (.pageImportComplete p) s = .next t ∧ (t.page p.val).st = .live ∧ (t.page p.val).waiters = [] ∧
      (t.page p.val).frame = (s.page p.val).frame ∧ t.cores = s.cores ∧ t.nv = s.nv) ∧
  (∀ (s : State) (p : PageId), (s.page p.val).st = .moving → VatEnt.count (s.page p.val) ≠ 0 →
    ∃ t, exec (.moveComplete p) s = .next t ∧ (t.page p.val).st = .live ∧
      (t.page p.val).frame = BitVec.ofNat 20 (s.page p.val).other ∧ t.cores = s.cores ∧ t.nv = s.nv)

/-- What the rebuild commands do (R308, R311, R312, R314) -/
def Obligations.Rebuilds : Prop :=
  (∀ (s : State) (p : PartId) (d q : Nat) (rest : List Nat), s.vat.active.get p.val = none →
    s.vat.queue.get p.val = d :: rest → (s.page d).st = .dropped → rebuildBarred s p.val d = false →
    ((s.page d).srcPage.toNat :: lowerPages s d).find? (fun q => !((s.page q).st = .live)) = some q →
    (s.page q).st = .dropped →
    ∃ t, exec (.rebuildStart p) s = .next t ∧ t.vat.queue.get p.val = q :: (d :: rest).filter (· != q) ∧
      t.mem = s.mem ∧ t.cores = s.cores ∧ t.nv = s.nv) ∧
  (∀ (s : State) (p : PartId) (d : Nat) (rest : List Nat), s.vat.active.get p.val = none →
    s.vat.queue.get p.val = d :: rest → (s.page d).st = .dropped → rebuildBarred s p.val d = false →
    (∀ q, q ∈ (s.page d).srcPage.toNat :: lowerPages s d → (s.page q).st = .live) →
    exec (.rebuildStart p) s = .next (beginRebuild s p.val d)) ∧
  (∀ (s : State) (p : PartId) (r : Rebuild), s.vat.active.get p.val = some r → r.walked = true →
    (s.page r.scratch).st = .live → VatEnt.count (s.page r.page) ≠ 0 → r.page ≠ r.scratch →
    ∃ t, exec (.rebuildComplete p) s = .next t ∧ (t.page r.page).st = .live ∧
      (t.page r.page).frame = (s.page r.scratch).frame ∧ t.vat.active.get p.val = none ∧ t.mem = s.mem ∧
      t.cores = s.cores ∧ t.nv = s.nv) ∧
  (∀ (s : State) (p : PageId), (s.page p.val).st = .importing → (s.page p.val).bad = true →
    vatPending s p.val = false → (s.page p.val).waiters = [] →
    ∃ t, exec (.rebuildFail p) s = .next t ∧ (t.page p.val).st = .exported ∧
      (t.page p.val).frame = BitVec.ofNat 20 (s.page p.val).other ∧ t.cores = s.cores ∧ t.nv = s.nv)

/-- What the rollout commands do (R20, R25, R27, R33, R36, R38, R42, R46) -/
def Obligations.Rollouts : Prop :=
  (∀ (s : State) (p : PartId), ((s.part p.val).works.get 16).busy = true →
    allEnded s ((s.part p.val).works.get 16) = true →
    ∃ t, exec (.partitionStepComplete p) s = .next t ∧ (t.part p.val).roster = [] ∧ t.nv = s.nv ∧ t.pkg = s.pkg) ∧
  (∀ (s : State) (g : GroupId), (s.part (s.group g.val).part).boundaries.head? = some g.val →
    (s.group g.val).st = .running →
    ∃ t, exec (.groupBoundary g) s = .next t ∧ t.nv = s.nv ∧ t.pkg = s.pkg ∧
      g.val ∉ ((t.part (s.group g.val).part).boundaries.filter fun x =>
        decide (x ∉ (s.part (s.group g.val).part).boundaries.drop 1))) ∧
  (∀ (s : State) (g : GroupId), (s.group g.val).st = .forming → (s.group g.val).formed = true →
    (s.group g.val).status ≠ 0 →
    ∃ t, exec (.rootTaskComplete g) s = .next t ∧ (t.group g.val).st = .ending ∧ t.mem = s.mem ∧ t.nv = s.nv) ∧
  (∀ (s : State) (b : BranchId), (s.branch b.val).st = .forking → (s.branch b.val).need = [] →
    ∃ t, exec (.forkComplete b) s = .next t ∧ (t.branch b.val).st = .ready ∧ t.mem = s.mem ∧ t.nv = s.nv) ∧
  (∀ (s : State) (g : GroupId), (s.group g.val).st = .ending →
    (members s g.val).any (fun b => (s.branch b).st = .rostered) = false → rootRuns s g.val = false →
    ∃ t, exec (.groupEnd g) s = .next t ∧ (t.group g.val).st = .free ∧ t.nv = s.nv ∧ t.pkg = s.pkg) ∧
  (∀ (s : State) (b : BranchId), (s.branch b.val).st = .releasing →
    s.vat.refq.any (·.branch == b.val + 1) = false → (s.branch b.val).closed = true →
    rollTearing s (s.branch b.val).part = false →
    ∃ t, exec (.branchFree b) s = .next t ∧ (t.branch b.val).st = .free ∧ t.mem = s.mem ∧ t.nv = s.nv) ∧
  (∀ (s : State) (p : PartId) (g : Program), (s.part p.val).program = some g → mayClose s p.val = true →
    ((readyOrder s p.val ((s.part p.val).step + 1).toNat).foldl
      (admitBranch p.val g.ctx (min 8192 (partImg s p.val 20 2))
        (skippedGroups s (min 8192 (partImg s p.val 20 2)) (readyOrder s p.val ((s.part p.val).step + 1).toNat) 4096 []))
      { s := s, admitted := [], lost := [], wait := false }).wait = false →
    ∃ t, exec (.rosterClose p) s = .next t ∧ (t.part p.val).step = (s.part p.val).step + 1 ∧ t.nv = s.nv) ∧
  (∀ (s : State) (g : GroupId), 1024 ≤ (s.group g.val).skips →
    ∃ t, exec (.recordRingStall g) s = .next t ∧ (t.group g.val).skips = 0 ∧ t.nv = s.nv ∧ t.cores = s.cores) ∧
  (∀ (s : State) (b : BranchId), 1024 ≤ (s.branch b.val).skips →
    ∃ t, exec (.allocSkipStall b) s = .next t ∧ (t.branch b.val).skips = 0 ∧ t.nv = s.nv ∧ t.cores = s.cores)

/-- What the scheduler's commands do (R486, R489, R491, R492, R495, R496) -/
def Obligations.Scheduling : Prop :=
  (∀ (s : State) (p : PartId) (w w1 : Work) (k : Nat) (qs : List Nat), (s.part p.val).st = .ready →
    s.wmk.entropy = .healthy →
    ([2, 1, 0].filterMap (headOf (s.part p.val))).findSome? (fun w => (startWith s p.val w).map fun k => (w, k)) =
      some (w, k, qs, w1) → w.kind = .launch →
    ∃ t, exec (.taskStart p) s = .next t ∧ ((t.part p.val).works.get k).st = .running ∧
      ((t.part p.val).works.get k).quires = BitVec.ofNat 128 (qs.foldl (fun v q => v + 2 ^ q) 0) ∧ t.nv = s.nv) ∧
  (∀ (s : State) (p : PartId) (k : Fin 17), k.val ≠ 16 → ((s.part p.val).works.get k.val).busy = true →
    allEnded s ((s.part p.val).works.get k.val) = true →
    ∃ t, exec (.taskEnd p k) s = .next t ∧ (t.part p.val).works.get k.val = default ∧ t.nv = s.nv ∧ t.pkg = s.pkg) ∧
  (∀ (s : State) (p : PartId), (s.part p.val).table ≠ [] →
    ∃ t, exec (.slotBoundary p) s = .next t ∧
      (t.part p.val).slot = (if (s.part p.val).table.length ≤ (s.part p.val).slot + 1 then 0 else (s.part p.val).slot + 1) ∧
      (t.part p.val).slotAt = (s.part p.val).cycle ∧ t.mem = s.mem ∧ t.nv = s.nv) ∧
  (∀ (s : State) (c : CoreId), (s.core c.val).part ≠ 0 → (workOf s c.val).st = .preempting →
    (s.core c.val).preempt = true → (s.core c.val).spilled = false → atCheapPoint s c.val = true →
    (s.core c.val).strSlots.cells = [] →
    ∃ t, exec (.cheapPointSpill c) s = .next t ∧ (t.core c.val).spilled = true ∧ t.nv = s.nv) ∧
  (∀ (s : State) (p : PartId) (k : Fin 17), ((s.part p.val).works.get k.val).st = .preempting →
    (coresOf ((s.part p.val).works.get k.val).quires).all (fun c => (s.core c).spilled) = true →
    ∃ t, exec (.preemptionComplete p k) s = .next t ∧ ((t.part p.val).works.get k.val).st = .preempted ∧ t.nv = s.nv) ∧
  (∀ (s : State) (p : PartId) (k : Fin 17), mayResume s p.val k.val = true →
    (∀ c, c ∈ coresOf ((s.part p.val).works.get k.val).quires →
      (s.saved.get ((p.val * 17 + k.val) * 4096 + c)).mma.active.src = 0 ∧
      (s.saved.get ((p.val * 17 + k.val) * 4096 + c)).mma.shadow.src = 0) →
    ∃ t, exec (.workResume p k) s = .next t ∧ ((t.part p.val).works.get k.val).st = .running ∧ t.nv = s.nv ∧
      (∀ c, c ∈ coresOf ((s.part p.val).works.get k.val).quires → (t.core c).part = p.val + 1 ∧
        (t.core c).ctx = ((s.part p.val).works.get k.val).ctx ∧
        (t.core c).pos = (s.saved.get ((p.val * 17 + k.val) * 4096 + c)).pos ∧
        (t.core c).ended = (s.saved.get ((p.val * 17 + k.val) * 4096 + c)).ended)) ∧
  (∀ (s : State) (c : CoreId), (s.core c.val).part ≠ 0 → (s.core c.val).ended = false →
    (workOf s c.val).busy = true → (s.ctx (s.core c.val).ctx).par.stallAction = false →
    ∃ t, exec (.progressNotice c) s = .next t ∧ (t.core c.val).stalls = (s.core c.val).stalls + 1 ∧ t.nv = s.nv)

/-- What the ends of a reset and of a destroy leave (R475, R499, R500) -/
def Obligations.PartitionsComplete : Prop :=
  (∀ (s : State) (p : PartId), (s.part p.val).st = .resetting →
    (s.part p.val).tearing.any (fun x => (s.ctx x).st = .tearing) = false →
    ∃ t, exec (.resetComplete p) s = .next t ∧ (t.part p.val).st = .ready ∧ (t.part p.val).table = [] ∧
      (t.part p.val).works = ⟨[]⟩ ∧ (t.part p.val).waiting = [] ∧ t.nv = s.nv) ∧
  (∀ (s : State) (p : PartId), (s.part p.val).st = .destroying → (s.part p.val).recorded = none →
    ∃ t, exec (.destroyComplete p) s = .next t ∧ (t.part p.val).st = .free ∧ t.nv = s.nv)

/-- What a mailbox does with a command that its own rules do not judge (R451, R457, R591, DESIGN CHOICE, log 4) -/
def Obligations.MailboxRefusals : Prop :=
  (∀ (c : Nat × (BoxId → Instr)), c ∈ boxCommands → ∀ (m : BoxId) (s : State) (a : Ans), atHead s m.val c.1 = true →
    precheck s m.val (headEntry s m.val) = some a →
    ∃ t, exec (c.2 m) s = .next t ∧ Answers s t m.val a ∧ SameDevice s t ∧ SameWork s t ∧ SameBelow s t) ∧
  (∀ (c : Nat × (BoxId → Instr)), c ∈ boxCommands → ∀ (m : BoxId) (s : State), atHead s m.val c.1 = false →
    ∃ t, exec (c.2 m) s = .next t ∧ SameDevice s t ∧ SameWork s t ∧ SameMemory s t ∧ t.arm = s.arm)

/-- What the info, power, table and thermal commands do (R158, R160, R352, R463, R562) -/
def Obligations.SystemCommands : Prop :=
  (∀ (m : BoxId) (s : State), Takes s m.val 0x0001 → ∃ t, exec (.info m) s = .next t ∧ Answers s t m.val (infoAns s) ∧
      SameDevice s t ∧ SameWork s t ∧ SameBelow s t) ∧
  (∀ (m : BoxId) (s : State) (u b : Nat) (r : BankRef), Takes s m.val 0x0004 →
    let e := headEntry s m.val
    let first := eField e 16 12
    let count := eField e 18 9
    let quireOf (u : Nat) : Nat := if bit (lineN e 20 1) 0 then u else u / 32
    let ref (u b : Nat) : Option BankRef := if bit (lineN e 20 1) 0 then qsrRef u b else spdRef u b
    1 ≤ count → count ≤ 256 → first + count ≤ (if bit (lineN e 20 1) 0 then 128 else 4096) →
    (bit (lineN e 20 1) 0 = false → eField e 24 32 < 2 ^ 24) →
    (∀ u, first ≤ u → u < first + count → ownQuire s m.val (eContext e) (quireOf u) = true) →
    first ≤ u → u < first + count → isBacked s (quireOf u) = true →
    (∀ b' r', bit (eField e 24 32) b' = true → b' < 32 → ref u b' = some r' → (getBank s r').retired = false) →
    bit (eField e 24 32) b = true → b < 32 → ref u b = some r →
    ∃ t, exec (.bankPower m) s = .next t ∧ t.nv = s.nv ∧ t.mod = s.mod ∧ t.links = s.links ∧
      (bit (lineN e 20 1) 1 = false → (getBank s r).st = .on → (getBank t r).st = .draining) ∧
      (bit (lineN e 20 1) 1 = true → (getBank s r).st = .off → (getBank s r).phase = false → (getBank t r).st = .waking) ∧
      (bit (lineN e 20 1) 1 = true → (getBank s r).st = .draining → (getBank t r).upRecorded = true)) ∧
  (∀ (m : BoxId) (s : State) (k : Nat), Takes s m.val 0x0005 →
    let a := eField (headEntry s m.val) 24 64
    Reads s 0 a 256 64 → tableImageOk (s.rdN a 256) = true → s.cal.wait = none →
    (∀ j, j < 4 → (s.cal.slots.get j).st ≠ .free → (s.cal.slots.get j).version.toNat % 256 ≠ s.rdN a 1) →
    k < 4 → (s.cal.slots.get k).st = .free → (∀ j, j < k → (s.cal.slots.get j).st ≠ .free) →
    ∃ t, exec (.decodeTableLoad m) s = .next t ∧ (t.cal.slots.get k).st = .loading ∧
      (t.cal.slots.get k).version.toNat = s.rdN a 4 ∧ (t.cal.slots.get k).lengths = s.rd (a + 64) 136 ∧
      (∀ j, j ≠ k → t.cal.slots.get j = s.cal.slots.get j) ∧ SameDevice s t ∧ t.cores = s.cores ∧ t.vat = s.vat ∧
      t.roll = s.roll ∧ SameBelow s t) ∧
  (∀ (m : BoxId) (s : State) (k : Nat), Takes s m.val 0x0006 → currentSlot s = some k →
    ∃ t, exec (.decodeTableWithdraw m) s = .next t ∧ Answers s t m.val { status := 0 } ∧
      (queuedOf s k ≠ 0 → (t.cal.slots.get k).st = .retiring) ∧
      (queuedOf s k = 0 → s.cal.wait = none → (t.cal.slots.get k).st = .free) ∧ SameDevice s t ∧ t.cores = s.cores ∧
      t.vat = s.vat ∧ t.roll = s.roll ∧ SameBelow s t) ∧
  (∀ (m : BoxId) (s : State), Takes s m.val 0x0C01 →
    let e := headEntry s m.val
    ∃ t, exec (.thermalSet m) s = .next t ∧ SameDevice s t ∧ SameWork s t ∧ SameBelow s t ∧
      t.rnat Reg.thmPwrLimit =
        (if bit (lineN e 16 1) 3 then max 1500 (min 3600 (eField e 24 16)) else s.rnat Reg.thmPwrLimit) ∧
      t.rnat Reg.thmJuncHi = (if bit (lineN e 16 1) 0 then min (eField e 17 8) 103 else s.rnat Reg.thmJuncHi) ∧
      t.rnat Reg.thmJuncLo =
        (if bit (lineN e 16 1) 0 then min (eField e 18 8) (min (eField e 17 8) 103 - 2) else s.rnat Reg.thmJuncLo) ∧
      (∀ q, q < 128 → bit (lineN e 16 1) 2 = true → (eField e 32 128 = 0 ∨ bit (eField e 32 128) q = true) →
        t.rnat (Reg.thmCeil q) = max 12 (min 48 (eField e 22 6)))) ∧
  (∀ (m : BoxId) (s : State), Takes s m.val 0x0C02 → ∃ t, exec (.thermalGet m) s = .next t ∧
      Answers s t m.val (thermalAns s) ∧ SameDevice s t ∧ SameWork s t ∧ SameBelow s t)

/-- What the error, link, stack and diagnostic commands do (R401, R464, R465, R537, R539, R582, R583) -/
def Obligations.ReportingCommands : Prop :=
  (∀ (m : BoxId) (s : State), Takes s m.val 0x0901 → bit (lineN (headEntry s m.val) 16 1) 0 = true →
    1 ≤ eField (headEntry s m.val) 24 16 → eField (headEntry s m.val) 24 16 ≤ 1024 →
    ∃ t, exec (.errorRead m) s = .next t ∧ SameDevice s t ∧ SameWork s t ∧ SameBelow s t ∧
      t.rd (csAddr (diagOff m.val)) 32 = recordBytes (s.ctx (eContext (headEntry s m.val))).record ∧
      Answers s t m.val { status := 0, result := [(20, 4, s.arm.seq), (48, 4, 1)] }) ∧
  (∀ (s : State) (c : Nat × ErrEntry), Takes s 0 0x0901 →
    let e := headEntry s 0
    bit (lineN e 16 1) 0 = false → 1 ≤ eField e 24 16 → eField e 24 16 ≤ 1024 →
    c ∈ ringFrom s (eField e 20 32) (eField e 24 16) →
    ∃ t, exec (.errorRead 0) s = .next t ∧ SameDevice s t ∧ SameWork s t ∧ SameBelow s t ∧
      (t.arm.ring.get c.1).returned = true ∧ t.arm.seq = s.arm.seq) ∧
  (∀ (m : BoxId) (s : State), Takes s m.val 0x0902 → bit (lineN (headEntry s m.val) 16 1) 0 = true →
    ∃ t, exec (.errorClear m) s = .next t ∧ (t.ctx (eContext (headEntry s m.val))).record = default ∧ SameDevice s t ∧
      t.cores = s.cores ∧ t.quires = s.quires ∧ t.vat = s.vat ∧ t.roll = s.roll ∧ t.arm.parts = s.arm.parts ∧
      SameBelow s t ∧ Answers s t m.val { status := 0 }) ∧
  (∀ (m : BoxId) (s : State), Takes s m.val 0x0D01 → bit (lineN (headEntry s m.val) 20 1) 0 = false →
    let mask := eField (headEntry s m.val) 16 32
    ∃ t, exec (.linkStatus m) s = .next t ∧ SameDevice s t ∧ SameWork s t ∧ SameBelow s t ∧
      (∀ n, (bitsOf 32 mask).head? = some n →
        t.rd (csAddr (diagOff m.val)) 4 = leBytes 4 (readReg s (Reg.chnLinkState n)).toNat) ∧
      Answers s t m.val { status := 0, result :=
        [(16, 4, (readReg s Reg.plnTopoLinks).toNat &&& mask), (48, 4, 16 * (bitsOf 32 mask).length)] }) ∧
  (∀ (m : BoxId) (s : State) (n : Nat), Takes s m.val 0x0D02 →
    let e := headEntry s m.val
    n < 32 → bit (eField e 16 32) n = true →
    ∃ t, exec (.linkEnable m) s = .next t ∧ t.rbit (Reg.chnLinkCtl n) 0 = bit (lineN e 20 1) 0 ∧
      (bit (lineN e 20 1) 0 = false → (s.link n).isUp = true → (t.link n).st = .draining) ∧
      (bit (lineN e 20 1) 0 = true → (s.link n).st = .draining → (t.link n).enableRec = true) ∧
      (∀ k, bit (eField e 16 32) k = false → t.link k = s.link k) ∧ t.nv = s.nv ∧ SameWork s t ∧ SameBelow s t) ∧
  (∀ (m : BoxId) (s : State), Takes s m.val 0x0D03 →
    let e := headEntry s m.val
    s.rnat Reg.plnTopoChecks ≠ 0 → s.chain.mgrValid = true → eField e 16 14 = managerId s →
    eField e 18 16 = s.chain.epoch.toNat → (∀ n, n < 32 → bit (eField e 24 32) n = true → (s.link n).st ≠ .down) →
    ∃ t, exec (.topologyAccept m) s = .next t ∧
      t.wmk.accLinks = s.wmk.accLinks ||| BitVec.ofNat 32 (eField e 24 32) ∧
      t.wmk.accDies = (s.wmk.accDies || bit (lineN e 28 1) 0) ∧ t.nv = s.nv ∧ SameWork s t ∧ SameBelow s t) ∧
  (∀ (m : BoxId) (s : State) (k : Nat), Takes s m.val 0x0D04 → bitsOf 24 (eField (headEntry s m.val) 16 24) = [k] →
    (stackBytes_ s m.val (eContext (headEntry s m.val)) k).length ≤ 0x10000 →
    ∃ t, exec (.stackStatus m) s = .next t ∧ SameDevice s t ∧ SameWork s t ∧ SameBelow s t ∧
      t.rd (csAddr (diagOff m.val)) (stackBytes_ s m.val (eContext (headEntry s m.val)) k).length =
        stackBytes_ s m.val (eContext (headEntry s m.val)) k) ∧
  (∀ (m : BoxId) (s : State) (n size : Nat) (entry : Nat → List Byte), Takes s m.val 0x0E01 →
    let e := headEntry s m.val
    diagTarget s m.val (eContext e) (eField e 16 4) = some (n, size, entry) →
    ∃ t, exec (.diagRead m) s = .next t ∧ SameDevice s t ∧ SameWork s t ∧ SameBelow s t ∧
      Answers s t m.val { status := 0, result :=
        [(48, 4, min (eField e 24 32) (min (n - eField e 20 32) (0x10000 / size)))] })

/-- What the partition and context commands do (R474 to R477, R497, R500) -/
def Obligations.PartitionCommands : Prop :=
  (∀ s : State, Takes s 0 0x0101 →
    let p := eField (headEntry s 0) 16 7
    let qs := BitVec.ofNat 128 (eField (headEntry s 0) 24 128)
    qs ≠ 0 → (∀ q, q < 128 → qs.getLsbD q = true → isBacked s q = true ∧ s.pkg.impaired.getLsbD q = false) →
    (s.part p).st = .free → (s.part p).recorded = none →
    (∀ c, c ∈ s.arm.parts.cells → c.2.recorded = none ∧ (c.1 ≠ p → c.2.quires &&& qs = 0)) →
    ∃ t, exec (.partitionCreate 0) s = .next t ∧ Answers s t 0 { status := 0 } ∧ (t.part p).st = .ready ∧
      (t.part p).quires = qs ∧ (t.part p).program = none ∧ (t.part p).table = [] ∧ (t.part p).cycle = 0 ∧
      (∀ k, k ≠ p → t.part k = s.part k) ∧ t.nv = s.nv ∧ t.wmk = s.wmk ∧ t.mod = s.mod) ∧
  (∀ s : State, Takes s 0 0x0102 →
    let p := eField (headEntry s 0) 16 7
    (s.part p).st = .ready → (s.part p).program = none → (s.part p).table = [] → partNamed s p = false →
    ∃ t, exec (.partitionDestroy 0) s = .next t ∧ (t.part p).st = .destroying ∧
      (t.part p).destroyers = [(0, (s.box 0).nextSn)] ∧ (∀ k, k ≠ p → t.part k = s.part k) ∧ SameDevice s t ∧
      t.cores = s.cores ∧ t.quires = s.quires ∧ t.roll = s.roll ∧ t.vat = s.vat ∧ SameBelow s t) ∧
  (∀ s : State, Takes s 0 0x0103 →
    let e := headEntry s 0
    let x := eContext e
    let v := s.rdN (eField e 16 64) 64
    x ≠ 0 → Reads s x (eField e 16 64) 64 64 →
    reservedBit [(0, 128), (128, 8), (136, 3), (144, 8), (160, 32), (192, 64), (256, 20), (288, 11)] v 512 = none →
    (∀ p, p < 128 → (ctxParams v).partitions.getLsbD p = true → (s.part p).st = .ready) →
    ((ctxParams v).rebuildEn = true → (ctxParams v).partitions.getLsbD (ctxParams v).rebuild.toNat = true) →
    1 ≤ (ctxParams v).saveFrames.toNat → (ctxParams v).saveFrames.toNat ≤ 1024 →
    runAllowed s (ctxParams v).saveFirst.toNat (ctxParams v).saveFrames.toNat = true →
    runTaken s x (ctxParams v).saveFirst.toNat (ctxParams v).saveFrames.toNat = false →
    (s.ctx x).st = .free → (s.ctx x).recorded = none → (s.arm.creates.any (·.ctx == x)) = false →
    s.wmk.entropy = .healthy →
    ∃ t, exec (.contextCreate 0) s = .next t ∧ Answers s t 0 { status := 0 } ∧ (t.ctx x).st = .active ∧
      (t.ctx x).par = ctxParams v ∧ (t.ctx x).keyLive = true ∧ (t.ctx x).record = default ∧
      (t.ctx x).grants = [⟨(ctxParams v).saveFirst.toNat, (ctxParams v).saveFrames.toNat, true, true⟩] ∧
      (∀ a, (ctxParams v).saveFirst.toNat * 0x200000 ≤ a →
        a < ((ctxParams v).saveFirst.toNat + (ctxParams v).saveFrames.toNat) * 0x200000 → t.mem.get a = 0) ∧
      (∀ a, a < csBase → (a < (ctxParams v).saveFirst.toNat * 0x200000 ∨
        ((ctxParams v).saveFirst.toNat + (ctxParams v).saveFrames.toNat) * 0x200000 ≤ a) → t.mem.get a = s.mem.get a) ∧
      (∀ y, y ≠ x → t.ctx y = s.ctx y) ∧ SameDevice s t ∧ t.cores = s.cores ∧ t.quires = s.quires ∧ t.roll = s.roll) ∧
  (∀ s : State, Takes s 0 0x0104 →
    let x := eContext (headEntry s 0)
    ∃ t, exec (.contextDestroy 0) s = .next t ∧ (t.ctx x).st = .tearing ∧ (0, (s.box 0).nextSn) ∈ (t.ctx x).destroyers ∧
      ((s.ctx x).st = .active → ∀ p w, w ∈ (t.part p).works.cells → w.2.ctx ≠ x) ∧ t.nv = s.nv)

/-- What the grant and program commands do (R169, R358, R459, R460, R472, R479, R480) -/
def Obligations.GrantsAndPrograms : Prop :=
  (∀ s : State, Takes s 0 0x0105 →
    let b := eField (headEntry s 0) 16 8
    b ≠ 0 → (s.box b).grantee = 0 →
    ∃ t, exec (.mailboxGrant 0) s = .next t ∧ Answers s t 0 { status := 0 } ∧
      (t.box b).grantee = eContext (headEntry s 0) ∧ SameDevice s t ∧ SameWork s t ∧ SameBelow s t) ∧
  (∀ s : State, Takes s 0 0x0106 →
    let b := eField (headEntry s 0) 16 8
    b ≠ 0 → (s.box b).grantee ≠ 0 → (s.box b).revoking = none →
    ∃ t, exec (.mailboxRevoke 0) s = .next t ∧ (t.box b).covered = 0 ∧ SameDevice s t ∧ SameWork s t ∧ SameBelow s t ∧
      ((s.box b).inProg = [] → (t.box b).grantee = 0 ∧ (t.box b).cmdRead = 0 ∧ (t.box b).rspWrite = 0 ∧
        Answers s t 0 { status := 0 }) ∧
      ((s.box b).inProg ≠ [] → (t.box b).grantee = (s.box b).grantee ∧
        (t.box b).revoking = some (0, (s.box 0).nextSn))) ∧
  (∀ s : State, Takes s 0 0x0107 →
    let e := headEntry s 0
    let x := eContext e
    let first := eField e 16 20
    let n := eField e 20 20
    n ≠ 0 → bit (lineN e 24 1) 2 = false → runAllowed s first n = true → runTaken s x first n = false →
    (s.ctx x).grants.length < 64 →
    ∃ t, exec (.memoryGrant 0) s = .next t ∧ Answers s t 0 { status := 0 } ∧
      (t.ctx x).grants = (s.ctx x).grants ++
        [{ first := first, frames := n, read := bit (lineN e 24 1) 0, write := bit (lineN e 24 1) 1 }] ∧
      (∀ f, first ≤ f → f < first + n → (t.frec f).keyCtx.toNat = x) ∧
      (∀ a, first * 0x200000 ≤ a → a < (first + n) * 0x200000 → t.mem.get a = 0) ∧
      (∀ a, a < csBase → (a < first * 0x200000 ∨ (first + n) * 0x200000 ≤ a) → t.mem.get a = s.mem.get a) ∧
      SameDevice s t ∧ t.cores = s.cores ∧ t.quires = s.quires ∧ t.roll = s.roll ∧ t.vat = s.vat) ∧
  (∀ s : State, Takes s 0 0x0107 →
    let e := headEntry s 0
    let x := eContext e
    let first := eField e 16 20
    let n := eField e 20 20
    n ≠ 0 → bit (lineN e 24 1) 2 = true → runAllowed s first n = true → runTaken s x first n = false →
    ((s.ctx x).grants.flatMap (cutGrant first n)).length ≤ 64 → accessesOf s x = [] →
    ∃ t, exec (.memoryGrant 0) s = .next t ∧ Answers s t 0 { status := 0 } ∧
      (t.ctx x).grants = (s.ctx x).grants.flatMap (cutGrant first n) ∧
      (∀ f, first ≤ f → f < first + n → (t.frec f).keyCtx = 0) ∧
      (∀ a, first * 0x200000 ≤ a → a < (first + n) * 0x200000 → t.mem.get a = 0) ∧
      SameDevice s t ∧ t.cores = s.cores ∧ t.quires = s.quires ∧ t.roll = s.roll ∧ t.vat = s.vat) ∧
  (∀ (m : BoxId) (s : State), Takes s m.val 0x0201 →
    let e := headEntry s m.val
    let x := eContext e
    let v := s.rdN (eField e 16 64) 64
    let p := bField v 12 7
    let im := memImg s (bField v 0 48)
    let len := bField v 8 21
    Reads s x (eField e 16 64) 64 64 → reservedBit loadFields v 512 = none → ownPart s m.val x p = true → 64 ≤ len →
    len ≤ 1048576 → (s.part p).st = .ready → (s.ctx x).par.partitions.getLsbD p = true → (s.part p).program = none →
    Reads s x (bField v 0 48) len 1 → imStep im = false → imageBrk s x im len = none → taskBlk v = none →
    spaceOk im len = true →
    ∃ t, exec (.programLoad m) s = .next t ∧
      (∃ g, (t.part p).program = some g ∧ g.ctx = x ∧ g.bytes = len ∧ g.isStep = false ∧
        Answers s t m.val { status := 0, result := [(16, 2, g.handle.toNat), (18, 2, 0xFFFF)] }) ∧
      (t.part p).step = 0 ∧ (t.part p).roster = [] ∧ (∀ k, k ≠ p → t.part k = s.part k) ∧ SameDevice s t ∧
      t.roll = s.roll) ∧
  (∀ (m : BoxId) (s : State) (g : Program), Takes s m.val 0x0202 →
    let h := eField (headEntry s m.val) 16 16
    let p := h % 128
    ownPart s m.val (eContext (headEntry s m.val)) p = true → (s.part p).program = some g → g.handle.toNat = h →
    g.stepPart = none → g.rebuildPart = none → (∀ c, c ∈ s.roll.groups.cells → c.2.st ≠ .free → c.2.part ≠ p) →
    (s.part p).works.cells = [] → (s.part p).waiting = [] → (s.part p).st = .ready →
    ∃ t, exec (.programUnload m) s = .next t ∧ (t.part p).program = none ∧
      (t.part p).roster = [] ∧ (∀ k, k ≠ p → t.part k = s.part k) ∧ t.nv = s.nv ∧ t.roll.groups = s.roll.groups)

/-- What the group and Vat commands do (R24, R25, R27, R41, R42, R315, R325, R461, R462) -/
def Obligations.GroupCommands : Prop :=
  (∀ (m : BoxId) (s : State) (rp : Nat), Takes s m.val 0x0301 →
    let e := headEntry s m.val
    let x := eContext e
    let v := s.rdN (eField e 16 64) 128
    let p := bField v 0 7
    let g := lowestGap s.roll.groups
    let root := lowestGap s.roll.branches
    Reads s x (eField e 16 64) 128 64 → reservedBit groupFields v 1024 = none → ownPart s m.val x p = true →
    foreignStream s m.val x (bField v 20 24) = false → (s.part p).st ≠ .resetting → groupBrk s x v = none →
    Reads s x (bField v 40 48) 64 64 → policyOk (BitVec.ofNat 512 (s.rdN (bField v 40 48) 64)) = true →
    groupFits s (bField v 4 17) = true → rootTarget s x p (bField v 2 16) = some rp →
    ∃ t, exec (.groupOpen m) s = .next t ∧ Answers s t m.val { status := 0, result := [(16, 2, g)] } ∧
      (t.group g).st = .forming ∧ (t.group g).part = p ∧ (t.group g).ctx = x ∧ (t.group g).w0 = bField v 4 17 ∧
      (t.group g).policy = BitVec.ofNat 512 (s.rdN (bField v 40 48) 64) ∧ (t.group g).root = root ∧
      (t.branch root).st = .root ∧
      (∃ w, (t.part rp).waiting = (s.part rp).waiting ++ [w] ∧ w.kind = .root g ∧ w.ctx = x ∧ w.st = .waiting) ∧
      (∀ k, k ≠ g → t.group k = s.group k) ∧ (∀ b, b ≠ root → t.branch b = s.branch b) ∧ SameDevice s t ∧
      t.cores = s.cores ∧ t.quires = s.quires ∧ t.vat = s.vat) ∧
  (∀ (m : BoxId) (s : State), Takes s m.val 0x0302 →
    let x := eContext (headEntry s m.val)
    let g := eField (headEntry s m.val) 16 12
    ownGroup s m.val x g = true → (s.group g).st ≠ .free → (s.group g).ctx = x →
    ∃ t, exec (.groupClose m) s = .next t ∧ t.nv = s.nv ∧
      ((s.group g).st ≠ .ending → (s.part (s.group g).part).boundaries.contains g = false → (t.group g).st = .ending) ∧
      ((s.group g).st ≠ .ending → (s.part (s.group g).part).boundaries.contains g = true →
        (t.group g).closing = true ∧ (t.group g).st = (s.group g).st) ∧
      ((s.group g).st = .ending → SameWork s t) ∧ (∀ k, k ≠ g → (t.group k).st = (s.group k).st)) ∧
  (∀ (m : BoxId) (s : State), Takes s m.val 0x0303 →
    let e := headEntry s m.val
    let x := eContext e
    let g := eField e 16 12
    let n := eField e 18 16
    ownGroup s m.val x g = true → (s.group g).st ≠ .free → (s.group g).st ≠ .ending → (s.group g).ctx = x →
    1 ≤ n → n ≤ 256 → areaWritable s x (eField e 24 64) (8 * n) 1 = true → Reads s x (eField e 24 64) (8 * n) 1 →
    ∃ t, exec (.branchFork m) s = .next t ∧ SameDevice s t ∧ t.cores = s.cores ∧ t.vat = s.vat ∧
      t.roll.branches = s.roll.branches ∧
      (∃ r, (t.group g).requests = (s.group g).requests ++ [r] ∧ r.box = m.val ∧ r.sn = (s.box m.val).nextSn ∧
        r.parents = (List.range n).map fun i => s.rdN (eField e 24 64 + 8 * i) 4 % 262144) ∧
      (∀ k, k ≠ g → t.group k = s.group k)) ∧
  (∀ (m : BoxId) (s : State), Takes s m.val 0x0304 →
    let e := headEntry s m.val
    let x := eContext e
    let g := eField e 16 12
    ownGroup s m.val x g = true → (s.group g).st ≠ .free → (s.group g).ctx = x → Reads s x (eField e 24 64) 64 64 →
    policyOk (BitVec.ofNat 512 (s.rdN (eField e 24 64) 64)) = true →
    ∃ t, exec (.trimPolicy m) s = .next t ∧ Answers s t m.val { status := 0 } ∧
      t.group g = { s.group g with policy := BitVec.ofNat 512 (s.rdN (eField e 24 64) 64) } ∧
      (∀ k, k ≠ g → t.group k = s.group k) ∧ SameDevice s t ∧ t.cores = s.cores ∧ t.vat = s.vat ∧
      t.roll.branches = s.roll.branches ∧ SameBelow s t) ∧
  (∀ s : State, Takes s 0 0x0501 →
    let x := eContext (headEntry s 0)
    let n := eField (headEntry s 0) 16 20
    n ≤ 524288 → (n : Int) ≤ headroom s →
    ∃ t, exec (.vatReserve 0) s = .next t ∧ (t.ctx x).reserve = (s.ctx x).reserve + BitVec.ofNat 20 n ∧
      Answers s t 0 { status := 0, result := [(16, 4, (s.ctx x).reserve.toNat + n)] } ∧ SameDevice s t ∧
      t.cores = s.cores ∧ t.vat = s.vat ∧ t.roll = s.roll ∧ SameBelow s t ∧ (∀ y, y ≠ x → t.ctx y = s.ctx y)) ∧
  (∀ s : State, Takes s 0 0x0502 →
    let x := eContext (headEntry s 0)
    let n := eField (headEntry s 0) 16 20
    n ≤ (s.ctx x).reserve.toNat →
    ∃ t, exec (.vatRelease 0) s = .next t ∧ (t.ctx x).reserve.toNat = (s.ctx x).reserve.toNat - n ∧
      Answers s t 0 { status := 0, result := [(16, 4, (s.ctx x).reserve.toNat - n)] } ∧ SameDevice s t ∧
      t.cores = s.cores ∧ t.vat = s.vat ∧ t.roll = s.roll ∧ SameBelow s t ∧ (∀ y, y ≠ x → t.ctx y = s.ctx y)) ∧
  (∀ (m : BoxId) (s : State), Takes s m.val 0x0503 →
    let x := eContext (headEntry s m.val)
    ∃ t, exec (.vatQuery m) s = .next t ∧ SameDevice s t ∧ SameWork s t ∧ SameBelow s t ∧
      Answers s t m.val { status := 0, result :=
        [(16, 4, reserveOf s x), (20, 4, usedBy s x), (24, 4, pagesIn s x .dropped), (28, 4, pagesIn s x .exported)] })

/-- What the stream commands do (R258, R259, R261 to R263, R272, R273) -/
def Obligations.StreamCommands : Prop :=
  (∀ (m : BoxId) (s : State), Takes s m.val 0x0401 →
    let e := headEntry s m.val
    let x := eContext e
    let id := eField e 16 24
    let cg := eField e 20 5
    let rows := eField e 21 4
    let home := eField e 24 64
    firstOpen ≤ id → id < strCount s → eState (strGet s id) = 0 → cgOk cg = true → rowsOk cg rows = true →
    homeOk s x home (imageLen cg rows) = true → strBase s + 32 * strCount s ≤ stackedTop →
    (home + imageLen cg rows ≤ strBase s ∨ strBase s + 32 * strCount s ≤ home) →
    ∃ t, exec (.streamOpen m) s = .next t ∧ Answers s t m.val { status := 0 } ∧ SameDevice s t ∧ t.cores = s.cores ∧
      strGet t id = mkStr 1 x cg rows (eField e 22 6) 0 home 0 ∧
      t.rd home (imageLen cg rows) = zeroImage id cg rows (eField e 22 6) ∧ t.strFresh.get id = true ∧
      (∀ j, j < strCount s → j ≠ id → strGet t j = strGet s j) ∧ t.roll = s.roll ∧ t.quires = s.quires) ∧
  (∀ (m : BoxId) (s : State), Takes s m.val 0x0402 →
    let e := headEntry s m.val
    let x := eContext e
    let n := eField e 16 16
    let ids := if n = 1 then [eField e 20 24] else (List.range n).map fun i => s.rdN (eField e 24 64 + 4 * i) 4 % 2 ^ 24
    1 ≤ n → n ≤ 256 → (n ≠ 1 → Reads s x (eField e 24 64) (4 * n) 1) → ids.Nodup →
    strBase s + 32 * strCount s ≤ stackedTop →
    (∀ id, id ∈ ids → firstOpen ≤ id ∧ id < strCount s ∧ streamHeld s x id = true ∧ eQueued (strGet s id) = 0) →
    ∃ t, exec (.streamClose m) s = .next t ∧ Answers s t m.val { status := 0, result := [(16, 32, 2 ^ n - 1)] } ∧
      (∀ id, id ∈ ids → strGet t id = 0 ∧ t.strFresh.get id = false ∧ ∀ c, c ∈ t.claims → c.stream ≠ id) ∧
      (∀ j, j < strCount s → j ∉ ids → strGet t j = strGet s j) ∧ SameDevice s t ∧ t.roll = s.roll ∧
      t.quires = s.quires) ∧
  (∀ (m : BoxId) (s : State), Takes s m.val 0x0403 →
    let e := headEntry s m.val
    let x := eContext e
    let n := eField e 16 16
    let ids := if n = 1 then [eField e 20 24] else (List.range n).map fun i => s.rdN (eField e 24 64 + 4 * i) 4 % 2 ^ 24
    1 ≤ n → n ≤ 256 → (n ≠ 1 → Reads s x (eField e 24 64) (4 * n) 1) → strBase s + 32 * strCount s ≤ stackedTop →
    (∀ c, c ∈ s.arm.boxes.cells → c.2.inProg = []) →
    (∀ id, id ∈ ids → firstOpen ≤ id ∧ id < strCount s ∧ streamHeld s x id = true ∧ eState (strGet s id) = 3 ∧
      eDirty (strGet s id) = false ∧ eQueued (strGet s id) = 0 ∧ chunkRunning s id = false) →
    ∃ t, exec (.streamSwapOut m) s = .next t ∧ Answers s t m.val { status := 0, result := [(16, 32, 2 ^ n - 1)] } ∧
      (∀ id, id ∈ ids → eState (strGet t id) = 1 ∧ eHome (strGet t id) = eHome (strGet s id)) ∧
      (∀ j, j < strCount s → j ∉ ids → strGet t j = strGet s j) ∧ SameDevice s t ∧ t.roll = s.roll) ∧
  (∀ (m : BoxId) (s : State), Takes s m.val 0x0404 →
    let e := headEntry s m.val
    let x := eContext e
    let id := eField e 20 24
    let len := imageLen (eCg (strGet s id)) (eRows (strGet s id))
    eField e 16 16 = 1 → firstOpen ≤ id → id < strCount s → streamHeld s x id = true → eState (strGet s id) = 3 →
    eDirty (strGet s id) = true → strBase s + 32 * strCount s ≤ stackedTop → eHome (strGet s id) + len ≤ stackedTop →
    (eHome (strGet s id) + len ≤ strBase s ∨ strBase s + 32 * strCount s ≤ eHome (strGet s id)) →
    (∀ c, c ∈ s.arm.boxes.cells → c.2.inProg = []) →
    ∃ t, exec (.streamFlush m) s = .next t ∧ Answers s t m.val { status := 0, result := [(16, 32, 1)] } ∧
      eState (strGet t id) = 3 ∧ eDirty (strGet t id) = false ∧
      t.rd (eHome (strGet s id)) len = s.rd (slotAddr (eCore (strGet s id)) (eSlot (strGet s id))) len ∧
      (∀ j, j < strCount s → j ≠ id → strGet t j = strGet s j) ∧ SameDevice s t ∧ t.cores = s.cores ∧ t.roll = s.roll) ∧
  (∀ (m : BoxId) (s : State), Takes s m.val 0x0405 →
    let e := headEntry s m.val
    let x := eContext e
    let id := eField e 16 24
    let dest := eField e 24 64
    let len := imageLen (eCg (strGet s id)) (eRows (strGet s id))
    firstOpen ≤ id → id < strCount s → streamHeld s x id = true →
    (eState (strGet s id) = 1 ∨ eState (strGet s id) = 3) → eQueued (strGet s id) = 0 →
    areaWritable s x dest len 1 = true → dest + len ≤ stackedTop → bit (lineN e 20 1) 0 = false →
    ∃ t, exec (.streamExport m) s = .next t ∧ Answers s t m.val { status := 0, result := [(48, 2, len)] } ∧
      t.rd dest len = (exportImage s id).1 ∧
      (∀ a, a < csBase → (a < dest ∨ dest + len ≤ a) → t.mem.get a = s.mem.get a) ∧ SameDevice s t ∧ t.cores = s.cores ∧
      t.roll = s.roll ∧ t.strFresh = s.strFresh) ∧
  (∀ (m : BoxId) (s : State), Takes s m.val 0x0406 →
    let e := headEntry s m.val
    let x := eContext e
    let id := eField e 16 24
    let src := eField e 24 64
    let home := eField e 32 64
    let h := s.rdN src 64
    let len := imageLen (bField h 4 5) (bField h 5 4)
    firstOpen ≤ id → id < strCount s → eState (strGet s id) = 0 → Reads s x src 64 1 → headOk h = true →
    homeOk s x home len = true → Reads s x src len 1 → strBase s + 32 * strCount s ≤ stackedTop →
    (home + len ≤ strBase s ∨ strBase s + 32 * strCount s ≤ home) →
    ∃ t, exec (.streamImport m) s = .next t ∧ Answers s t m.val { status := 0 } ∧
      strGet t id = mkStr 1 x (bField h 4 5) (bField h 5 4) (bField h 7 6) (bField h 6 6) home (bField h 8 64) ∧
      t.rd (home + 64) (len - 64) = s.rd (src + 64) (len - 64) ∧ t.strFresh.get id = true ∧
      (∀ j, j < strCount s → j ≠ id → strGet t j = strGet s j) ∧ SameDevice s t ∧ t.cores = s.cores ∧ t.roll = s.roll)

/-- What the scheduling commands do (R489 to R491, R495, R499) -/
def Obligations.SchedulingCommands : Prop :=
  (∀ s : State, Takes s 0 0x0601 →
    let e := headEntry s 0
    let p := eField e 16 7
    let n := eField e 18 9
    let a := eField e 24 64
    let vs := (List.range n).map fun i => s.rdN (a + 8 * i) 8
    let tab := vs.map fun v => (BitVec.ofNat 32 v, BitVec.ofNat 12 (fld v 32 12))
    (s.part p).st = .ready → 1 ≤ n → n ≤ 256 → Reads s 0 a (8 * n) 1 → vs.all (slotOk s p) = true →
    ∃ t, exec (.cycleTableSet 0) s = .next t ∧ Answers s t 0 { status := 0 } ∧
      ((s.part p).table = [] → (t.part p).table = tab ∧ (t.part p).tableNext = [] ∧ (t.part p).slot = 0 ∧
        (t.part p).slotAt = (s.part p).cycle) ∧
      ((s.part p).table ≠ [] → (t.part p).table = (s.part p).table ∧ (t.part p).tableNext = tab ∧ t.cores = s.cores) ∧
      t.nv = s.nv ∧ t.vat = s.vat ∧ t.roll = s.roll ∧ SameBelow s t) ∧
  (∀ s : State, Takes s 0 0x0602 →
    let p := eField (headEntry s 0) 16 7
    (s.part p).st ≠ .free →
    ∃ t, exec (.cycleTableClear 0) s = .next t ∧ Answers s t 0 { status := 0 } ∧
      t.part p = { s.part p with table := [], tableNext := [], slot := 0 } ∧ (∀ k, k ≠ p → t.part k = s.part k) ∧
      SameDevice s t ∧ t.cores = s.cores ∧ t.vat = s.vat ∧ t.roll = s.roll ∧ SameBelow s t) ∧
  (∀ (s : State) (k : Nat), Takes s 0 0x0701 →
    let p := eField (headEntry s 0) 16 7
    let x := eContext (headEntry s 0)
    ((s.part p).works.get k).st = .running → ((s.part p).works.get k).ctx = x →
    ∃ t, exec (.preempt 0) s = .next t ∧ ((t.part p).works.get k).st = .preempting ∧ ((t.part p).works.get k).held = true ∧
      (∀ c, c ∈ coresOf ((s.part p).works.get k).quires → (t.core c).preempt = true) ∧
      SameDevice s t ∧ t.vat = s.vat ∧ t.roll = s.roll ∧ SameBelow s t) ∧
  (∀ (s : State) (k : Nat), Takes s 0 0x0702 →
    let p := eField (headEntry s 0) 16 7
    let x := eContext (headEntry s 0)
    (k, (s.part p).works.get k) ∈ (s.part p).works.cells → ((s.part p).works.get k).ctx = x →
    ((s.part p).works.get k).held = true →
    ∃ t, exec (.resume 0) s = .next t ∧ Answers s t 0 { status := 0 } ∧
      (t.part p).works.get k = { (s.part p).works.get k with held := false } ∧ SameDevice s t ∧ t.cores = s.cores ∧
      t.vat = s.vat ∧ t.roll = s.roll ∧ SameBelow s t) ∧
  (∀ s : State, Takes s 0 0x0801 →
    let p := eField (headEntry s 0) 16 7
    ∃ t, exec (.partitionReset 0) s = .next t ∧
      ((s.part p).st = .ready → (t.part p).st = .resetting ∧ (t.part p).resetters = [(0, (s.box 0).nextSn)] ∧
        (t.part p).tearing = workingOn s p ∧ t.pkg.portClosed = s.pkg.portClosed ||| (s.part p).quires) ∧
      ((s.part p).st = .resetting → (t.part p).resetters = (s.part p).resetters ++ [(0, (s.box 0).nextSn)] ∧
        t.cores = s.cores ∧ t.vat = s.vat ∧ t.roll = s.roll) ∧ t.nv = s.nv)

/-- What the security commands do (R469, R505, R511 to R516, R519); a fault code that the spec does not give is a free value -/
def Obligations.SecurityCommands : Prop :=
  (∀ (m : BoxId) (s : State), Takes s m.val 0x0A01 → s.wmk.entropy = .healthy →
    ∃ t, exec (.attestReport m) s = .next t ∧ SameDevice s t ∧ SameWork s t ∧ SameBelow s t ∧
      Answers s t m.val { status := 0, result := [(48, 4, 3572)] } ∧ t.rnat Reg.wmkReports = (s.rnat Reg.wmkReports + 1) % 2 ^ 32 ∧
      t.rd (csAddr (attOff m.val)) 1152 = reportBody (s.radd Reg.wmkReports 1) (headEntry s m.val)) ∧
  (∀ (m : BoxId) (s : State), Takes s m.val 0x0A01 → s.wmk.entropy = .restarting →
    ∃ t, exec (.attestReport m) s = .next t ∧ t.arm.reports = s.arm.reports ++ [(m.val, (s.box m.val).nextSn)] ∧
      SameDevice s t ∧ SameWork s t ∧ SameBelow s t) ∧
  (∀ (m : BoxId) (s : State), Takes s m.val 0x0A01 → s.wmk.entropy = .failed →
    ∃ t d, exec (.attestReport m) s = .next t ∧ Answers s t m.val { status := 8, detail := d } ∧
      SameDevice s t ∧ SameWork s t ∧ SameBelow s t) ∧
  (∀ (m : BoxId) (s : State), Takes s m.val 0x0A02 →
    let i := eField (headEntry s m.val) 16 2
    let bs := (if i = 3 then Config.identityKey else Config.certAt (flashBytes s 0x1140000 0x10000) i).take 0x10000
    (i ≠ 0 ∨ s.wmk.certBad = false) →
    ∃ t, exec (.certRead m) s = .next t ∧ Answers s t m.val { status := 0, result := [(48, 4, bs.length)] } ∧
      t.rd (csAddr (attOff m.val)) bs.length = bs ∧ SameDevice s t ∧ SameWork s t ∧ SameBelow s t) ∧
  (∀ s : State, Takes s 0 0x0B01 →
    let n := eField (headEntry s 0) 16 23
    let a := eField (headEntry s 0) 24 64
    let off := 0x10000 + (1 - s.wmk.fwBank.toNat) * 0x800000
    n ≠ 0 → Reads s 0 a n 1 →
    ∃ t, exec (.fwStage 0) s = .next t ∧ t.wmk.stagedOk = fwVerifies s (s.rd a n) ∧
      (∀ i, i < n → t.nv.flash.get (off + i) = s.mem.get (a + i)) ∧
      (∀ i, (i < off ∨ off + n ≤ i) → t.nv.flash.get i = s.nv.flash.get i) ∧ t.nv.svnMin = s.nv.svnMin ∧
      t.nv.fwRevoked = s.nv.fwRevoked ∧ t.nv.ownerRevoked = s.nv.ownerRevoked ∧ t.mod = s.mod ∧ t.pkg = s.pkg ∧
      SameWork s t ∧ SameBelow s t) ∧
  (∀ s : State, Takes s 0 0x0B02 →
    let e := headEntry s 0
    eExpert e = true → bit (lineN e 16 1) 0 = false → eField e 17 4 = 0 →
    ∃ t, exec (.fwCommit 0) s = .next t ∧ Answers s t 0 { status := 0 } ∧
      t.nv.svnMin = (if bit (lineN e 16 1) 1 = true ∧ s.nv.svnMin < s.wmk.fwSvn then s.wmk.fwSvn else s.nv.svnMin) ∧
      t.nv.fwRevoked = (if bit (lineN e 16 1) 2 = true then
        BitVec.ofNat 2 (setFld s.nv.fwRevoked.toNat (1 - s.wmk.fwSlot.toNat) 1 1) else s.nv.fwRevoked) ∧
      t.nv.flash = s.nv.flash ∧ t.nv.ownerRevoked = s.nv.ownerRevoked ∧ t.wmk = s.wmk ∧ t.mod = s.mod ∧
      SameWork s t ∧ SameBelow s t) ∧
  (∀ s : State, Takes s 0 0x0B03 →
    let e := headEntry s 0
    let n := eField e 20 20
    let img := s.rd (eField e 24 64) n
    let ok := if bit (lineN e 16 1) 0 then overlayOk s img && cfgMode img == eField e 17 4 else (baseOk s img).isSome
    n ≠ 0 → Reads s 0 (eField e 24 64) n 1 →
    ∃ t, exec (.configStage 0) s = .next t ∧ SameWork s t ∧ SameBelow s t ∧ t.mod = s.mod ∧
      t.nv.svnMin = s.nv.svnMin ∧ t.nv.fwRevoked = s.nv.fwRevoked ∧ t.nv.ownerRevoked = s.nv.ownerRevoked ∧
      Answers s t 0 (if ok then { status := 0 } else { status := 4, detail := 24 }) ∧
      (if ok then t.nv.flash = memWrite s.nv.flash
          (if bit (lineN e 16 1) 0 then 0x1110000 + eField e 17 4 * 0x2000 else 0x1090000)
          (img.take (cfgLength img + sigLen))
       else t.nv = s.nv ∧ t.wmk = s.wmk ∧ t.rbit Reg.wmkStatus 5 = true ∧ t.rbit Reg.plnArmStatus 3 = true)) ∧
  (∀ s : State, Takes s 0 0x0003 →
    let mode := eField (headEntry s 0) 16 4
    let rest := s.wmk.overlays.filter (·.mode.toNat != mode)
    let offs := ((s.wmk.overlays.filter (·.mode.toNat == mode)).flatMap (·.entries)).map (·.1)
    entriesIdle s (revertEntries s s.wmk.overlays rest offs) = true →
    ∃ t, exec (.overlayWithdraw 0) s = .next t ∧ Answers s t 0 { status := 0 } ∧ t.wmk.overlays = rest ∧
      t.wmk.mr.get 4 = sha3 (digestBytes (s.wmk.mr.get 4) ++
        digestBytes (sha3 (leBytes 1 2 ++ leBytes 1 mode ++ digestBytes 0))) ∧ t.nv = s.nv ∧ t.pkg = s.pkg) ∧
  (∀ s : State, Takes s 0 0x0002 →
    let e := headEntry s 0
    let mode := eField e 16 4
    let img := (List.range 0x2000).map fun i => s.wmk.ovlCopy.get (mode * 0x2000 + i)
    let new : Overlay := { mode := BitVec.ofNat 4 mode, digest := cfgDigest img, entries := cfgStored img }
    bit (lineN e 17 1) 0 = false →
    ∃ t, exec (.overlayApply 0) s = .next t ∧ t.nv = s.nv ∧
      (if overlayOk s img = false then
        Answers s t 0 { status := 4, detail := 17 } ∧ t.wmk = s.wmk ∧ t.rbit Reg.wmkStatus 5 = true ∧ SameWork s t ∧
          SameBelow s t
       else if cfgMode img ≠ mode then
        Answers s t 0 { status := 4, detail := 16 } ∧ t.wmk = s.wmk ∧ SameWork s t ∧ SameBelow s t
       else t.wmk.overlays = s.wmk.overlays ∨
         t.wmk.overlays = s.wmk.overlays.filter (·.mode.toNat != mode) ++ [new]))

/-- What the entropy source and the link keys do (R519, R521, R522, R554) -/
def Obligations.EntropyAndKeys : Prop :=
  (∀ s : State, s.wmk.entropy = .healthy → ∃ t, exec .entropyHealthFail s = .next t ∧ t.wmk.entropy = .restarting ∧
      t.rbit Reg.wmkStatus 2 = true ∧ t.rfld Reg.wmkEntropy 0 2 = 2 ∧
      t.rfld Reg.wmkEntropy 16 16 = (s.rfld Reg.wmkEntropy 16 16 + 1) % 2 ^ 16 ∧ SameMemory s t ∧ SameWork s t ∧ t.nv = s.nv ∧
      t.arm = s.arm) ∧
  (∀ s : State, s.wmk.entropy = .restarting → ∃ t, exec .entropyFail s = .next t ∧ t.wmk.entropy = .failed ∧
      t.arm.creates = [] ∧ t.arm.reports = [] ∧ t.rbit Reg.wmkStatus 1 = true ∧ t.rbit Reg.plnAlertCause 4 = true ∧
      t.rbit Reg.plnReady 3 = false ∧ SameWork s t ∧ t.nv = s.nv ∧ SameBelow s t) ∧
  (∀ s : State, s.wmk.entropy ≠ .healthy → ∃ t, exec .entropyRecovered s = .next t ∧ t.wmk.entropy = .healthy ∧
      t.arm.creates = [] ∧ t.arm.reports = [] ∧ t.rbit Reg.plnAlertCause 4 = false ∧ t.rfld Reg.wmkEntropy 0 2 = 1 ∧
      t.nv = s.nv ∧ t.cores = s.cores ∧ t.vat = s.vat ∧ t.roll = s.roll ∧
      (∀ w, w ∈ s.arm.creates → (t.ctx w.ctx).st = .active)) ∧
  (∀ (s : State) (n : ChainId), keyRunning (s.link n.val) = true → exec (.linkKeyTimeout n) s =
      .next ((s.modLink n.val fun L => { L with key := .failed }).ror Reg.wmkStatus 0x10)) ∧
  (∀ (s : State) (n : ChainId), (s.link n.val).st = .held → (s.link n.val).key = .failed → (s.link n.val).enc = true →
    (s.link n.val).encDiffers = false →
    ∃ t, exec (.keyExchangeRetry n) s = .next t ∧ (t.link n.val).key = .certWait ∧ SameMemory s t ∧ SameWork s t ∧
      t.nv = s.nv ∧ t.wmk = s.wmk) ∧
  (∀ (s : State) (n : ChainId) (msg : List Byte), msg.length ≤ 8192 → (s.link n.val).st = .held →
    (s.link n.val).key = .certWait →
    ∃ t, exec (.cert n msg) s = .next t ∧ SameMemory s t ∧ SameWork s t ∧ t.nv = s.nv ∧
      match Config.certKey msg Config.rootDigest with
      | none => (t.link n.val).key = .failed ∧ t.rbit Reg.wmkStatus 4 = true
      | some pk => (t.link n.val).peerKey = pk ∧
          (t.link n.val).key = if myDev s < (s.link n.val).peerDev.toNat then .respWait else .initWait) ∧
  (∀ (s : State) (n : ChainId) (msg : List Byte), msg.length ≤ 8192 → (s.link n.val).st = .held →
    (s.link n.val).key = .initWait →
    ∃ t, exec (.keyInit n msg) s = .next t ∧ SameMemory s t ∧ SameWork s t ∧ t.nv = s.nv ∧
      (if msg.length = 1184 + 32 + sigLen ∧ Config.verify (s.link n.val).peerKey (ascii "FLB-LNK") (msg.take 1216) (msg.drop 1216) = true then
        (t.link n.val).key = .done ∧ t.rnat Reg.wmkLinkKeys = (s.rnat Reg.wmkLinkKeys + 1) % 2 ^ 32
       else (t.link n.val).key = .failed ∧ t.rbit Reg.wmkStatus 4 = true)) ∧
  (∀ (s : State) (n : ChainId) (msg : List Byte), msg.length ≤ 8192 → (s.link n.val).st = .held →
    (s.link n.val).key = .respWait →
    ∃ t, exec (.keyResp n msg) s = .next t ∧ SameMemory s t ∧ SameWork s t ∧ t.nv = s.nv ∧
      (if msg.length = 1088 + 32 + sigLen ∧ Config.verify (s.link n.val).peerKey (ascii "FLB-LNK")
          (digestBytes (sha3 ((s.link n.val).transcript ++ msg.take 1120))) (msg.drop 1120) = true then
        (t.link n.val).key = .done ∧ t.rnat Reg.wmkLinkKeys = (s.rnat Reg.wmkLinkKeys + 1) % 2 ^ 32
       else (t.link n.val).key = .failed ∧ t.rbit Reg.wmkStatus 4 = true)) ∧
  (∀ s : State, ∃ t, exec .refclkSerdesLost s = .next t ∧ t.rbit Reg.clkStatus 0 = true ∧ t.rbit Reg.plnAlertCause 2 = true ∧
      (∀ n, n < 33 → (s.link n).isUp = true → (t.link n).st = .retrain) ∧
      (∀ n, (s.link n).isUp = false → t.link n = s.link n) ∧ t.nv = s.nv ∧ SameWork s t ∧ SameBelow s t)

/-- What the companion's writes and their consequences do (R10 to R13, R437, R438, R456, R477, R482, R497) -/
def Obligations.HostAccess : Prop :=
  (∀ (m : BoxId) (v : Word32) (s : State), ctlServes s doorbellBase = true →
    s.couch.dir.get ((0x102000 + 0x10000 * m.val) / 64) = 0 →
    (s.box m.val).covered.toNat < (v.toNat % 64 + 64 - (s.box m.val).cmdRead.toNat) % 64 →
    (s.rbit Reg.plnReady 0 = false ∨ (headReadable s m.val = true ∧ (payload (headOp s m.val) false).isSome = true)) →
    exec (.dblCmd m v) s = .next (s.modBox m.val fun b =>
      { b with covered := BitVec.ofNat 6 ((v.toNat % 64 + 64 - (s.box m.val).cmdRead.toNat) % 64) })) ∧
  (∀ (m : BoxId) (v : Word32) (s : State), ctlServes s doorbellBase = true →
    (v.toNat % 64 + 64 - (s.box m.val).cmdRead.toNat) % 64 < (s.box m.val).covered.toNat →
    ∃ t, exec (.dblCmd m v) s = .next t ∧ t.rbit Reg.cchStatus 6 = true ∧ t.arm = s.arm ∧ SameDevice s t ∧
      SameWork s t ∧ SameMemory s t) ∧
  (∀ (m : BoxId) (v : Word32) (s : State), ctlServes s doorbellBase = true → (s.box m.val).outbox = [] →
    (s.box m.val).covered = 0 →
    ∃ t, exec (.dblRspRead m v) s = .next t ∧ t.box m.val = { s.box m.val with
        rspRead := BitVec.ofNat 6 (v.toNat % 64), notifyPending := false } ∧ SameDevice s t ∧ SameWork s t ∧
      SameMemory s t) ∧
  (∀ (off : BitVec 26) (v : Word32) (r : RegRow) (s : State), s.mod.inReset = false → ctlServes s off.toNat = true →
    off.toNat % 4 = 0 → off.toNat < 0x100000 → off.toNat ≠ Reg.plnBootCtrl → regRow off.toNat = some r → r.acc = .w1c →
    exec (.registerWrite off v) s = .next (s.rset off.toNat (s.rget off.toNat &&& ~~~(BitVec.ofNat 32 (v.toNat &&& r.mask))))) ∧
  (∀ (off : BitVec 26) (v : Word32) (r : RegRow) (s : State), s.mod.inReset = false → ctlServes s off.toNat = true →
    off.toNat % 4 = 0 → off.toNat < 0x100000 → off.toNat ≠ Reg.plnBootCtrl → regRow off.toNat = some r → r.acc = .ro →
    exec (.registerWrite off v) s = .next s) ∧
  (∀ (v : Word32) (s : State), s.mod.inReset = false → bootPhase s ≠ 8 → s.rbit Reg.plnReady 1 = true →
    ∃ t, exec (.registerWrite (BitVec.ofNat 26 Reg.thmPwrLimit) v) s = .next t ∧ SameDevice s t ∧ SameWork s t ∧
      SameMemory s t ∧ t.rnat Reg.thmPwrLimit = max 1500 (min 3600 (v.toNat % 65536))) ∧
  (∀ (m : BoxId) (s : State) (l : Line) (r : List Line), (s.box m.val).notices = l :: r →
    (s.box m.val).roomForNotice = true → (s.box m.val).outbox = [] →
    s.couch.dir.get (rspOff m.val (s.box m.val).rspWrite.toNat / 64) = 0 →
    ∃ t, exec (.noticePost m) s = .next t ∧ (t.box m.val).notices = r ∧ (t.box m.val).rspWrite = (s.box m.val).rspWrite + 1 ∧
      t.rd (csAddr (rspOff m.val (s.box m.val).rspWrite.toNat)) 64 = lineBytes l ∧
      t.rnat Reg.plnNotices = (s.rnat Reg.plnNotices + 1) % 2 ^ 32 ∧ SameDevice s t ∧ SameWork s t ∧ SameBelow s t) ∧
  (∀ (a : BitVec 64) (s : State), s.rbit Reg.plnReady 1 = true →
    (match region a.toNat with
      | .stacked _ => anyGone s a.toNat 64 = false ∧ mayReach s (fld (s.rdN a.toNat 48) 16 12) a.toNat 64 true true = true
      | .companion o => o + 64 ≤ compLimit s
      | _ => False) → a.toNat % 64 = 0 → a.toNat < 2 ^ 48 → areaPoisoned s a.toNat 48 = false →
    launchStatus s (s.rdN a.toNat 48) = none →
    ∃ t w, exec (.taskLaunch a) s = .next t ∧
      (t.part (fld (s.rdN a.toNat 48) 0 7)).waiting = (s.part (fld (s.rdN a.toNat 48) 0 7)).waiting ++ [w] ∧
      w.kind = .launch ∧ w.ctx = fld (s.rdN a.toNat 48) 16 12 ∧ w.want = fld (s.rdN a.toNat 48) 32 7 + 1 ∧
      w.block = a.toNat ∧ w.args = leBytes 32 (fld (s.rdN a.toNat 48) 128 256) ∧ SameDevice s t ∧ SameMemory s t ∧
      t.cores = s.cores ∧ t.vat = s.vat ∧ t.roll = s.roll) ∧
  (∀ (a : BitVec 64) (s : State), s.rbit Reg.plnReady 1 = true → (a.toNat % 64 ≠ 0 ∨ 2 ^ 48 ≤ a.toNat) →
    exec (.taskLaunch a) s = .next (s.ror Reg.plnSchedStatus 0x41)) ∧
  (∀ (x : CtxId) (s : State), (s.ctx x.val).st = .tearing → streamsWriting s x.val = false → (s.ctx x.val).recorded = none →
    (∀ c, c ∈ s.vat.map.cells → c.2.owner.toNat ≠ x.val) → x.val ≠ 0 →
    ∃ t, exec (.teardownComplete x) s = .next t ∧
      (t.ctx x.val).st = (if (s.ctx x.val).byFault = false ∨ (s.ctx x.val).destroyers ≠ [] then .free else .faulted) ∧
      (t.ctx x.val).grants = [] ∧ (t.ctx x.val).keyLive = false ∧ (t.ctx x.val).reserve = 0 ∧
      (∀ f, (t.frec f).keyCtx.toNat ≠ x.val) ∧ t.nv = s.nv ∧ t.cores = s.cores ∧ t.quires = s.quires)

/-- What COPY, ADD, SUB, MUL, DIV, MAX, MIN, FMA, ABS, RELU, GELU, SILU, SIGMOID, TANH, EXP, LOG, SQRT, RSQRT, RECIP and CLAMP do (R202 to R208) -/
def Obligations.VectorElements : Prop :=
  ∀ (p : Nat × (CoreId → WalkerId → Upset → Instr)) (c : CoreId) (w : WalkerId) (e : Upset) (s : State) (d : Nat),
    p ∈ vecElementwise → Ready s c.val w.val 2 p.1 d → VecPasses (upset s e) e c.val d →
    let u := upset s e
    let k := ctlFor u c.val (vArith d)
    ∃ t, exec (p.2 c w e) s = .next t ∧ Issued s t c.val w.val .vec d ∧ SameOutside u t c.val ∧ SameCore u t c.val ∧
      SameArrays u t c.val ∧ VecWrote u t c.val d (dstRow d) (runAr u c.val .vec (elementRows (spdByte u c.val) k d))

/-- What RSUM, RMAX, RMIN, RSUMSQ and RARGMAX do (R209, R210, R211) -/
def Obligations.VectorReductions : Prop :=
  (∀ (p : Nat × (CoreId → WalkerId → Upset → Instr)) (c : CoreId) (w : WalkerId) (e : Upset) (s : State) (d : Nat),
    p ∈ vecReductions → Ready s c.val w.val 2 p.1 d → VecPasses (upset s e) e c.val d →
    let u := upset s e
    let k := ctlFor u c.val (vArith d)
    let l := runAr u c.val .vec (redLines (spdByte u c.val) k d)
    let r := runAr l.2 c.val .vec (Ar.each (fun xs =>
      if vAxis d then Ar.fold (redTake p.1 k.ovf) (redUnit p.1) xs else reduceRow p.1 k.ovf (xs.map some)) l.1)
    ∃ t, exec (p.2 c w e) s = .next t ∧ Issued s t c.val w.val .vec d ∧ SameOutside u t c.val ∧ SameCore u t c.val ∧
      SameArrays u t c.val ∧
      VecWrote u t c.val d (dstRow d) (if vAxis d then [r.1] else r.1.map fun v => [v], r.2)) ∧
  (∀ (c : CoreId) (w : WalkerId) (e : Upset) (s : State) (d : Nat),
    Ready s c.val w.val 2 0x24 d → VecPasses (upset s e) e c.val d →
    let u := upset s e
    let l := runAr u c.val .vec (redLines (spdByte u c.val) (ctlFor u c.val (vArith d)) d)
    let v := l.1.map fun xs => (argMax xs).getD 0xFFFFFFFF
    ∃ t, exec (.rargmax c w e) s = .next t ∧ Issued s t c.val w.val .vec d ∧ SameOutside u t c.val ∧
      SameCore u t c.val ∧ SameArrays u t c.val ∧
      Wrote u t c.val (((List.range v.length).zip v).map fun i =>
        (if vAxis d then vDst d + 4 * i.1 else dstRow d i.1, leBytes 4 i.2)) ∧
      t.regs = (countOut l.2 c.val d v.length (v.filter (· == 0)).length).regs ∧ t.arm.ctxs = l.2.arm.ctxs)

/-- What SOFTMAX, LAYERNORM, RMSNORM and CONV do (R212, R213, R222, R223) -/
def Obligations.VectorRows : Prop :=
  (∀ (p : Nat × (CoreId → WalkerId → Upset → Instr)) (c : CoreId) (w : WalkerId) (e : Upset) (s : State) (d : Nat),
    p ∈ vecRowOps → Ready s c.val w.val 2 p.1 d → VecPasses (upset s e) e c.val d →
    let u := upset s e
    let k := ctlFor u c.val (vArith d)
    ∃ t, exec (p.2 c w e) s = .next t ∧ Issued s t c.val w.val .vec d ∧ SameOutside u t c.val ∧ SameCore u t c.val ∧
      SameArrays u t c.val ∧ VecWrote u t c.val d (dstRow d) (runAr u c.val .vec (rowOpRows (spdByte u c.val) k d))) ∧
  (∀ (c : CoreId) (w : WalkerId) (e : Upset) (s : State) (d : Nat),
    Ready s c.val w.val 2 0x30 d → VecPasses (upset s e) e c.val d →
    let u := upset s e
    let k := ctlFor u c.val (vArith d)
    ∃ t, exec (.conv c w e) s = .next t ∧ Issued s t c.val w.val .vec d ∧ SameOutside u t c.val ∧ SameCore u t c.val ∧
      SameArrays u t c.val ∧ VecWrote u t c.val d (outAt d) (runAr u c.val .vec (Ar.each (fun o =>
        Ar.each (convOne (spdByte u c.val) k d (o / vOw d) (o % vOw d)) (List.range (vCols d))) (List.range (vRows d)))))

/-- What SAMPLE does (R215 to R221) -/
def Obligations.Sampling : Prop :=
  ∀ (c : CoreId) (w : WalkerId) (e : Upset) (s : State) (d : Nat),
    Ready s c.val w.val 2 0x38 d → VecPasses (upset s e) e c.val d →
    let u := upset s e
    let k := ctlFor u c.val (vArith d)
    let rd := spdByte u c.val
    let n := vRows d * rowDraws d
    let g := (if vKeyed d then u else stepGen u c.val n).radd (Reg.vecDraws c.val) n
    let x := runAr g c.val .vec (Ar.each (readVecRow rd k d (opA k d)) (List.range (vRows d)))
    let q := if vMode d = 1 then ([], x.2) else runAr x.2 c.val .vec (rowTaus rd k d)
    let tau (r : Nat) : Val := q.1.getD r (ofInt 1)
    ∃ t, exec (.sample c w e) s = .next t ∧ Issued s t c.val w.val .vec d ∧ SameOutside u t c.val ∧ SameCore u t c.val ∧
      (t.core c.val).mma = (u.core c.val).mma ∧ (t.core c.val).stats = (u.core c.val).stats ∧
      (vKeyed d = true → (t.core c.val).genCtr = (u.core c.val).genCtr ∧
        (t.core c.val).genWord = (u.core c.val).genWord) ∧
      (vKeyed d = false →
        (4 * (t.core c.val).genCtr.toNat + (t.core c.val).genWord) % 2 ^ 130 =
          (4 * (u.core c.val).genCtr.toNat + (u.core c.val).genWord + n) % 2 ^ 130) ∧
      (vMode d = 2 → VecWrote g t c.val d (dstRow d) (runAr q.2 c.val .vec (Ar.each (fun r =>
        if badTau (tau r) then
          Ar.bind (Ar.flag (fInvalid + fSampleEmpty)) fun _ => Ar.pure (List.replicate (vCols d) (.inf true))
        else noiseRow k.ovf (tau r) (vTopk d) (x.1.getD r []) (drawOf u c.val d r)) (List.range (vRows d))))) ∧
      (vMode d ≠ 2 →
        let p := (runAr q.2 c.val .vec (Ar.each (fun r =>
          if vMode d = 1 then categoricalRow k.ovf (vTopk d) (x.1.getD r []) (drawOf u c.val d r 0)
          else if badTau (tau r) then Ar.bind (Ar.flag fInvalid) fun _ => emptyRow
          else gumbelRow k.ovf (tau r) (vTopk d) (x.1.getD r []) (drawOf u c.val d r)) (List.range (vRows d)))).1
        let lp := (runAr q.2 c.val .vec (Ar.each (fun (i : Pick) =>
          toFp fp32 false k.ovf k.flush ((i.map (·.2)).getD (.inf true))) p)).1
        Wrote g t c.val (((List.range p.length).zip p).map (fun r => (dstRow d r.1, leBytes 4 ((r.2.map (·.1)).getD 0xFFFFFFFF))) ++
          ((List.range lp.length).zip lp).map (fun r => (vDst2 d + r.1 * vStrDst d, leBytes 4 r.2)))) ∧
      t.rget (Reg.vecDraws c.val) = u.rget (Reg.vecDraws c.val) + BitVec.ofNat 32 n

/-- VEC descriptors that do nothing, and those that break a rule (R78, R86, R203, R207, R210, R223, R226) -/
def Obligations.VectorRefusals : Prop :=
  ∀ (p : Nat × (CoreId → WalkerId → Upset → Instr)) (c : CoreId) (w : WalkerId) (e : Upset) (s : State) (d : Nat),
    p ∈ vecAll → Ready s c.val w.val 2 p.1 d →
    let u := upset s e
    let k := ctlFor u c.val (vArith d)
    let bad := codesReserved (vArith d) ((vFormats d).map (·.1)) || decide (p.1 = 0x38 ∧ vMode d = 3)
    (vNoop d = true → ∃ t, exec (p.2 c w e) s = .next t ∧ Issued s t c.val w.val .vec d ∧ SameMemory u t ∧
      t.regs = u.regs ∧ t.arm = u.arm ∧ SameOutside u t c.val ∧ SameCore u t c.val ∧ SameArrays u t c.val ∧
      (t.core c.val).gather = (u.core c.val).gather) ∧
    (vNoop d = false → bad = true → exec (p.2 c w e) s = .next (coreFault s c.val 0x100 0)) ∧
    (vNoop d = false → bad = false → vFormatWrong d = true → exec (p.2 c w e) s = .next (coreFault s c.val 0x130 0)) ∧
    (vNoop d = false → bad = false → vFormatWrong d = false → vParamWrong u c.val k d = true →
      exec (p.2 c w e) s = .next (coreFault s c.val 0x131 0)) ∧
    (p.1 = 0x30 → vNoop d = false → bad = false → vFormatWrong d = false → vParamWrong u c.val k d = false →
      intoWeights u c.val d = true → exec (p.2 c w e) s = .next (coreFault s c.val 0x132 0))

/-- SLOT_DEF and SLOT_UNDEF (R145, R146, R198, R199) -/
def Obligations.SlotDescriptors : Prop :=
  ∀ (c : CoreId) (w : WalkerId) (s : State) (d : Nat),
    let k := ySlot d
    (Ready s c.val w.val 6 0 d → synHeader d = true → yBase d + yLines d ≤ 6144 → yLines d ≠ 0 → yReaders d ≠ 0 →
      ((s.core c.val).slots.get k).full = false → stalledOn s c.val w.val k = false →
      ∃ t, exec (.slotDef c w) s = .next t ∧ Synced s t c.val w.val ∧ SameMemory s t ∧ t.quires = s.quires ∧
        ((t.core c.val).slots.get k).base.toNat = yBase d ∧ ((t.core c.val).slots.get k).lines.toNat = yLines d ∧
        ((t.core c.val).slots.get k).readers.toNat = yReaders d ∧ ((t.core c.val).slots.get k).defined = true ∧
        ((t.core c.val).slots.get k).full = false ∧ ((t.core c.val).slots.get k).remain.toNat = yReaders d ∧
        (∀ j, j ≠ k → (t.core c.val).slots.get j = (s.core c.val).slots.get j)) ∧
    (Ready s c.val w.val 6 1 d → synHeader d = true → ((s.core c.val).slots.get k).full = false →
      stalledOn s c.val w.val k = false →
      ∃ t, exec (.slotUndef c w) s = .next t ∧ Synced s t c.val w.val ∧ SameMemory s t ∧ t.quires = s.quires ∧
        ((t.core c.val).slots.get k).defined = false ∧
        (∀ j, j ≠ k → (t.core c.val).slots.get j = (s.core c.val).slots.get j)) ∧
    (Ready s c.val w.val 6 0 d → synHeader d = true →
      (6144 < yBase d + yLines d ∨ yLines d = 0 ∨ yReaders d = 0 ∨ ((s.core c.val).slots.get k).full = true ∨
        stalledOn s c.val w.val k = true) →
      exec (.slotDef c w) s = .next (coreFault s c.val 0x123 0)) ∧
    (Ready s c.val w.val 6 1 d → synHeader d = true → ((s.core c.val).slots.get k).full = true →
      exec (.slotUndef c w) s = .next (coreFault s c.val 0x123 0)) ∧
    (Ready s c.val w.val 6 0 d → synHeader d = false → exec (.slotDef c w) s = .next (coreFault s c.val 0x107 0))

/-- The counters, WAIT_GE and FENCE (R180, R198, R199) -/
def Obligations.CounterDescriptors : Prop :=
  ∀ (c : CoreId) (w : WalkerId) (s : State) (d : Nat),
    let q := c.val / 32
    let k := yCounter d
    let old := (s.quire q).ctrs.get k
    (Ready s c.val w.val 6 2 d → synHeader d = true →
      ∃ t, exec (.ctrSet c w) s = .next t ∧ Synced s t c.val w.val ∧ SameCore s t c.val ∧ SameMemory s t ∧
        (t.quire q).ctrs.get k = { old with value := BitVec.ofNat 32 (yValue d), done := 0 } ∧
        (∀ j, j ≠ k → (t.quire q).ctrs.get j = (s.quire q).ctrs.get j) ∧ (∀ r, r ≠ q → t.quire r = s.quire r)) ∧
    (Ready s c.val w.val 6 3 d → synHeader d = true → yResult d % 4 = 0 → spdChk s c.val (yResult d) 4 = .ok →
      ∃ t, exec (.ctrFadd c w) s = .next t ∧ Synced s t c.val w.val ∧ SameCore s t c.val ∧
        ((t.quire q).ctrs.get k).value.toNat = min (old.value.toNat + yValue d) 0xFFFFFFFF ∧
        ((t.quire q).ctrs.get k).done = old.done ∧ ((t.quire q).ctrs.get k).epoch = old.epoch ∧
        Wrote s t c.val [(yResult d, leBytes 4 old.value.toNat)] ∧
        (∀ j, j ≠ k → (t.quire q).ctrs.get j = (s.quire q).ctrs.get j) ∧ (∀ r, r ≠ q → t.quire r = s.quire r)) ∧
    (Ready s c.val w.val 6 3 d → synHeader d = true → yResult d % 4 ≠ 0 →
      exec (.ctrFadd c w) s = .next (coreFault s c.val 0x107 0)) ∧
    (Ready s c.val w.val 6 4 d → synHeader d = true →
      ∃ t, exec (.waitGe c w) s = .next t ∧ Synced s t c.val w.val ∧ SameCore s t c.val ∧ SameMemory s t ∧ t.quires = s.quires ∧
        (yValue d ≤ (if yOnDone d then old.done else old.value).toNat → Freed s t c.val w.val) ∧
        ((if yOnDone d then old.done else old.value).toNat < yValue d →
          holdOf (t.core c.val) w.val = .waitGe k (yOnDone d) (yValue d))) ∧
    (Ready s c.val w.val 6 6 d → synHeader d = true → (s.core c.val).inflight = [] →
      ∃ t, exec (.fence c w) s = .next t ∧ Synced s t c.val w.val ∧ SameCore s t c.val ∧ SameMemory s t ∧ t.quires = s.quires) ∧
    (Ready s c.val w.val 6 6 d → synHeader d = true → (s.core c.val).inflight ≠ [] → exec (.fence c w) s = .next s) ∧
    (∀ (n v : Nat) (onDone : Bool), holdOf (s.core c.val) w.val = .waitGe n onDone v →
      let x := (s.quire q).ctrs.get n
      (v ≤ (if onDone then x.done else x.value).toNat → ∃ t, exec (.waitGeSatisfied c w) s = .next t ∧
        Freed s t c.val w.val ∧ SameMemory s t ∧ t.regs = s.regs ∧ SameOutside s t c.val ∧ SameCore s t c.val ∧
        SameArrays s t c.val) ∧
      ((if onDone then x.done else x.value).toNat < v → exec (.waitGeSatisfied c w) s = .next s))

/-- BARRIER and its release (R198, R199) -/
def Obligations.Barriers : Prop :=
  ∀ (c : CoreId) (w : WalkerId) (s : State),
    (∀ d, Ready s c.val w.val 6 5 d → synHeader d = true → yCores d ≠ 3 →
      ∃ t, exec (.barrier c w) s = .next t ∧ Synced s t c.val w.val ∧ SameCore s t c.val ∧ SameMemory s t ∧ t.quires = s.quires ∧
        holdOf (t.core c.val) w.val = .barrier (yScope d) (yCores d)) ∧
    (∀ d, Ready s c.val w.val 6 5 d → synHeader d = true → yCores d = 3 →
      exec (.barrier c w) s = .next (coreFault s c.val 0x107 0)) ∧
    (∀ (p : Bool) (k : Nat), holdOf (s.core c.val) w.val = .barrier p k →
      let who := barrierCores s c.val p k
      ((∀ x, x ∈ who → (barrierAt s x p).isSome = true) → ∃ t, exec (.barrierRelease c w) s = .next t ∧
        Freed s t c.val w.val ∧ SameMemory s t ∧ t.regs = s.regs ∧ t.arm = s.arm ∧ t.quires = s.quires ∧ SameDevice s t ∧
        (∀ x v, x ∈ who → x ≠ c.val → barrierAt s x p = some v → Freed s t x v) ∧
        (∀ x, x ∉ who → x ≠ c.val → t.core x = s.core x)) ∧
      ((∃ x, x ∈ who ∧ barrierAt s x p = none) → exec (.barrierRelease c w) s = .next s))

/-- Entering nests and tiles (R173, R174, R177, R178, R179, R185, R186) -/
def Obligations.NestEntries : Prop :=
  (∀ (c : CoreId) (s : State) (k : Nat),
    walking s c.val = true → (s.core c.val).walkers = [] → (s.core c.val).hold = .none →
    stopped (s.core c.val) 0 = false → ((s.core c.val).replay = [] ∨ (s.core c.val).preempt = true) →
    nestAt (coreImg s c.val) (s.core c.val).pos = some k →
    let im := coreImg s c.val
    let chain := chainFrom im 4 k
    let set := selectCores (workOf s c.val).quires (nCores (imNest im k))
    let counts := chain.map fun j => nestItems (imNest im j) (nestExtents s c.val (imNest im j))
    (c.val ∉ set → ∃ t, exec (.nestEntry c) s = .next t ∧ (t.core c.val).walkers = [] ∧
      (t.core c.val).pos = afterChain im chain ∧ SameMemory s t ∧ t.regs = s.regs ∧ SameOutside s t c.val) ∧
    (c.val ∈ set → nestNoop (imNest im k) (nestExtents s c.val (imNest im k)) = true →
      ∃ t, exec (.nestEntry c) s = .next t ∧ (t.core c.val).walkers = [] ∧
        (t.core c.val).pos = afterChain im chain ∧ SameMemory s t ∧ t.regs = s.regs) ∧
    (c.val ∈ set → nestNoop (imNest im k) (nestExtents s c.val (imNest im k)) = false →
      (∃ n, n ∈ counts ∧ n ≠ counts.getD 0 0) →
      exec (.nestEntry c) s = .next (coreFault s c.val 0x108 0)) ∧
    (∀ rank, firstIdx (· == c.val) set = some rank →
      nestNoop (imNest im k) (nestExtents s c.val (imNest im k)) = false → (∀ n, n ∈ counts → n = counts.getD 0 0) →
      (∃ j, j ∈ chain ∧ (nSplit (imNest im j) = 2 ∨
        takenItems im j (nestExtents s c.val (imNest im j))
          (firstItems im (imNest im j) (nestItems (imNest im j) (nestExtents s c.val (imNest im j))) rank set.length) ≠ [])) →
      ∃ t, exec (.nestEntry c) s = .next t ∧ SameMemory s t ∧ t.regs = s.regs ∧ (t.core c.val).nest = k ∧
        (t.core c.val).pos = (s.core c.val).pos ∧ (t.core c.val).walkers.map (·.nest) = chain ∧
        (t.core c.val).walkers.map (·.ext) = chain.map (fun j => nestExtents s c.val (imNest im j)) ∧
        (t.core c.val).walkers.map (·.items) = chain.map (fun j => takenItems im j (nestExtents s c.val (imNest im j))
          (firstItems im (imNest im j) (nestItems (imNest im j) (nestExtents s c.val (imNest im j))) rank set.length)) ∧
        (t.core c.val).walkers.map (·.drained) = chain.map (fun j => nSplit (imNest im j) != 2) ∧
        (∀ x, x ≠ c.val → t.core x = s.core x))) ∧
  (∀ (c : CoreId) (w : WalkerId) (s : State) (W : Walker) (lvl : Nat) (tl : Tile) (rest : List Visit),
    (s.core c.val).walkers[w.val]? = some W → walking s c.val = true → W.issue = [] → W.hold = .none →
    stopped (s.core c.val) w.val = false →
    let im := coreImg s c.val
    let V := nextItem im W
    V.stack = .enter lvl tl :: rest →
    (beyondPlan (imNest im V.nest) tl = true → exec (.tileEntry c w) s = .next (coreFault s c.val 0x102 0)) ∧
    (beyondPlan (imNest im V.nest) tl = false →
      ∃ t, exec (.tileEntry c w) s = .next t ∧ SameMemory s t ∧ SameOutside s t c.val ∧
        t.rget (Reg.dckTiles c.val) = s.rget (Reg.dckTiles c.val) + (if lvl = 1 then 1 else 0) ∧
        (∀ r, r ≠ Reg.dckTiles c.val → t.rget r = s.rget r) ∧
        ((enterTile im V lvl tl rest).issue ≠ [] →
          (t.core c.val).walkers[w.val]? = some (enterTile im V lvl tl rest))))

/-- Drawing items and their done notices (R179 to R183); the layer prefetcher (r190 to r193) -/
def Obligations.DrawnItems : Prop :=
  (∀ (c : CoreId) (s : State) (W : Walker) (l : List Walker),
    (s.core c.val).walkers = W :: l → walking s c.val = true → nSplit (imNest (coreImg s c.val) W.nest) = 2 →
    mayDraw s c.val W = true → stopped (s.core c.val) 0 = false →
    (∀ V, V ∈ (s.core c.val).walkers → V.items.length + (if V.item.isSome then 1 else 0) ≤ 1) →
    let r := imNest (coreImg s c.val) W.nest
    let q := c.val / 32
    let qs := workQuires s c.val
    let rank := (firstIdx (· == q) qs).getD 0
    let base := rank * nestItems r W.ext / qs.length
    let mine := (rank + 1) * nestItems r W.ext / qs.length - base
    let x := (s.quire q).ctrs.get (nCtr r)
    ∃ t, exec (.itemDraw c 0) s = .next t ∧ SameMemory s t ∧ t.regs = s.regs ∧ t.arm = s.arm ∧ SameDevice s t ∧
      (∀ y, y ≠ c.val → t.core y = s.core y) ∧
      (t.quire q).ctrs.get (nCtr r) = { x with value := BitVec.ofNat 32 (min (x.value.toNat + 1) 0xFFFFFFFF) } ∧
      (x.value.toNat < mine →
        (t.core c.val).walkers.map (·.items) = 
          (s.core c.val).walkers.map (fun V =>
            V.items ++ takenItems (coreImg s c.val) V.nest V.ext [base + x.value.toNat]) ∧
        (∀ V, V ∈ (t.core c.val).walkers → V.epoch = x.epoch) ∧
        (∃ o, o ∈ (t.core c.val).openItems ∧ o.nest = (s.core c.val).nest ∧ o.item = base + x.value.toNat ∧
          o.epoch = x.epoch ∧ o.counter = nCtr r ∧ o.left = 0)) ∧
      (mine ≤ x.value.toNat → ∀ V, V ∈ (t.core c.val).walkers → V.drained = true)) ∧
  (∀ (c : CoreId) (s : State) (o : OpenItem),
    (s.core c.val).openItems.find? (fun o => o.walked && o.left == 0) = some o →
    let q := c.val / 32
    let x := (s.quire q).ctrs.get o.counter
    ∃ t, exec (.doneNotice c) s = .next t ∧ SameMemory s t ∧ t.arm = s.arm ∧ SameDevice s t ∧
      (∀ y, y ≠ c.val → t.core y = s.core y) ∧
      (∀ p, p ∈ (t.core c.val).openItems → ¬(p.nest = o.nest ∧ p.item = o.item)) ∧
      (x.epoch = o.epoch → (t.quire q).ctrs.get o.counter = { x with done := x.done + 1 } ∧ t.regs = s.regs ∧
        (t.core c.val).replay = (s.core c.val).replay) ∧
      (x.epoch ≠ o.epoch → t.quires = s.quires ∧
        (t.core c.val).replay = (s.core c.val).replay ++ [(o.nest, o.item)] ∧
        t.rget (Reg.dckStale c.val) = s.rget (Reg.dckStale c.val) + 1 ∧
        (t.rget (Reg.dckStatus c.val)).getLsbD 0 = true)) ∧
  (∀ (c : CoreId) (s : State), (s.core c.val).openItems.find? (fun o => o.walked && o.left == 0) = none →
    exec (.doneNotice c) s = .next s) ∧
  (∀ (q : QuireId) (s : State),
    (∀ j, nextLayer s q.val = some j → layerDue s q.val j = true → quireRunners s q.val ≠ [] →
      ∃ t, exec (.prefetchIssue q) s = .next t ∧ (t.quire q.val).issued = (s.quire q.val).issued ++ [j] ∧
        (t.quire q.val).landed = (s.quire q.val).landed ∧ (∀ r, r ≠ q.val → t.quire r = s.quire r) ∧ SameMemory s t ∧
        t.regs = s.regs ∧ t.cores = s.cores ∧ SameDevice s t) ∧
    ((∀ j, nextLayer s q.val = some j → layerDue s q.val j = false) → exec (.prefetchIssue q) s = .next s)) ∧
  (∀ (q : QuireId) (j : Fin 1024) (s : State) (k : Nat),
    (s.quire q.val).issued.find? (fun k => k % max (imLayers (qImg s q.val)) 1 == j.val &&
      !(s.quire q.val).landed.contains k) = some k →
    let v := imLayer (qImg s q.val) j.val
    let x := (s.quire q.val).layerCtx
    (memReadChk s x (lSrc v) (lBytes v) = .ok → qsrChk s q.val (lDst v) (lBytes v) = .ok →
      ∃ t, exec (.prefetchLanded q j) s = .next t ∧ (t.quire q.val).landed = (s.quire q.val).landed ++ [k] ∧
        t.rd (qsrAddr q.val (lDst v)) (lBytes v) = s.rd (lSrc v) (lBytes v) ∧
        (∀ a, a < csBase → (a < qsrAddr q.val (lDst v) ∨ qsrAddr q.val (lDst v) + lBytes v ≤ a) →
          t.mem.get a = s.mem.get a) ∧ t.cores = s.cores ∧ t.nv = s.nv ∧ t.roll = s.roll) ∧
    (∀ code o, memReadChk s x (lSrc v) (lBytes v) = .fault code o →
      ∃ u, exec (.prefetchLanded q j) s = .next (faultCtx u x code none 0) ∧
        (u.quire q.val).issued = (s.quire q.val).issued.filter (· != k) ∧ SameMemory s u ∧ u.cores = s.cores))

/-- Completion of a descriptor (R147, R152, R171) -/
def Obligations.Completions : Prop :=
  (∀ (c : CoreId) (eng : Engine) (s : State) (d : InFlight),
    (s.core c.val).inflight.find? (·.eng = eng) = some d →
    ((d.wait ≠ 0 ∨ d.pending = true) → exec (.descriptorComplete c eng) s = .next s) ∧
    (d.wait = 0 → d.pending = false → ∃ t, exec (.descriptorComplete c eng) s = .next t ∧
      (t.core c.val).inflight = (s.core c.val).inflight.filter (·.id != d.id) ∧
      (∀ g, g ∈ (t.core c.val).gather → g.desc ≠ d.id) ∧ (t.core c.val).stalls = 0 ∧
      (t.core c.val).banks = (s.core c.val).banks ∧ SameArrays s t c.val ∧
      (∀ k, d.prod = some k → d.cons ≠ some k →
        (t.core c.val).slots.get k = { (s.core c.val).slots.get k with
          full := true, remain := ((s.core c.val).slots.get k).readers }) ∧
      (∀ k, d.cons = some k → d.prod ≠ some k →
        (t.core c.val).slots.get k =
          if ((s.core c.val).slots.get k).remain.toNat ≤ 1 then
            { (s.core c.val).slots.get k with remain := 0, full := false }
          else { (s.core c.val).slots.get k with remain := ((s.core c.val).slots.get k).remain - 1 }) ∧
      (∀ k, d.prod ≠ some k → d.cons ≠ some k → (t.core c.val).slots.get k = (s.core c.val).slots.get k) ∧
      (∀ x, x ≠ c.val → (t.core x).slots = (s.core x).slots ∧ (t.core x).inflight = (s.core x).inflight))) ∧
  (∀ (c : CoreId) (eng : Engine) (s : State), (s.core c.val).inflight.find? (·.eng = eng) = none →
    exec (.descriptorComplete c eng) s = .next s)

/-- The stall notices of slots and holds (R150, R199) -/
def Obligations.StallNotices : Prop :=
  (∀ (c : CoreId) (w : WalkerId) (s : State) (i d : Nat),
    headDesc s c.val w.val = some (i, some d) → hClass d ≠ 6 →
    slotChk s c.val (hCons d) (prodHere c.val d) = .stall →
    ((s.core c.val).walkers = [] → (s.core c.val).noticed = false) →
    (∀ W, (s.core c.val).walkers[w.val]? = some W → W.noticed = false) →
    let x := (s.core c.val).ctx
    let producer := slotChk s c.val (hCons d) none == .ok
    let slot := (if producer then prodHere c.val d else hCons d).getD 0
    ∃ t, exec (.slotStallNotice c w) s = .next t ∧ t.nv = s.nv ∧ t.roll = s.roll ∧ t.vat = s.vat ∧
      t.rget (Reg.spdStallInfo c.val) =
        BitVec.ofNat 32 (slot % 64 + 64 * (if producer then 1 else 0) + 128 * (x % 4096)) ∧
      (t.rget (Reg.spdStatus c.val)).getLsbD 4 = true ∧
      (t.ctx x).record.notices = (s.ctx x).record.notices + 1 ∧
      ((s.core c.val).walkers = [] → (t.core c.val).noticed = true) ∧
      (∀ W, (t.core c.val).walkers[w.val]? = some W → W.noticed = true) ∧
      (t.core c.val).inflight = (s.core c.val).inflight ∧ (t.core c.val).slots = (s.core c.val).slots) ∧
  (∀ (c : CoreId) (w : WalkerId) (s : State),
    holdOf (s.core c.val) w.val ≠ .none → ((s.core c.val).walkers = [] → (s.core c.val).noticed = false) →
    (∀ W, (s.core c.val).walkers[w.val]? = some W → W.noticed = false) →
    let x := (s.core c.val).ctx
    ∃ t, exec (.waitStallNotice c w) s = .next t ∧ t.nv = s.nv ∧ t.roll = s.roll ∧ t.vat = s.vat ∧
      (t.rget (Reg.dckStatus c.val)).getLsbD 2 = true ∧ (t.ctx x).record.notices = (s.ctx x).record.notices + 1 ∧
      holdOf (t.core c.val) w.val = holdOf (s.core c.val) w.val ∧
      ((s.core c.val).walkers = [] → (t.core c.val).noticed = true) ∧
      (∀ W, (t.core c.val).walkers[w.val]? = some W → W.noticed = true)) ∧
  (∀ (c : CoreId) (w : WalkerId) (s : State), holdOf (s.core c.val) w.val = .none →
    exec (.waitStallNotice c w) s = .next s)

/-- Deliveries into scratchpads (R54, R148, R184) -/
def Obligations.Deliveries : Prop :=
  (∀ (q : QuireId) (s : State) (i : Nat) (v : Delivery),
    firstIdx (fun v : Delivery => !v.remote) (s.quire q.val).deliveries = some i →
    (s.quire q.val).deliveries[i]? = some v →
    let cs := (bitsOf 32 v.mask.toNat).map (32 * q.val + ·)
    let rows := v.data.length / max 1 v.rowBytes
    ((∃ c, c ∈ cs ∧ (awaiting s c v = none ∨ slotClear s c v = false)) → exec (.multicastDelivery q) s = .next s) ∧
    ((∃ c, c ∈ cs ∧ landingChk s c v = .stall) → (∀ c, c ∈ cs → landingChk s c v = .ok ∨ landingChk s c v = .stall) →
      exec (.multicastDelivery q) s = .next s) ∧
    ((∀ c, c ∈ cs → (awaiting s c v).isSome = true ∧ slotClear s c v = true) →
      (∀ c, c ∈ cs → landingChk s c v = .ok) → v.rowBytes ≤ v.stride →
      ∃ t, exec (.multicastDelivery q) s = .next t ∧
        (t.quire q.val).deliveries = dropAt (s.quire q.val).deliveries i ∧ SameDevice s t ∧ t.roll = s.roll ∧
        (∀ c, c ∉ cs → t.core c = s.core c) ∧
        (∀ c, c ∈ cs → (∀ k, v.prod = some k → ((t.core c).slots.get k).full = true) ∧
          ∀ r b, r < rows → b < v.rowBytes →
            spdByte t c (v.dst + r * v.stride + b) = (v.data.getD (r * v.rowBytes + b) (0, 0)).1))) ∧
  (∀ (c : CoreId) (s : State) (i : Nat) (v : Delivery),
    firstIdx (fun v : Delivery => v.remote && v.mask.getLsbD (c.val % 32)) (s.quire (c.val / 32)).deliveries = some i →
    (s.quire (c.val / 32)).deliveries[i]? = some v →
    let rows := v.data.length / max 1 v.rowBytes
    (slotClear s c.val v = false → exec (.remoteProducerLanded c) s = .next s) ∧
    (slotClear s c.val v = true → landingChk s c.val v = .ok → v.rowBytes ≤ v.stride →
      ∃ t, exec (.remoteProducerLanded c) s = .next t ∧
        (t.quire (c.val / 32)).deliveries = dropAt (s.quire (c.val / 32)).deliveries i ∧ SameDevice s t ∧
        (∀ k, v.prod = some k → ((t.core c.val).slots.get k).full = true) ∧
        (∀ r b, r < rows → b < v.rowBytes →
          spdByte t c.val (v.dst + r * v.stride + b) = (v.data.getD (r * v.rowBytes + b) (0, 0)).1) ∧
        (∀ d, d ∈ (t.core v.leader).inflight → ∃ f, f ∈ (s.core v.leader).inflight ∧ f.id = d.id ∧
          d.wait = if d.id = v.desc then f.wait - 1 else f.wait)))

/-- What MOVE does, form by form (R148, R172, R184, R189, R196, R197, R302, R308, R311, R395, R414) -/
def Obligations.Moves : Prop :=
  ∀ (c : CoreId) (w : WalkerId) (e : Upset) (s : State) (d : Nat), Ready s c.val w.val 5 0 d →
    let u := upset s e
    let n := dRowBytes d
    (∀ a b, MovePasses u c.val w.val d a b →
      let v := (sourceRows u d a).1
      let rows := (sourceRows u d a).2
      (srcOutside u d a = false → dDstMode d ≠ 2 → dMcast d = false → farSlot c.val d = none →
        (∀ i j, i < j → j < b.length → rowAddr u (b.getD i (0, 0)) + (destShape d).2 ≤ rowAddr u (b.getD j (0, 0)) ∨
          rowAddr u (b.getD j (0, 0)) + (destShape d).2 ≤ rowAddr u (b.getD i (0, 0))) →
        (∀ r, r ∈ b → r.1 ≠ 0 → rowAddr u r + (destShape d).2 ≤ stackedTop) →
        ∃ t, exec (.move c w e) s = .next t ∧ Issued s t c.val w.val .dmv d ∧ t.nv = s.nv ∧
          (∀ i k, i < b.length → k < (destShape d).2 →
            devByte t (rowAddr u (b.getD i (0, 0)) + k) = ((rows.getD i []).getD k (0, 0)).1) ∧
          (∀ x, x < csBase → (∀ i, i < b.length → x < rowAddr u (b.getD i (0, 0)) ∨
            rowAddr u (b.getD i (0, 0)) + (destShape d).2 ≤ x) → devByte t x = devByte u x) ∧
          t.roll = s.roll ∧ SameArrays u t c.val ∧ (t.core c.val).slots = (s.core c.val).slots) ∧
      (srcOutside u d a = false → dMcast d = true →
        ∃ t, exec (.move c w e) s = .next t ∧ InFlightWith s t c.val w.val d false 1 ∧
          (∃ v, (t.quire (c.val / 32)).deliveries = (s.quire (c.val / 32)).deliveries ++ [v] ∧ v.remote = false ∧
            v.mask.toNat = dMask d ∧ v.dst = dDst d ∧ v.stride = dDstStride d ∧ v.rowBytes = n ∧
            v.data = rows.flatten ∧ v.prod = hProd d ∧ v.leader = c.val ∧ v.desc = (s.core c.val).nextId)) ∧
      (srcOutside u d a = false → ∀ x k, dDstMode d = 0 → dMcast d = false → farSlot c.val d = some (x, k) →
        ∃ t, exec (.move c w e) s = .next t ∧ InFlightWith s t c.val w.val d false 1 ∧
          (∃ v, (t.quire (x / 32)).deliveries = (s.quire (x / 32)).deliveries ++ [v] ∧ v.remote = true ∧
            v.mask = BitVec.ofNat 32 (2 ^ (x % 32)) ∧ v.data = rows.flatten ∧ v.prod = some k ∧ v.leader = c.val)) ∧
      (srcOutside u d a = false → dDstMode d = 2 → remoteReady v d (remotePackets v d a b rows) = none →
        ∃ t, exec (.move c w e) s = .next t ∧
          InFlightWith s t c.val w.val d false (remotePackets v d a b rows).length ∧
          t.chain.xfers.length = s.chain.xfers.length + (remotePackets v d a b rows).length ∧ t.mem = v.mem) ∧
      (srcOutside u d a = true → n ≠ 0 → a ≠ [] →
        (dSrcMode d = 2 ∧ remoteReady u 0 (a.flatMap fun r => (pieces 4096 (rowAddr u r) n).map fun p =>
          mkChn u 0 (dDev d) 0 p.1 p.2) = none ∨ dSrcMode d ≠ 2 ∧ s.rbit Reg.cchCtrl 0 = false) →
        ∃ t, exec (.move c w e) s = .next t ∧ SameMemory u t ∧
          InFlightWith s t c.val w.val d true (a.flatMap fun r => pieces 4096 (rowAddr u r) n).length)) ∧
    (commitOk u c.val w.val d = true → dNoop d = true →
      ∃ t, exec (.move c w e) s = .next t ∧ Issued s t c.val w.val .dmv d ∧ SameMemory u t ∧ t.regs = u.regs ∧
        SameOutside u t c.val) ∧
    ((commitOk u c.val w.val d = false ∨ dNoop d = false ∧ moveParam c.val d = false) →
      exec (.move c w e) s = .next (coreFault s c.val 0x104 0)) ∧
    (commitOk u c.val w.val d = true → dNoop d = false → moveParam c.val d = true → dMcast d = true →
      leaderOf (dMask d) ≠ c.val % 32 → dstChk u c.val d [] = .ok →
      ∃ t, exec (.move c w e) s = .next t ∧ InFlightWith s t c.val w.val d true 0 ∧ SameMemory u t ∧ t.regs = u.regs ∧
        SameOutside u t c.val) ∧
    (commitOk u c.val w.val d = true → dNoop d = false → moveParam c.val d = true → dMcast d = false →
      ∀ b ps, sideRows u c.val w.val d false (dSrcMode d) (dSrc d) (dSrcStride d) (dRows d) = .wait ps →
      sideRows u c.val w.val d true (dDstMode d) (dDst d) (dDstStride d) (destShape d).1 = .rows b →
      ∃ t, exec (.move c w e) s = .next t ∧ (t.core c.val).inflight = (s.core c.val).inflight ∧
        (t.core c.val).pos = (s.core c.val).pos ∧ (t.core c.val).walkers = (s.core c.val).walkers ∧ t.nv = s.nv)

/-- What FILL and LCOPY do (R155, R182, R197) -/
def Obligations.LocalTransfers : Prop :=
  ∀ (c : CoreId) (w : WalkerId) (e : Upset) (s : State) (d : Nat),
    let n := dRows d * dRowBytes d
    let u := upset s e
    (Ready s c.val w.val 5 1 d → commitOk s c.val w.val d = true → spdChk s c.val (dDst d) n = .ok →
      ∃ t, exec (.fill c w) s = .next t ∧ Issued s t c.val w.val .dmv d ∧ SameOutside s t c.val ∧ SameCore s t c.val ∧
        SameArrays s t c.val ∧ t.regs = s.regs ∧ t.arm = s.arm ∧
        Wrote s t c.val [(dDst d, (List.range n).map fun i => BitVec.ofNat 8 (dPattern d / 256 ^ ((dDst d + i) % 4)))]) ∧
    (Ready s c.val w.val 5 1 d → commitOk s c.val w.val d = false →
      exec (.fill c w) s = .next (coreFault s c.val 0x104 0)) ∧
    (Ready s c.val w.val 5 2 d → commitOk u c.val w.val d = true → spdReadChk u e c.val (dSrc d) n = .ok →
      spdChk u c.val (dDst d) n = .ok →
      ∃ t, exec (.lcopy c w e) s = .next t ∧ Issued s t c.val w.val .dmv d ∧ SameOutside u t c.val ∧ SameCore u t c.val ∧
        SameArrays u t c.val ∧ t.regs = u.regs ∧ t.arm = u.arm ∧
        Wrote u t c.val [(dDst d, spdRead u c.val (dSrc d) n)]) ∧
    (Ready s c.val w.val 5 2 d → commitOk u c.val w.val d = false →
      exec (.lcopy c w e) s = .next (coreFault s c.val 0x104 0))

/-- The weight sets of the matrix arrays (R107, R108, R116 to R119, R133) -/
def Obligations.WeightSets : Prop :=
  (∀ (c : CoreId) (w : WalkerId) (e : Upset) (s : State) (d : Nat), Ready s c.val w.val 1 0 d →
    let u := upset s e
    let zero := mK d == 0 || mN d == 0
    ((s.core c.val).mma.shadowSt = .filling → exec (.mmaLoad c w e) s = .next s) ∧
    ((s.core c.val).mma.shadowSt ≠ .filling → codesReserved 0 [mFmtW d] = false → layoutFits c.val (mLayout d) = true →
      (arrayFloat (mFmtW d) || arrayInt (mFmtW d) || mFmtW d == 0x18) = true →
      (mTranspose d && isMx (mFmtW d)) = false → mK d ≤ kMax (mLayout d) (elemBits (mFmtW d) == 4) →
      mN d ≤ nMax (mLayout d) → (zero = false → loadChk u e c.val d = .ok) →
      ∃ t, exec (.mmaLoad c w e) s = .next t ∧ Issued s t c.val w.val .mma d ∧ SameOutside u t c.val ∧
        SameCore u t c.val ∧ SameMemory u t ∧
        (t.core c.val).mma.shadow.layout = mLayout d ∧ (t.core c.val).mma.shadow.fmt = mFmtW d ∧
        (∀ k n, k < mK d → n < mN d →
          (t.core c.val).mma.shadow.cells.get (k * 64 + n) = tileCode (spdByte u c.val) d k n) ∧
        (∀ k n, n < 64 → (mK d ≤ k ∨ mN d ≤ n) → (t.core c.val).mma.shadow.cells.get (k * 64 + n) = 0) ∧
        (isMx (mFmtW d) = true → ∀ k n, k < mK d → n < mN d →
          (t.core c.val).mma.shadow.scales.get (k * 64 + n) = tileScale (spdByte u c.val) d k n) ∧
        (t.core c.val).mma.active = (u.core c.val).mma.active ∧ (t.core c.val).mma.acc = (u.core c.val).mma.acc ∧
        (t.core c.val).mma.shadowSt = (if zero then .full else .filling) ∧
        t.rget (Reg.mmaFlags c.val) =
          u.rget (Reg.mmaFlags c.val) ||| (if (u.core c.val).mma.shadowSt = .full then 0x10000 else 0)) ∧
    ((s.core c.val).mma.shadowSt ≠ .filling → codesReserved 0 [mFmtW d] = false → layoutFits c.val (mLayout d) = false →
      exec (.mmaLoad c w e) s = .next (coreFault s c.val 0x110 0)) ∧
    ((s.core c.val).mma.shadowSt ≠ .filling → codesReserved 0 [mFmtW d] = false → layoutFits c.val (mLayout d) = true →
      (arrayFloat (mFmtW d) || arrayInt (mFmtW d) || mFmtW d == 0x18) = true → mTranspose d = true →
      isMx (mFmtW d) = true → exec (.mmaLoad c w e) s = .next (coreFault s c.val 0x114 0))) ∧
  (∀ (c : CoreId) (s : State),
    ((s.core c.val).mma.shadowSt = .filling → ∃ t, exec (.shadowFull c) s = .next t ∧
      (t.core c.val).mma = { (s.core c.val).mma with shadowSt := .full } ∧
      (∀ d, d ∈ (t.core c.val).inflight → d.eng = .mma → d.pending = false) ∧ SameMemory s t ∧ t.regs = s.regs ∧
      SameOutside s t c.val ∧ SameCore s t c.val) ∧
    ((s.core c.val).mma.shadowSt ≠ .filling → exec (.shadowFull c) s = .next s)) ∧
  (∀ (c : CoreId) (w : WalkerId) (s : State) (d : Nat), Ready s c.val w.val 1 3 d →
    ((s.core c.val).mma.shadowSt = .empty → exec (.mmaSwap c w) s = .next (coreFault s c.val 0x113 0)) ∧
    ((s.core c.val).mma.shadowSt = .filling → exec (.mmaSwap c w) s = .next s) ∧
    ((s.core c.val).mma.shadowSt = .full ∨ (s.core c.val).mma.shadowSt = .spent →
      ∃ t, exec (.mmaSwap c w) s = .next t ∧ Issued s t c.val w.val .mma d ∧ SameMemory s t ∧ t.regs = s.regs ∧
        SameOutside s t c.val ∧ SameCore s t c.val ∧
        (t.core c.val).mma = { (s.core c.val).mma with
          active := (s.core c.val).mma.shadow, shadow := (s.core c.val).mma.active, shadowSt := .spent }))

/-- What MUL does (R108, R110 to R115, R118, R120 to R123, R130) -/
def Obligations.MatrixProducts : Prop :=
  ∀ (c : CoreId) (w : WalkerId) (e : Upset) (s : State) (d : Nat), Ready s c.val w.val 1 1 d →
    let u := upset s e
    let v := if mSwapFirst d then swapSets u c.val else u
    let zero := mM d == 0 || mK d == 0 || mN d == 0
    let k := ctlFor v c.val (mArith d)
    let rd := spdByte v c.val
    let rows := List.range (mM d)
    let gate := layoutFits c.val (mLayout d) = true ∧ codesReserved (mArith d) (mulFormats d) = false ∧ mAcc d ≠ 3 ∧
      (mSwapFirst d = true → (s.core c.val).mma.shadowSt = .full ∨ (s.core c.val).mma.shadowSt = .spent)
    (zero = true → (mSwapFirst d = true → (s.core c.val).mma.shadowSt = .full ∨ (s.core c.val).mma.shadowSt = .spent) →
      ∃ t, exec (.mmaMul c w e) s = .next t ∧ Issued s t c.val w.val .mma d ∧ SameMemory u t ∧ t.regs = u.regs ∧
        SameOutside u t c.val ∧ (t.core c.val).mma = (v.core c.val).mma) ∧
    (∀ kind, zero = false → gate → MulPasses v e c.val d kind → mRelief d = false →
      ∃ t, exec (.mmaMul c w e) s = .next t ∧ Issued s t c.val w.val .mma d ∧ SameMemory u t ∧ SameOutside u t c.val ∧
        SameCore u t c.val ∧ (t.core c.val).mma.active = (v.core c.val).mma.active ∧
        (t.core c.val).mma.shadow = (v.core c.val).mma.shadow ∧
        (t.core c.val).mma.shadowSt = (v.core c.val).mma.shadowSt ∧
        (∀ m n, m < mM d → n < mN d →
          let old := getCell (v.core c.val).mma (twoWords d) (accAt d m n)
          let start := quiet (startCell rd k d kind (if mAcc d = 0 then default else old) m n)
          let run := quiet (cellRun k d kind start
            ((quiet (feedRow v c.val k d m)).zip (quiet (weightColumn (v.core c.val).mma.active k d n))))
          getCell (t.core c.val).mma (twoWords d) (accAt d m n) =
            if twoWords d then run else { (default : AccCell) with acc := run.acc }) ∧
        t.rget (Reg.mmaVectors c.val) = u.rget (Reg.mmaVectors c.val) + BitVec.ofNat 32 (entriesOf d) ∧
        t.rget (Reg.mmaSkipped c.val) = u.rget (Reg.mmaSkipped c.val)) ∧
    (∀ kind, zero = false → gate → MulPasses v e c.val d kind → mRelief d = true →
      let f := runAr v c.val .mma (Ar.each (feedRow v c.val k d) rows)
      let g := runAr f.2 c.val .mma (Ar.each (weightColumn (v.core c.val).mma.active k d) (List.range (mN d)))
      let skips := (List.range (entriesOf d)).filter fun i =>
        (intervalRows d i).all fun m => rowSkips v c.val d m (f.1.getD m [])
      let r := runAr g.2 c.val .mma (Ar.fold (fun mm m => mulRow rd k d kind g.1 mm m (f.1.getD m [])
        (skips.contains (if mLayout d = 2 then m / 4 else m))) (v.core c.val).mma rows)
      ∃ t, exec (.mmaMul c w e) s = .next t ∧ Issued s t c.val w.val .mma d ∧ SameOutside u t c.val ∧ SameCore u t c.val ∧
        (t.core c.val).mma.acc = r.1.acc ∧
        (mAcc d = 0 → ∀ m, m < mM d →
          (t.core c.val).mma.relief.get (modeAt d m) = reliefRow v c.val d m) ∧
        (mAcc d ≠ 0 → (t.core c.val).mma.relief = (v.core c.val).mma.relief) ∧
        t.rget (Reg.mmaSkipped c.val) = u.rget (Reg.mmaSkipped c.val) + BitVec.ofNat 32 skips.length ∧
        Wrote u t c.val (rows.map fun m => (prevAt v c.val d m,
          spdRead v c.val (mSrc d + m * mSrcStride d) (mK d * (elemBits (mFmtA d) / 8)))))

/-- What DRAIN does (R101, R109, R112, R115, R124, R130) -/
def Obligations.MatrixDrains : Prop :=
  ∀ (c : CoreId) (w : WalkerId) (e : Upset) (s : State) (d : Nat) (kind : AccKind), Ready s c.val w.val 1 2 d →
    let u := upset s e
    let k := ctlFor u c.val (mArith d)
    let ys := runAr u c.val .mma (Ar.each (drainRow u c.val k d kind) (List.range (mM d)))
    let l := runAr ys.2 c.val .mma (Ar.each (writeLine (mFmtOut d) k) ys.1)
    ((mM d = 0 ∨ mN d = 0) → ∃ t, exec (.mmaDrain c w e) s = .next t ∧ Issued s t c.val w.val .mma d ∧ SameMemory u t ∧
      t.regs = u.regs ∧ SameOutside u t c.val ∧ SameArrays u t c.val) ∧
    (DrainPasses u e c.val d kind → ∃ t, exec (.mmaDrain c w e) s = .next t ∧ Issued s t c.val w.val .mma d ∧
      SameOutside u t c.val ∧ SameCore u t c.val ∧ SameArrays u t c.val ∧
      (kind = .pair → t.regs = u.regs ∧ Wrote u t c.val ((List.range (mM d)).map fun m =>
        (mDst d + m * mDstStride d, pairBytes u c.val d m))) ∧
      (kind ≠ .pair → t.regs = l.2.regs ∧
        Wrote u t c.val ((if mRelief d then recordParts u c.val d ys.1 else []) ++
          ((List.range (mM d)).zip l.1).flatMap fun r =>
            [(mDst d + r.1 * mDstStride d, r.2.1), (mDstScale d + r.1 * ceilDiv (mN d) 32, r.2.2)])))

/-- What ATTEND and FINISH do (R231 to R241) -/
def Obligations.AttentionRows : Prop :=
  (∀ (c : CoreId) (w : WalkerId) (e : Upset) (s : State) (d : Nat), Ready s c.val w.val 3 0 d →
    let u := upset s e
    let k := ctlFor u c.val (aArith d)
    let blocks := blocksOf d
    let met := blocks.filter fun b => !blockSkipped (skipMask u c.val d) d b
    let row (r n : Nat) : Triple :=
      let start := openRow u c.val d r
      (meetRow (spdByte u c.val) k d (skipMask u c.val d) met r { start with o := start.o.take (aD d) } { flags := 0, fresh := n }).1
    (aNoop d = true → ∃ t, exec (.attend c w e) s = .next t ∧ Issued s t c.val w.val .att d ∧ SameMemory u t ∧
      t.regs = u.regs ∧ SameOutside u t c.val ∧ SameArrays u t c.val) ∧
    (aNoop d = false → aAcc d ≠ 3 →
      codesReserved (aArith d) ([aFmtQ d, aFmtKv d] ++ if aBiasEn d then [aFmtBias d] else []) = false →
      attendFormat d = false → attendParam k d = false → (aAcc d = 1 → rowsOpen u c.val d = true) →
      attendChk u e c.val d = .ok →
      ∃ t, exec (.attend c w e) s = .next t ∧ Issued s t c.val w.val .att d ∧ SameMemory u t ∧ SameOutside u t c.val ∧
        SameCore u t c.val ∧ (t.core c.val).mma = (u.core c.val).mma ∧
        t.rget (Reg.attBlocks c.val) = u.rget (Reg.attBlocks c.val) + BitVec.ofNat 32 blocks.length ∧
        t.rget (Reg.attSkipped c.val) =
          u.rget (Reg.attSkipped c.val) + BitVec.ofNat 32 (blocks.length - met.length) ∧
        (∀ r, r < aRows d → ∃ n, ((t.core c.val).stats.get (aBase d + r)).live = true ∧
          ((t.core c.val).stats.get (aBase d + r)).m = toW (row r n).m ∧
          ((t.core c.val).stats.get (aBase d + r)).l = toW (row r n).l ∧
          ∀ i, i < aD d → ((t.core c.val).stats.get (aBase d + r)).o.get i = toW ((row r n).o.getD i (ofInt 0))) ∧
        (∀ i, (i < aBase d ∨ aBase d + aRows d ≤ i) → (t.core c.val).stats.get i = (u.core c.val).stats.get i)) ∧
    (aNoop d = false → aAcc d = 1 →
      codesReserved (aArith d) ([aFmtQ d, aFmtKv d] ++ if aBiasEn d then [aFmtBias d] else []) = false →
      attendFormat d = false → attendParam k d = false → rowsOpen u c.val d = false →
      exec (.attend c w e) s = .next (coreFault s c.val 0x142 0))) ∧
  (∀ (c : CoreId) (w : WalkerId) (e : Upset) (s : State) (d : Nat), Ready s c.val w.val 3 1 d →
    let u := upset s e
    let k := ctlFor u c.val (aArith d)
    let rows := (List.range (aRows d)).map fun r => rowOf u c.val (aBase d + r) (aD d)
    let l := runAr u c.val .att (Ar.each (fun x =>
      Ar.bind (outputOf k.ovf x) fun ys => Ar.map Prod.fst (writeLine (aFmtOut d) k ys)) rows)
    let gate := aNoop d = false ∧ codesReserved (aArith d) [aFmtOut d] = false ∧ aFmtOut d ≤ 4 ∧ rowsWrong d = false ∧
      attSigns k = false
    (gate → rowsOpen u c.val d = true →
      writeRowsChk u c.val (aOut d) (aStrideOut d) (aRows d) (rowLen (aFmtOut d) (aD d)) = .ok →
      (aStatsOut d = true → spdChk u c.val (aAux d) (8 * aRows d) = .ok) →
      ∃ t, exec (.finish c w e) s = .next t ∧ Issued s t c.val w.val .att d ∧ SameOutside u t c.val ∧
        SameCore u t c.val ∧ (t.core c.val).mma = (u.core c.val).mma ∧ t.regs = l.2.regs ∧
        Wrote u t c.val (((List.range l.1.length).zip l.1).map (fun r => (aOut d + r.1 * aStrideOut d, r.2)) ++
          (if aStatsOut d then [(aAux d, rows.flatMap statBytes)] else [])) ∧
        (∀ r, r < aRows d → ((t.core c.val).stats.get (aBase d + r)).live = false) ∧
        (∀ i, (i < aBase d ∨ aBase d + aRows d ≤ i) → (t.core c.val).stats.get i = (u.core c.val).stats.get i)) ∧
    (gate → rowsOpen u c.val d = false → exec (.finish c w e) s = .next (coreFault s c.val 0x142 0)))

/-- What EXPORT, ARM and APPEND do (R242, R243, R244, R245, R246, R247) -/
def Obligations.AttentionTransfers : Prop :=
  (∀ (c : CoreId) (w : WalkerId) (e : Upset) (s : State) (d : Nat), Ready s c.val w.val 3 2 d →
    let u := upset s e
    let q := c.val / 32
    let len := tripleLen (aD d)
    let bytes (r : Nat) : List Byte := tripleBytes (rowOf u c.val (aBase d + r) (aD d))
    let part := partAt (aOut d) (aRows d) (aD d) (aWindow d) 0
    aNoop d = false → rowsWrong d = false → aOut d % 64 = 0 → rowsOpen u c.val d = true →
    (aTarget d = false → spdChk u c.val (aOut d) (aRows d * len) = .ok →
      ∃ t, exec (.exportRows c w e) s = .next t ∧ Issued s t c.val w.val .att d ∧ SameOutside u t c.val ∧
        SameCore u t c.val ∧ t.regs = u.regs ∧
        Wrote u t c.val ((List.range (aRows d)).map fun r => (aOut d + r * len, bytes r)) ∧
        (∀ r, r < aRows d → ((t.core c.val).stats.get (aBase d + r)).live = false)) ∧
    (aTarget d = true → aWindow d < 32 → qsrChk u q (aOut d) 64 = .ok → qsrChk u q part (aRows d * len) = .ok →
      (landRefused (combHead u q (aOut d)) (aWindow d) = true → exec (.exportRows c w e) s =
        .next (coreFault (u.ror (Reg.attCombStatus q) 2) c.val 0x143 0)) ∧
      (landRefused (combHead u q (aOut d)) (aWindow d) = false →
        ∃ t, exec (.exportRows c w e) s = .next t ∧ Issued s t c.val w.val .att d ∧
          (∀ r, r < aRows d → t.rd (qsrAddr q (part + r * len)) len = bytes r) ∧
          bit (rLanded (combHead t q (aOut d))) (aWindow d) = true ∧
          (∀ a, (a < qsrAddr q (aOut d) ∨ qsrAddr q (aOut d) + 64 ≤ a) →
            (a < qsrAddr q part ∨ qsrAddr q part + aRows d * len ≤ a) → t.mem.get a = u.mem.get a) ∧
          (∃ v, v ∈ (t.quire q).comb ∧ v.record = aOut d ∧ v.part = aWindow d ∧ v.final = false) ∧
          (∀ r, r < aRows d → ((t.core c.val).stats.get (aBase d + r)).live = false)))) ∧
  (∀ (c : CoreId) (w : WalkerId) (s : State) (d : Nat), Ready s c.val w.val 3 4 d →
    let q := c.val / 32
    let h := combHead s q (aOut d)
    aNoop d = false → codesReserved (aArith d) [aFmtOut d] = false → aFmtOut d ≤ 4 → aWindow d ≠ 0 → aWindow d ≤ 32 →
    aRows d ≤ 64 → aD d ≤ 256 → aOut d % 64 = 0 → attSigns (ctlFor s c.val (aArith d)) = false →
    qsrChk s q (aOut d) (64 + (aWindow d + 1) * aRows d * tripleLen (aD d)) = .ok →
    writeRowsChk s c.val (aQ d) (aStrideQ d) (aRows d) (rowLen (aFmtOut d) (aD d)) = .ok →
    (aStatsOut d = true → spdChk s c.val (aAux d) (8 * aRows d) = .ok) →
    (rArmed h = true → exec (.arm c w) s = .next (coreFault s c.val 0x142 0)) ∧
    (rArmed h = false → ∃ t, exec (.arm c w) s = .next t ∧ Passed s t c.val w.val ∧ t.regs = s.regs ∧
      rParts (combHead t q (aOut d)) = aWindow d ∧ rRows (combHead t q (aOut d)) = aRows d ∧
      rD (combHead t q (aOut d)) = aD d ∧ rFmt (combHead t q (aOut d)) = aFmtOut d ∧
      rArmed (combHead t q (aOut d)) = true ∧ rStats (combHead t q (aOut d)) = aStatsOut d ∧
      rLanded (combHead t q (aOut d)) = rLanded h ∧ rMerged (combHead t q (aOut d)) = rMerged h ∧
      rArith (combHead t q (aOut d)) = aArith d ∧ rDest (combHead t q (aOut d)) = c.val % 32 ∧
      rSlot (combHead t q (aOut d)) = hProd d ∧ rResult (combHead t q (aOut d)) = aQ d ∧
      rStatsAt (combHead t q (aOut d)) = aAux d ∧ rStride (combHead t q (aOut d)) = aStrideQ d ∧
      (∀ a, (a < qsrAddr q (aOut d) ∨ qsrAddr q (aOut d) + 64 ≤ a) → t.mem.get a = s.mem.get a) ∧
      (∃ f, (t.core c.val).inflight = (s.core c.val).inflight ++ [f] ∧ f.prod = none) ∧ SameArrays s t c.val)) ∧
  (∀ (c : CoreId) (w : WalkerId) (e : Upset) (s : State) (d : Nat), Ready s c.val w.val 3 3 d →
    let u := upset s e
    let k := ctlFor u c.val (aArith d)
    let b := kvRowBytes (aFmtKv d) (aD d)
    let z := kvScales (aFmtKv d) (aD d)
    let l := runAr u c.val .att (Ar.each (fun r =>
      Ar.bind (Ar.each (readElem (spdByte u c.val) k.flush (aQ d + r * aStrideQ d) 0 (aFmtQ d) false)
        (List.range (aD d))) (writeLine (aFmtKv d) k)) (List.range (aRows d)))
    aNoop d = false → codesReserved (aArith d) [aFmtQ d, aFmtKv d] = false → aFmtQ d ≤ 2 → kvFormat (aFmtKv d) = true →
    dimWrong d = false → attSigns k = false →
    readRowsChk u e c.val (aQ d) (aStrideQ d) (aRows d) (rowLen (aFmtQ d) (aD d)) = .ok →
    spdChk u c.val (aK d) (aRows d * b) = .ok → spdChk u c.val (aKs d) (aRows d * z) = .ok →
    ∃ t, exec (.appendRows c w e) s = .next t ∧ Issued s t c.val w.val .att d ∧ SameOutside u t c.val ∧
      SameCore u t c.val ∧ SameArrays u t c.val ∧
      t.regs = (l.2.radd (Reg.attAppended c.val) (aRows d)).regs ∧
      Wrote u t c.val (((List.range l.1.length).zip l.1).map (fun r => (aK d + r.1 * b, r.2.1)) ++
        ((List.range l.1.length).zip l.1).map (fun r => (aKs d + r.1 * z, r.2.2))))

/-- The combine unit (R244, R245) -/
def Obligations.CombineUnit : Prop :=
  (∀ (q : QuireId) (s : State) (v : CombEvent), (s.quire q.val).comb.find? (mergeable s q.val) = some v →
    let h := combHead s q.val v.record
    let len := tripleLen (rD h)
    v.part < 32 → qsrAddr q.val v.record + 64 + (v.part + 2) * rRows h * len ≤ qsrAddr (q.val + 1) 0 →
    ∃ t, exec (.combineMerge q) s = .next t ∧
      bit (rLanded (combHead t q.val v.record)) v.part = false ∧
      bit (rMerged (combHead t q.val v.record)) v.part = true ∧ rArmed (combHead t q.val v.record) = true ∧
      (∀ i, i < 32 → i ≠ v.part → bit (rLanded (combHead t q.val v.record)) i = bit (rLanded h) i ∧
        bit (rMerged (combHead t q.val v.record)) i = bit (rMerged h) i) ∧
      t.rget (Reg.attCombMerges q.val) = s.rget (Reg.attCombMerges q.val) + 1 ∧
      (rMerged h = 0 → ∀ r, r < rRows h → ∀ i, i < 2 + rD h →
        ofW (BitVec.ofNat 32 (t.rdN (qsrAddr q.val (resultAt v.record (rD h) r + 4 * i)) 4)) =
          ofW (toW (ofW (BitVec.ofNat 32 (s.rdN (qsrAddr q.val (partAt v.record (rRows h) (rD h) v.part r + 4 * i)) 4))))) ∧
      (∀ a, a < qsrAddr q.val v.record ∨ qsrAddr q.val v.record + 64 + rRows h * len ≤ a → t.mem.get a = s.mem.get a) ∧
      SameDevice s t ∧ t.cores = s.cores ∧ t.roll = s.roll ∧ t.vat = s.vat) ∧
  (∀ (q : QuireId) (s : State), (s.quire q.val).comb.find? (mergeable s q.val) = none →
    exec (.combineMerge q) s = .next s) ∧
  (∀ (q : QuireId) (s : State) (v : CombEvent), finalising s q.val 0 = some v →
    let h := combHead s q.val v.record
    let c := 32 * q.val + rDest h
    ((∃ k, rSlot h = some k ∧ ((s.core c).slots.get k).full = true) → exec (.combineFinalise q) s = .next s) ∧
    ((∀ k, rSlot h = some k → ((s.core c).slots.get k).full = false) →
      rResult h + rRows h * rStride h + rowLen (rFmt h) (rD h) ≤ 0x60000 → rowLen (rFmt h) (rD h) ≤ rStride h →
      rStats h = false → isScaled (rFmt h) = false →
      ∃ t, exec (.combineFinalise q) s = .next t ∧ { v with part := 1 } ∈ (t.quire q.val).comb ∧
        (∀ r, r < rRows h →
          let x := storeTriple s q.val (resultAt v.record (rD h) r) (rD h)
          let k := ctlFor s c (rArith h)
          k.stoch = false →
          let line := quiet (Ar.bind (outputOf k.ovf x) fun ys => Ar.map Prod.fst (writeLine (rFmt h) k ys))
          ∀ b, b < line.length → spdByte t c (rResult h + r * rStride h + b) = line.getD b 0) ∧
        SameDevice s t ∧ t.roll = s.roll ∧ (t.core c).slots = (s.core c).slots ∧
        (∀ y, y ≠ c → t.core y = s.core y))) ∧
  (∀ (q : QuireId) (s : State) (v : CombEvent), finalising s q.val 1 = some v →
    let h := combHead s q.val v.record
    let c := 32 * q.val + rDest h
    ∃ t, exec (.combineResultLanded q) s = .next t ∧ rArmed (combHead t q.val v.record) = false ∧
      rMerged (combHead t q.val v.record) = 0 ∧ rLanded (combHead t q.val v.record) = rLanded h ∧
      (∀ k, rSlot h = some k → ((t.core c).slots.get k).full = true ∧
        ((t.core c).slots.get k).remain = ((s.core c).slots.get k).readers) ∧
      v ∉ (t.quire q.val).comb ∧ t.regs = s.regs ∧
      (∀ a, (a < qsrAddr q.val v.record ∨ qsrAddr q.val v.record + 64 ≤ a) → t.mem.get a = s.mem.get a))

/-- What CHUNK, FLUSH and RELEASE do (R263 to R272, R281) -/
def Obligations.StateEngine : Prop :=
  (∀ (c : CoreId) (w : WalkerId) (e : Upset) (s : State) (d : Nat), Ready s c.val w.val 4 0 d → StreamsQuiet s c.val →
    let u := upset s e
    let ids := namedStreams u c.val d
    let T := tSteps d
    let k := ctlFor u c.val (tArith d)
    (tNoop d = true → ∃ t, exec (.chunk c w e) s = .next t ∧ Issued s t c.val w.val .sta d ∧ SameMemory u t ∧
      t.regs = u.regs ∧ SameOutside u t c.val ∧ SameArrays u t c.val) ∧
    (ChunkPasses u e c.val d → strBase u + 32 * strCount u ≤ stackedTop →
      (∃ id, id ∈ ids ∧ residentHere u c.val id = false) →
      ∃ t, exec (.chunk c w e) s = .next t ∧ Issued s t c.val w.val .sta d ∧
        (∃ f, f ∈ (t.core c.val).inflight ∧ f.id = (s.core c.val).nextId ∧ f.pending = true ∧ f.strs = ids) ∧
        (∀ id, id ∈ ids → strGet t id = setFld (strGet u id) 56 8 (eQueued (strGet u id) + 1)) ∧
        (∀ j, j < strCount u → j ∉ ids → strGet t j = strGet u j) ∧ SameArrays u t c.val) ∧
    (ChunkPasses u e c.val d → tStreams d = 1 → k.stoch = false → strBase u + 32 * strCount u ≤ stackedTop →
      rowLen (tFmtY d) (tChannels d) ≤ tStrideY d →
      let id := ids.getD 0 0
      let v := strGet u id
      let renorm := u.strFresh.get id || decide (eRenorm v + 1 ≤ eRcnt v + T)
      let ys := quiet (Ar.each (chunkChannel u c.val d 0) (List.range (tChannels d)))
      residentHere u c.val id = true → geometryWrong u d id = false → slotPoison u c.val id = 0 → eSlot v < 32 →
      ∃ t, exec (.chunk c w e) s = .next t ∧ Issued s t c.val w.val .sta d ∧
        eState (strGet t id) = 3 ∧ eDirty (strGet t id) = true ∧ eSteps (strGet t id) = (eSteps v + T) % 2 ^ 64 ∧
        eRcnt (strGet t id) = (if renorm then 0 else eRcnt v + T) % 64 ∧ eQueued (strGet t id) = eQueued v + 1 ∧
        (∀ j, j < strCount u → j ≠ id → strGet t j = strGet u j) ∧ t.strFresh.get id = false ∧
        (∀ i b, i < T → b < rowLen (tFmtY d) (tChannels d) → spdByte t c.val (tY d + i * tStrideY d + b) =
          (quiet (writeLine (tFmtY d) k (ys.map fun y => y.1.getD i (ofInt 0)))).1.getD b 0) ∧
        t.rget (Reg.staSteps c.val) = u.rget (Reg.staSteps c.val) + BitVec.ofNat 32 T ∧ SameArrays u t c.val ∧
        SameDevice u t ∧ (∀ x, x ≠ c.val → t.core x = u.core x))) ∧
  (∀ (c : CoreId) (w : WalkerId) (e : Upset) (s : State) (d : Nat), Ready s c.val w.val 4 1 d → StreamsQuiet s c.val →
    let u := upset s e
    let id := (namedStreams u c.val d).getD 0 0
    let v := strGet u id
    let len := imageLen (eCg v) (eRows v)
    StreamsOk u e c.val d → tStreams d = 1 → eState v = 3 → eDirty v = true →
    (∀ h, strHome u id = some h → TableApart u h len →
      ∃ t, exec (.flush c w e) s = .next t ∧ Issued s t c.val w.val .sta d ∧ eState (strGet t id) = 3 ∧
        eDirty (strGet t id) = false ∧ t.rd h len = u.rd (slotAddr (eCore v) (eSlot v)) len ∧
        (∀ j, j < strCount u → j ≠ id → strGet t j = strGet u j) ∧
        t.rget Reg.strWritebacks = u.rget Reg.strWritebacks + 1 ∧ SameArrays u t c.val)) ∧
  (∀ (c : CoreId) (w : WalkerId) (e : Upset) (s : State) (d : Nat), Ready s c.val w.val 4 2 d → StreamsQuiet s c.val →
    let u := upset s e
    let id := (namedStreams u c.val d).getD 0 0
    let v := strGet u id
    let len := imageLen (eCg v) (eRows v)
    StreamsOk u e c.val d → tStreams d = 1 → eState v = 3 → chunkRunning s id = false →
    strBase u + 32 * strCount u ≤ stackedTop →
    (eDirty v = false → ∃ t, exec (.release c w e) s = .next t ∧ Issued s t c.val w.val .sta d ∧
      eState (strGet t id) = 1 ∧ (∀ j, j < strCount u → j ≠ id → strGet t j = strGet u j) ∧
      ((t.core (eCore v)).strSlots.get (eSlot v)).stream = 0 ∧
      (∃ f, f ∈ (t.core c.val).inflight ∧ f.id = (s.core c.val).nextId ∧ f.pending = false)) ∧
    (eDirty v = true → ∀ h, strHome u id = some h → TableApart u h len →
      ∃ t, exec (.release c w e) s = .next t ∧ Issued s t c.val w.val .sta d ∧ eState (strGet t id) = 4 ∧
        t.rd h len = u.rd (slotAddr (eCore v) (eSlot v)) len ∧
        (∃ f, f ∈ (t.core c.val).inflight ∧ f.id = (s.core c.val).nextId ∧ f.pending = true)))

/-- Claims, loads, write-backs and migration of streams (R268 to R272, R278) -/
def Obligations.StreamMoves : Prop :=
  (∀ (c : CoreId) (s : State) (desc id : Nat), readyClaim s c.val = none → nextClaim s c.val = some (desc, id) →
    strBase s + 32 * strCount s ≤ stackedTop →
    (streamOk s (s.core c.val).ctx id = false → exec (.streamClaim c) s = .next (coreFault s c.val 0x152 0)) ∧
    (streamOk s (s.core c.val).ctx id = true → ∀ k, freeSlotOf s c.val = some k →
      (eState (strGet s id) = 1 → (∀ l, l ∈ s.claims → l.stream ≠ id) →
        ∃ t, exec (.streamClaim c) s = .next t ∧ eState (strGet t id) = 2 ∧ eCore (strGet t id) = c.val ∧
          eSlot (strGet t id) = k ∧ ((t.core c.val).strSlots.get k).stream = id + 1 ∧
          ((t.core c.val).strSlots.get k).loaded = false ∧ t.claims = s.claims ∧
          (∀ j, j < strCount s → j ≠ id → strGet t j = strGet s j) ∧ SameDevice s t) ∧
      ((eState (strGet s id) = 2 ∨ eState (strGet s id) = 3) →
        ∃ t, exec (.streamClaim c) s = .next t ∧ eMigrate (strGet t id) = true ∧
          eState (strGet t id) = eState (strGet s id) ∧
          t.claims = s.claims ++ [⟨id, c.val, k, desc, (s.core c.val).ctx, true⟩] ∧ t.cores = s.cores ∧
          (∀ j, j < strCount s → j ≠ id → strGet t j = strGet s j) ∧ SameDevice s t)) ∧
    (streamOk s (s.core c.val).ctx id = true → freeSlotOf s c.val = none → ∀ v, victimOf s c.val = some v →
      eDirty (strGet s v) = false →
      ∃ t, exec (.streamClaim c) s = .next t ∧ eState (strGet t v) = 1 ∧ t.claims = s.claims ∧
        (∀ j, j < strCount s → j ≠ v → strGet t j = strGet s j))) ∧
  (∀ (c : CoreId) (s : State), readyClaim s c.val = none → nextClaim s c.val = none →
    exec (.streamClaim c) s = .next s) ∧
  (∀ (c : CoreId) (s : State) (k id h : Nat), loadingOn s c.val = some (k, id) → StreamsQuiet s c.val →
    strHome s id = some h →
    let v := strGet s id
    let len := imageLen (eCg v) (eRows v)
    (262144 ≤ id → memReadChk s (s.core c.val).ctx h len = .ok) → h + len ≤ stackedTop → strBase s + 32 * strCount s ≤ stackedTop →
    (List.range (eCg v * eRows v)).all (fun g => s.rdN (h + 16 + g) 1 != 0xFF) = true →
    ∃ t, exec (.streamLoaded c) s = .next t ∧ eState (strGet t id) = 3 ∧ eDirty (strGet t id) = false ∧
      t.rd (slotAddr c.val k) len = s.rd h len ∧ ((t.core c.val).strSlots.get k).loaded = true ∧
      t.rget Reg.strLoads = s.rget Reg.strLoads + 1 ∧ (∀ x, x ≠ c.val → t.core x = s.core x)) ∧
  (∀ (c : CoreId) (s : State) (k : Nat × StrSlot), StreamsQuiet s c.val →
    (s.core c.val).strSlots.cells.find? (fun k => k.2.stream != 0 && eState (strGet s (k.2.stream - 1)) == 4) = some k →
    let id := k.2.stream - 1
    let v := strGet s id
    strBase s + 32 * strCount s ≤ stackedTop → id < strCount s → eDirty v = false →
    ∃ t, exec (.streamWrittenBack c) s = .next t ∧ eState (strGet t id) = 1 ∧
      ((t.core (eCore v)).strSlots.get (eSlot v)).stream = 0 ∧
      (∀ j, j < strCount s → j ≠ id → strGet t j = strGet s j) ∧ SameDevice s t) ∧
  (∀ (c : CoreId) (s : State) (k : Nat × StrSlot), (∀ b, b ∈ s.arm.boxes.cells → b.2.inProg = []) →
    (s.core c.val).strSlots.cells.find? (fun k => k.2.stream != 0 && residentHere s c.val (k.2.stream - 1) &&
      eMigrate (strGet s (k.2.stream - 1)) && !namedHere s c.val (k.2.stream - 1)) = some k →
    let id := k.2.stream - 1
    let v := strGet s id
    strBase s + 32 * strCount s ≤ stackedTop →
    (eDirty v = false → ∃ t, exec (.migrateRelease c) s = .next t ∧ eState (strGet t id) = 1 ∧
      eMigrate (strGet t id) = false ∧ ((t.core c.val).strSlots.get (eSlot v)).stream = 0 ∧
      (∀ j, j < strCount s → j ≠ id → strGet t j = strGet s j)) ∧
    (eDirty v = true → ∀ h, strHome s id = some h → TableApart s h (imageLen (eCg v) (eRows v)) →
      ∃ t, exec (.migrateRelease c) s = .next t ∧ eState (strGet t id) = 4 ∧
        t.rd h (imageLen (eCg v) (eRows v)) = s.rd (slotAddr (eCore v) (eSlot v)) (imageLen (eCg v) (eRows v))))

/-- The training of links (R400, R401, R402, R416, R421, R441) -/
def Obligations.LinkTraining : Prop :=
  (∀ l u g : Nat, l < 32 → u < 16 → g < 4 →
    (useGroups l u).testBit g = (u.testBit g && (popCount 4 u == 4 || decide (popCount g u < 2)))) ∧
  (∀ l u : Nat, l < 32 → u < 16 → (popCount 4 u = 4 → widthCode (useGroups l u) = 3) ∧
    (popCount 4 u = 2 ∨ popCount 4 u = 3 → widthCode (useGroups l u) = 2) ∧
    (popCount 4 u = 1 → widthCode (useGroups l u) = 1)) ∧
  (∀ (n : ChainId) (s : State),
    (∃ t, exec (.chnLinkEnableSet n) s = .next t ∧ (t.rget (Reg.chnLinkCtl n.val)).getLsbD 0 = true ∧
      ((s.link n.val).st = .off → (t.link n.val).st = .detect ∧ (t.link n.val).retired = (s.link n.val).retired) ∧
      ((s.link n.val).st = .draining → (t.link n.val).st = .draining ∧ (t.link n.val).enableRec = true) ∧
      ((s.link n.val).st ≠ .off → (t.link n.val).st = (s.link n.val).st) ∧
      (∀ k, k ≠ n.val → t.link k = s.link k) ∧ SameMemory s t ∧ t.arm = s.arm ∧ t.roll = s.roll) ∧
    (∃ t, exec (.chnLinkEnableClear n) s = .next t ∧ (t.rget (Reg.chnLinkCtl n.val)).getLsbD 0 = false ∧
      ((s.link n.val).isUp = true → (t.link n.val).st = .draining) ∧
      ((s.link n.val).isUp = false → (t.link n.val).st = (s.link n.val).st) ∧
      ((s.link n.val).st = .retrain → (t.link n.val).disableRec = true) ∧
      (∀ k, k ≠ n.val → t.link k = s.link k) ∧ SameMemory s t ∧ t.arm = s.arm ∧ t.roll = s.roll)) ∧
  (∀ (l : LinkId) (g : BitVec 8) (s : State),
    let L := s.link l.val
    let seen := g.toNat &&& offered s l.val
    (L.st = .detect → seen ≠ 0 → ∃ t, exec (.detect l g) s = .next t ∧ (t.link l.val).st = .equalize ∧
      (t.link l.val).good = BitVec.ofNat 8 seen ∧ t.regs = s.regs ∧ (∀ k, k ≠ l.val → t.link k = s.link k)) ∧
    ((L.st ≠ .detect ∨ seen = 0) → exec (.detect l g) s = .next s) ∧
    (L.st = .detect → ∃ t, exec (.detectTimeout l) s = .next t ∧ (t.link l.val).st = .down ∧
      (∀ k, k ≠ l.val → t.link k = s.link k)) ∧
    (L.st ≠ .detect → exec (.detectTimeout l) s = .next s) ∧
    (L.st = .equalize → ∃ t, exec (.equalizeDone l g) s = .next t ∧ (t.link l.val).st = .align ∧
      (t.link l.val).retired.toNat = (L.retired.toNat ||| seen) ∧ (∀ k, k ≠ l.val → t.link k = s.link k)) ∧
    (L.st ≠ .equalize → exec (.equalizeDone l g) s = .next s) ∧
    (L.st = .align →
      let tried := L.good.toNat &&& (255 - L.retired.toNat)
      let usable := tried &&& g.toNat
      ∃ t, exec (.alignDone l g) s = .next t ∧ (∀ k, k ≠ l.val → t.link k = s.link k) ∧
        (t.link l.val).retired.toNat = (L.retired.toNat ||| (tried &&& (255 - g.toNat))) ∧
        (usable = 0 → (t.link l.val).st = .down) ∧
        (usable ≠ 0 → (t.link l.val).st = .exchange ∧ (t.link l.val).good = BitVec.ofNat 8 usable ∧
          (t.link l.val).groups = BitVec.ofNat 8 (useGroups l.val usable))) ∧
    (L.st ≠ .align → exec (.alignDone l g) s = .next s) ∧
    (L.st = .down → (l.val = 32 ∨ s.rbit Reg.chnCtrl 10 = true) → ∃ t, exec (.downRetry l) s = .next t ∧
      (t.link l.val).st = .detect ∧ (t.link l.val).retired = L.retired ∧ t.regs = s.regs ∧
      (∀ k, k ≠ l.val → t.link k = s.link k)) ∧
    ((L.st ≠ .down ∨ l.val ≠ 32 ∧ s.rbit Reg.chnCtrl 10 = false) → exec (.downRetry l) s = .next s) ∧
    (L.st = .draining → L.retry = [] → ∃ t, exec (.drainComplete l) s = .next t ∧
      (t.link l.val).st = (if L.enableRec then .detect else .off) ∧ t.regs = s.regs ∧
      (∀ k, k ≠ l.val → t.link k = s.link k)) ∧
    ((L.st ≠ .draining ∨ L.retry ≠ []) → exec (.drainComplete l) s = .next s)) ∧
  (∀ (l : LinkId) (p : CtrlFlit) (s : State),
    let L := s.link l.val
    let both := L.good.toNat &&& p.groups.toNat
    (L.st ≠ .exchange → exec (.exchangeDone l p) s = .next s) ∧
    (L.st = .exchange → both = 0 → ∃ t, exec (.exchangeDone l p) s = .next t ∧ (t.link l.val).st = .down ∧
      (∀ k, k ≠ l.val → t.link k = s.link k)) ∧
    (L.st = .exchange → both ≠ 0 → ∃ t, exec (.exchangeDone l p) s = .next t ∧
      (t.link l.val).good = BitVec.ofNat 8 both ∧ (t.link l.val).groups = BitVec.ofNat 8 (useGroups l.val both) ∧
      (t.link l.val).peerDev = p.srcDev ∧ (t.link l.val).peerLink = p.link ∧ (t.link l.val).peerRole = p.role ∧
      (t.link l.val).peerEpoch = p.epoch ∧ (t.link l.val).credits.req = p.creditReq.toNat ∧
      (t.link l.val).credits.rsp = p.creditRsp.toNat ∧ (t.link l.val).credits.exp = p.creditExp.toNat ∧
      (t.link l.val).txNext = 0 ∧ (t.link l.val).rxNext = 0 ∧ (t.link l.val).retry = [] ∧
      (l.val = 32 → (t.link 32).st = upState s 32 (useGroups 32 both) ∧
        t.rget Reg.cchCompFrames = BitVec.ofNat 32 p.compFrames.toNat) ∧
      (l.val ≠ 32 → afterBringUp s = false → (t.link l.val).st = .held) ∧
      (∀ k, k ≠ l.val → t.link k = s.link k)))

/-- Frames, replay, retraining and held packets (R396, R397, R399, R400, R401, R404, R407) -/
def Obligations.LinkRepair : Prop :=
  (∀ (l : LinkId) (f : Frame) (s : State), f.ctrl.length ≤ 10 →
    let L := s.link l.val
    (passesFrames L = false → exec (.frameReceive l f) s = .next s) ∧
    (passesFrames L = true → (f.failed ≠ 0 ∨ f.crcOk = false ∨ f.fseq ≠ L.rxNext) →
      ∃ t, exec (.frameReceive l f) s = .next t ∧ (t.link l.val).nakSent = true ∧ (t.link l.val).rxNext = L.rxNext ∧
        (t.link l.val).retry = L.retry ∧ (t.link l.val).credits = L.credits ∧
        t.rget (linkUncorr l.val) = s.rget (linkUncorr l.val) + 1 ∧ (∀ k, k ≠ l.val → t.link k = s.link k) ∧
        SameMemory s t ∧ t.arm = s.arm) ∧
    (passesFrames L = true → f.failed = 0 → f.crcOk = true → f.fseq = L.rxNext → (L.enc = false ∨ f.tagOk = true) →
      f.nak = false → overCredit l.val ⟨L.rxHeld.req + flitsOf f 1, L.rxHeld.rsp + flitsOf f 2, L.rxHeld.exp + flitsOf f 3⟩ = false →
      ∃ t, exec (.frameReceive l f) s = .next t ∧ (t.link l.val).rxNext = L.rxNext + 1 ∧
        (t.link l.val).nakSent = false ∧ (t.link l.val).retry = ackFrames L.retry f.ack ∧
        (t.link l.val).credits.req = (f.ctrl.map fun x => x.creditReq.toNat).foldl (· + ·) L.credits.req ∧
        (t.link l.val).rxHeld.req = L.rxHeld.req + flitsOf f 1 ∧ (t.link l.val).st = L.st ∧
        (∀ k, k ≠ l.val → t.link k = s.link k)) ∧
    (passesFrames L = true → f.failed = 0 → f.crcOk = true → f.fseq = L.rxNext → l.val < 32 → L.enc = true →
      f.tagOk = false → ∃ t, exec (.frameReceive l f) s = .next t ∧ (t.link l.val).st = .down ∧
        (t.link l.val).retry = [])) ∧
  (∀ (l : LinkId) (s : State),
    let L := s.link l.val
    (passesFrames L = true → L.retry ≠ [] → ∃ t, exec (.replayTimeout l) s = .next t ∧
      t.link l.val = { L with replays := L.replays + 1 } ∧
      t.rget (linkRetry l.val) = s.rget (linkRetry l.val) + 1 ∧ (∀ k, k ≠ l.val → t.link k = s.link k) ∧ SameMemory s t) ∧
    ((passesFrames L = false ∨ L.retry = []) → exec (.replayTimeout l) s = .next s) ∧
    (L.st = .exchange → ∃ t, exec (.ctrlFlitSend l) s = .next t ∧ t.links = s.links ∧ t.regs = s.regs ∧
      t.out.ctrl = s.out.ctrl ++ [(l.val, ctrlFlit s l.val (bufFlits l.val))]) ∧
    (passesFrames L = true → ∃ t f, exec (.ctrlFlitSend l) s = .next t ∧ t.out.ctrl = s.out.ctrl ++ [(l.val, f)] ∧
      f.creditReq.toNat = min L.owed.req 2047 ∧ f.creditRsp.toNat = min L.owed.rsp 2047 ∧
      f.creditExp.toNat = min L.owed.exp 2047 ∧ (t.link l.val).owed.req = L.owed.req - min L.owed.req 2047 ∧
      (t.link l.val).owed.rsp = L.owed.rsp - min L.owed.rsp 2047 ∧
      (t.link l.val).owed.exp = L.owed.exp - min L.owed.exp 2047 ∧ f.groups = L.good ∧ t.regs = s.regs) ∧
    (L.isUp = true → (8 ≤ L.replays ∨ 64 ≤ L.discards.length) → ∃ t, exec (.linkPermanentError l) s = .next t ∧
      (t.link l.val).st = .retrain ∧ (t.link l.val).replays = 0 ∧ (t.link l.val).discards = [] ∧
      (∀ g, worstGroup L = some g → (t.link l.val).retired.getLsbD g = true) ∧
      (∀ k, k ≠ l.val → t.link k = s.link k)) ∧
    ((L.isUp = false ∨ L.replays < 8 ∧ L.discards.length < 64) → exec (.linkPermanentError l) s = .next s) ∧
    (L.st = .retrain → ∃ t, exec (.retrainTimeout l) s = .next t ∧ (t.link l.val).st = .down ∧
      (t.link l.val).retry = [] ∧ (t.link l.val).accepted = false) ∧
    (L.st ≠ .retrain → exec (.retrainTimeout l) s = .next s) ∧
    (∀ (g : BitVec 8) (p : CtrlFlit),
      let usable := g.toNat &&& offered s l.val &&& (255 - L.retired.toNat) &&& p.groups.toNat
      let same := decide (l.val = 32) || (L.peerDev = p.srcDev && L.peerLink = p.link)
      (L.st ≠ .retrain → exec (.retrainDone l g p) s = .next s) ∧
      (L.st = .retrain → (usable = 0 ∨ same = false) → ∃ t, exec (.retrainDone l g p) s = .next t ∧
        (t.link l.val).st = .down) ∧
      (L.st = .retrain → usable ≠ 0 → same = true → ∃ t, exec (.retrainDone l g p) s = .next t ∧
        (t.link l.val).groups = BitVec.ofNat 8 (useGroups l.val usable) ∧
        (t.link l.val).st = (if L.disableRec then .draining else upState s l.val (useGroups l.val usable)) ∧
        (t.link l.val).retry = L.retry ∧ (∀ k, k ≠ l.val → t.link k = s.link k)))) ∧
  (∀ (n : ChainId) (s : State),
    let L := s.link n.val
    (L.held = [] → exec (.heldPacketRoute n) s = .next s) ∧
    (∀ p r, L.held = p :: r → L.isUp = true → L.retry = [] → canSend L p = true →
      ∃ t, exec (.heldPacketRoute n) s = .next t ∧ t.out.chn = s.out.chn ++ [(n.val, p)] ∧ (t.link n.val).held = r ∧
        t.regs = s.regs ∧ SameMemory s t) ∧
    (∀ p r, L.held = p :: r → L.isUp = false → L.st ≠ .retrain → L.st ≠ .draining →
      takesPackets (s.link ((n.val + 16) % 32)) = true →
      ∃ t, exec (.heldPacketRoute n) s = .next t ∧ (t.link n.val).held = r ∧ SameMemory s t ∧ t.regs = s.regs ∧
        (t.out.chn = s.out.chn ++ [((n.val + 16) % 32, p)] ∨
          (t.link ((n.val + 16) % 32)).held = (s.link ((n.val + 16) % 32)).held ++ [p])))

/-- Packets of other devices (R395, R407, R409 to R414) -/
def Obligations.ChainPackets : Prop :=
  (∀ (n : ChainId) (p : ChnPkt) (s : State), p.fits = true →
    (carries s n.val = false → exec (.chnRd n p) s = .next s ∧ exec (.chnWr n p) s = .next s ∧
      exec (.chnExpd n p) s = .next s ∧ exec (.chnRddata n p) s = .next s ∧ exec (.chnWrack n p) s = .next s ∧
      exec (.chnNack n p) s = .next s) ∧
    (carries s n.val = true →
      (p.dst.toNat ≠ myDev s → ∀ i, i ∈ [Instr.chnRd n p, Instr.chnWr n p, Instr.chnExpd n p] → ∃ t q, exec i s = .next t ∧
        SentChn s t n.val q ∧ q.typ = 10 ∧ q.dst = p.src ∧ q.tag = p.tag ∧ q.reason = 7 ∧
        (∀ k, k ≠ n.val → t.link k = s.link k) ∧ SameMemory s t ∧ t.cores = s.cores) ∧
      (∀ r, inboundRefusal s false p p.len.toNat = some r → ∃ t q, exec (.chnRd n p) s = .next t ∧
        SentChn s t n.val q ∧ q.typ = 10 ∧ q.dst = p.src ∧ q.tag = p.tag ∧ q.reason = BitVec.ofNat 8 r ∧
        SameMemory s t ∧ t.cores = s.cores) ∧
      (inboundRefusal s false p p.len.toNat = none → 1 ≤ p.len.toNat → ∃ t q, exec (.chnRd n p) s = .next t ∧
        SentChn s t n.val q ∧ q.typ = 8 ∧ q.dst = p.src ∧ q.tag = p.tag ∧ q.data = s.rd p.addr.toNat p.len.toNat ∧
        SameBelow s t ∧ t.cores = s.cores) ∧
      (∀ r, inboundRefusal s true p p.data.length = some r → ∃ t q, exec (.chnWr n p) s = .next t ∧
        SentChn s t n.val q ∧ q.typ = 10 ∧ q.dst = p.src ∧ q.tag = p.tag ∧ q.reason = BitVec.ofNat 8 r ∧
        SameMemory s t ∧ t.cores = s.cores) ∧
      (inboundRefusal s true p p.data.length = none → 1 ≤ p.data.length → ∃ t q, exec (.chnWr n p) s = .next t ∧
        SentChn s t n.val q ∧ q.typ = 9 ∧ q.dst = p.src ∧ q.tag = p.tag ∧
        t.rd p.addr.toNat p.data.length = p.data ∧
        (∀ a, (a < p.addr.toNat ∨ p.addr.toNat + p.data.length ≤ a) → t.mem.get a = s.mem.get a) ∧ t.cores = s.cores) ∧
      (p.dst.toNat = myDev s → s.rbit Reg.plnReady 3 = true → (s.link n.val).expHeld = [] →
        ∀ ring log units, inboxFor s p = some (ring, log, units) →
        let w := s.rdN ring 4 % 2 ^ log
        ((w + 1) % 2 ^ log ≠ s.rdN (ring + 4) 4 % 2 ^ log → ∃ t q, exec (.chnExpd n p) s = .next t ∧
          SentChn s t n.val q ∧ q.typ = 9 ∧ q.dst = p.src ∧ q.tag = p.tag ∧ t.rdN ring 4 = (w + 1) % 2 ^ log ∧
          t.rd (ring + 64 + w * units * 64 + 64) p.data.length = p.data ∧
          t.rdN (ring + 64 + w * units * 64) 2 = p.src.toNat ∧
          t.rdN (ring + 64 + w * units * 64 + 4) 2 = p.data.length ∧ (t.link n.val).expHeld = []) ∧
        ((w + 1) % 2 ^ log = s.rdN (ring + 4) 4 % 2 ^ log → ∃ t, exec (.chnExpd n p) s = .next t ∧
          (t.link n.val).expHeld = [{ p with typ := 3 }] ∧ (t.rget Reg.chnStatus).getLsbD 5 = true ∧ SameMemory s t ∧
          t.out = s.out)) ∧
      (∀ x, xferOf s p = some x → ∀ f, flightOf s x.core x.desc = some f →
        (2 ≤ f.wait → ∃ t, exec (.chnRddata n p) s = .next t ∧ (∀ y, y ∈ t.chain.xfers → y.tag ≠ x.tag) ∧ SameMemory s t ∧
            (∃ g, flightOf t x.core x.desc = some g ∧ g.wait = f.wait - 1 ∧
              ∀ i, i < x.len → i < p.data.length → g.buf.get (x.dest + i) = p.data.getD i 0)) ∧
        (f.wait = 1 → dDstMode f.word.toNat ≠ 2 → dMcast f.word.toNat = false → farSlot x.core f.word.toNat = none →
          landChk s f.word.toNat f.dsts = .ok → (∀ r, r ∈ f.dsts → rowAddr s r < compBase) →
          ∃ t, exec (.chnRddata n p) s = .next t ∧ (∀ y, y ∈ t.chain.xfers → y.tag ≠ x.tag) ∧
            (∃ g, flightOf t x.core x.desc = some g ∧ g.wait = 0 ∧ g.pending = false)) ∧
        (∃ t, exec (.chnWrack n p) s = .next t ∧ (∀ y, y ∈ t.chain.xfers → y.tag ≠ x.tag) ∧ SameMemory s t ∧
          (∃ g, flightOf t x.core x.desc = some g ∧ g.wait = f.wait - 1)) ∧
        (∃ t, exec (.chnNack n p) s = .next t ∧
          (∀ y, y ∈ t.chain.xfers → ¬(y.core = x.core ∧ y.desc = x.desc)) ∧ t.nv = s.nv)))) ∧
  (∀ (n : ChainId) (s : State),
    ((s.link n.val).expHeld = [] → exec (.inboxDeliver n) s = .next s) ∧
    (∀ p r ring log units, (s.link n.val).expHeld = p :: r → inboxFor s p = some (ring, log, units) →
      let w := s.rdN ring 4 % 2 ^ log
      ((w + 1) % 2 ^ log = s.rdN (ring + 4) 4 % 2 ^ log → exec (.inboxDeliver n) s = .next s) ∧
      ((w + 1) % 2 ^ log ≠ s.rdN (ring + 4) 4 % 2 ^ log →
        ∃ t, exec (.inboxDeliver n) s = .next t ∧
        (t.link n.val).expHeld = r ∧ t.rdN ring 4 = (w + 1) % 2 ^ log ∧
        t.rd (ring + 64 + w * units * 64 + 64) p.data.length = p.data)))

/-- Heartbeats, silence and takeover (R418, R419, R420) -/
def Obligations.ManagerRole : Prop :=
  (∀ s : State, ∃ t, exec .heartbeatTick s = .next t ∧ t.chain = { s.chain with heartbeat := s.chain.heartbeat + 1 } ∧
    (∀ n, n < 32 → ((s.link n).isUp = true ∨ (s.link n).st = .held) →
      ∃ f, (n, f) ∈ t.out.ctrl ∧ f.heartbeat = s.chain.heartbeat + 1 ∧ f.role = s.chain.role ∧ f.epoch = s.chain.epoch) ∧
    SameMemory s t ∧ t.regs = s.regs ∧ t.links = s.links ∧ SameWork s t) ∧
  (∀ s : State,
    let held := s.chain.silences.filter fun m => decide (s.now ≤ m.2 + 20000000)
    (managerSilent s = false → exec .managerSilence s = .next s) ∧
    (managerSilent s = true → ∃ t, exec .managerSilence s = .next t ∧ (t.rget Reg.chnStatus).getLsbD 0 = true ∧
      t.links = s.links ∧ t.roll = s.roll ∧ t.nv = s.nv ∧
      (s.chain.role = 2 → 7 ≤ held.length → t.chain.role = 1 ∧ t.chain.epoch = s.chain.epoch + 1 ∧
        t.chain.mgrSlot = BitVec.ofNat 4 (mySlot s) ∧ (t.rget Reg.chnStatus).getLsbD 1 = true) ∧
      (s.chain.role = 2 → held.length < 7 → t.chain = { s.chain with silent := true } ∧ SameMemory s t) ∧
      (s.chain.role ≠ 2 → t.chain = { s.chain with silent := true } ∧ SameMemory s t ∧
        (∀ k, standbySlot s = some k → ∀ n r, linksTo s k = n :: r →
          ∃ p, t.out.chn = s.out.chn ++ [(n, p)] ∧ p.typ = 2 ∧ p.addr = 1 ∧ p.dst = BitVec.ofNat 14 (myPod s * 16 + k))))) ∧
  (∀ (n : ChainId) (slot : BitVec 4) (epoch : BitVec 16) (s : State),
    ((carries s n.val = false ∨ epoch.toNat < s.chain.epoch.toNat) → exec (.silence n slot epoch) s = .next s ∧
      exec (.managerChange n slot epoch) s = .next s) ∧
    (carries s n.val = true → epoch = s.chain.epoch → s.chain.role = 2 →
      let l := (s.chain.silences.filter (·.1 != slot.toNat)) ++ [(slot.toNat, s.now)]
      let held := l.filter fun m => decide (s.now ≤ m.2 + 20000000)
      ∃ t, exec (.silence n slot epoch) s = .next t ∧ t.links = s.links ∧ t.roll = s.roll ∧
        ((s.chain.silent = false ∨ held.length < 7) → t.chain = { s.chain with silences := l } ∧ SameMemory s t) ∧
        (s.chain.silent = true → 7 ≤ held.length → t.chain.role = 1 ∧ t.chain.epoch = s.chain.epoch + 1)) ∧
    (carries s n.val = true → s.chain.epoch.toNat < epoch.toNat → s.chain.role ≠ 1 →
      ∃ t, exec (.managerChange n slot epoch) s = .next t ∧ t.chain = { s.chain with
        epoch := epoch, mgrSlot := slot, mgrValid := true, mgrBeatAt := s.now } ∧ SameMemory s t ∧ t.regs = s.regs ∧
        SameWork s t) ∧
    (carries s n.val = true → s.chain.epoch.toNat < epoch.toNat → s.chain.role = 1 →
      ∃ t, exec (.managerChange n slot epoch) s = .next t ∧ t.chain.role = 0 ∧ t.chain.epoch = epoch ∧
        t.chain.mgrSlot = slot ∧ (t.rget Reg.chnStatus).getLsbD 2 = true ∧ t.nv = s.nv))

/-- How the control space answers the companion (R429, R433, R434, R435, R442) -/
def Obligations.CompanionAccess : Prop :=
  ∀ (p : CchPkt) (s : State), p.fits = true →
    let off := p.addr.toNat
    let n := p.len.toNat
    ((s.link 32).isUp = false → exec (.rdShared p) s = .next s ∧ exec (.rdUncached p) s = .next s ∧
      exec (.couchWr p) s = .next s ∧ exec (.wrPartial p) s = .next s ∧ exec (.rdOwn p) s = .next s ∧
      exec (.evict p) s = .next s ∧ exec (.snpInv p) s = .next s ∧ exec (.snpData p) s = .next s ∧
      exec (.couchData p) s = .next s ∧ exec (.couchAck p) s = .next s ∧ exec (.couchNack p) s = .next s ∧
      exec (.snpRsp p) s = .next s) ∧
    ((s.link 32).isUp = true →
      (wellRequested p true = true → ctlServes s off = true → ctlArea off = .mailboxes →
        (∃ t q, exec (.rdShared p) s = .next t ∧ t.out.cch = s.out.cch ++ [q] ∧ q.typ = 12 ∧ q.tag = p.tag ∧
          q.addr = p.addr ∧ q.data = ctlRead (consumeCch s 0 p) off n ∧ SameMemory s t ∧ t.regs = s.regs ∧
          (∀ l, l ∈ linesOf off n → t.couch.dir.get l = 1) ∧
          (∀ l, l ∉ linesOf off n → t.couch.dir.get l = s.couch.dir.get l)) ∧
        (n = 64 → ∃ t q, exec (.rdOwn p) s = .next t ∧ t.out.cch = s.out.cch ++ [q] ∧ q.typ = 12 ∧ q.tag = p.tag ∧
          q.data = ctlRead (consumeCch s 4 p) off 64 ∧ SameMemory s t ∧ t.couch.dir.get (off / 64) = 2 ∧
          (∀ l, l ∉ linesOf off 64 → t.couch.dir.get l = s.couch.dir.get l)) ∧
        (p.data.length = n → (s.box (boxOf off)).covered = 0 →
          ((linesOf off n).any fun l => isDoorbell (ctlView (64 * l))) = false →
          ∃ t q, exec (.couchWr p) s = .next t ∧ t.out.cch = s.out.cch ++ [q] ∧ q.typ = 13 ∧ q.tag = p.tag ∧
            (∀ j, j < n → (off + j) % 0x10000 < 0x2000 → t.mem.get (csAddr (off + j)) = p.data.getD j 0) ∧
            (∀ a, (a < csAddr off ∨ csAddr off + n ≤ a) → t.mem.get a = s.mem.get a) ∧ t.regs = s.regs) ∧
        (n = 64 → p.data.length = 64 → isDoorbell (ctlView off) = false → (s.box (boxOf off)).covered = 0 →
          ∃ t q, exec (.wrPartial p) s = .next t ∧ t.out.cch = s.out.cch ++ [q] ∧ q.typ = 13 ∧ q.tag = p.tag ∧
            (∀ j, j < 64 → (off + j) % 0x10000 < 0x2000 → t.mem.get (csAddr (off + j)) =
              if p.mask.getLsbD j then p.data.getD j 0 else s.mem.get (csAddr (off + j))) ∧
            (∀ a, (a < csAddr off ∨ csAddr off + 64 ≤ a) → t.mem.get a = s.mem.get a) ∧ t.regs = s.regs)) ∧
      (wellRequested p true = true → ctlServes s off = true → ctlArea off ≠ .mailboxes → ctlArea off ≠ .reserved →
        ∃ t q, exec (.rdShared p) s = .next t ∧ t.out.cch = s.out.cch ++ [q] ∧ q.typ = 14 ∧ q.status = 2 ∧
          (t.rget Reg.cchStatus).getLsbD 7 = true ∧ SameMemory s t ∧ t.couch.dir = s.couch.dir) ∧
      (wellRequested p false = true → (List.range n).all (fun i => ctlServes s (off + i)) = true →
        ctlArea off ≠ .reserved → ∃ t q, exec (.rdUncached p) s = .next t ∧ t.out.cch = s.out.cch ++ [q] ∧
          q.typ = 12 ∧ q.tag = p.tag ∧ q.data = ctlRead (consumeCch s 1 p) off n ∧ SameMemory s t ∧ t.regs = s.regs ∧
          t.couch = s.couch) ∧
      (ctlArea off = .reserved →
        ∃ t q, exec (.rdUncached p) s = .next t ∧ t.out.cch = s.out.cch ++ [q] ∧ q.typ = 14 ∧ q.status = 1 ∧
          q.tag = p.tag ∧ (t.rget Reg.cchStatus).getLsbD 6 = true ∧ SameMemory s t ∧ t.couch = s.couch) ∧
      (wellRequested p true = true → n = 64 → p.data.length = 64 → ctlArea off = .registers →
        ∀ b k, maskWord p.mask = some (b, k) → ctlServes s (off + b) = true → ctlServes s (off + b + k - 1) = true →
          exec (.wrPartial p) s =
            .next (ackCch (ctlWrite (consumeCch s 3 p) (off + b) k (leNat ((p.data.drop b).take k))) p)) ∧
      (p.space = true → off % 64 = 0 → ctlServes s off = true → ctlArea off = .mailboxes →
        isDoorbell (ctlView off) = false → (s.box (boxOf off)).covered = 0 → (s.box (boxOf off)).outbox = [] →
        ∃ t q, exec (.evict p) s = .next t ∧ t.out.cch = s.out.cch ++ [q] ∧ q.typ = 13 ∧ q.tag = p.tag ∧
          t.couch.dir.get (off / 64) = 0 ∧ t.regs = s.regs ∧
          (s.couch.dir.get (off / 64) = 2 → p.data.length = 64 → ∀ j, j < 64 → (off + j) % 0x10000 < 0x2000 →
            t.mem.get (csAddr (off + j)) = p.data.getD j 0) ∧
          (s.couch.dir.get (off / 64) ≠ 2 → SameMemory s t)))

/-- What snoops and the companion's answers do (R312, R429, R430, R432, R435, R438, R439) -/
def Obligations.CompanionAnswers : Prop :=
  (∀ (p : CchPkt) (s : State), p.fits = true → (s.link 32).isUp = true →
    let line := p.addr.toNat / 64
    (∃ t q, exec (.snpInv p) s = .next t ∧ t.out.cch = s.out.cch ++ [q] ∧ q.typ = 15 ∧ q.tag = p.tag ∧
      q.addr = p.addr ∧ q.keepS = false ∧ q.data = [] ∧ SameMemory s t ∧ t.regs = s.regs ∧ t.now = s.now ∧
      (p.space = false → line ∉ t.couch.cache ∧ ∀ l, l ≠ line → (l ∈ t.couch.cache ↔ l ∈ s.couch.cache))) ∧
    (∃ t q, exec (.snpData p) s = .next t ∧ t.out.cch = s.out.cch ++ [q] ∧ q.typ = 15 ∧ q.tag = p.tag ∧
      q.addr = p.addr ∧ q.data = [] ∧ (q.keepS = true ↔ p.space = false ∧ line ∈ s.couch.cache) ∧
      t.couch.cache = s.couch.cache ∧ SameMemory s t ∧ t.regs = s.regs ∧ t.now = s.now)) ∧
  (∀ (p : CchPkt) (s : State) (r : CchReq), p.fits = true → (s.link 32).isUp = true →
    s.couch.reqs.find? (·.tag == p.tag) = some r →
    (∀ x c id lin n f, r.use = .dmv x c id lin n → p.data.length = n → flightOf s c id = some f → 2 ≤ f.wait →
      s.rbit Reg.cchCtrl 0 = false →
      ∃ t, exec (.couchData p) s = .next t ∧ (∀ y, y ∈ t.couch.reqs → y.tag ≠ p.tag) ∧
        t.rd (compBase + r.addr) n = p.data ∧
        (∀ a, (a < compBase + r.addr ∨ compBase + r.addr + n ≤ a) → t.mem.get a = s.mem.get a) ∧
        (∃ g, flightOf t c id = some g ∧ g.wait = f.wait - 1 ∧ ∀ i, i < n → g.buf.get (lin + i) = p.data.getD i 0)) ∧
    (∀ page slot, r.use = .vatImport page slot → ∃ t, exec (.couchData p) s = .next t ∧
      ((t.page page).bad = true ↔ (s.page page).bad = true ∨ p.poison ≠ 0 ∨ s.vat.swapPoison.get slot ≠ 0) ∧
      (t.page page).st = (s.page page).st ∧ SameMemory s t ∧ t.regs = s.regs) ∧
    (∀ x c id f, r.use = .dmvWrite x c id → flightOf s c id = some f →
      ∃ t, exec (.couchAck p) s = .next t ∧ (∀ y, y ∈ t.couch.reqs → y.tag ≠ p.tag) ∧ SameMemory s t ∧
        (∃ g, flightOf t c id = some g ∧ g.wait = f.wait - 1)) ∧
    (∀ m, r.use = .notify m →
      (∃ t, exec (.couchAck p) s = .next t ∧ t.couch.reqs = s.couch.reqs.filter (·.tag != p.tag) ∧ SameMemory s t ∧
        t.regs = s.regs ∧ t.cores = s.cores) ∧
      (∃ t, exec (.couchNack p) s = .next t ∧ (t.rget Reg.cchStatus).getLsbD 10 = true ∧ SameMemory s t ∧
        t.cores = s.cores)) ∧
    (∀ x c id, r.use = .dmvWrite x c id → (s.core c).ctx = x → (flightOf s c id).isSome = true →
      ∃ u, exec (.couchNack p) s = .next (coreFault u c 2 0) ∧ SameMemory s u ∧ u.cores = s.cores) ∧
    (∀ page, r.use = .vatExport page → ∃ t, exec (.couchNack p) s = .next t ∧ t.nv = s.nv ∧ t.regs = s.regs ∧
      (t.page page).other = 0 ∧ t.vat.swap.get (s.page page).other = 0)) ∧
  (∀ (p : CchPkt) (s : State) (n : Snoop), p.fits = true → (s.link 32).isUp = true →
    s.couch.snoops.find? (·.tag == p.tag) = some n →
    let off := 64 * n.line
    (s.box (boxOf off)).covered = 0 → (s.box (boxOf off)).outbox = [] → isDoorbell (ctlView off) = false →
    ∃ t, exec (.snpRsp p) s = .next t ∧ t.couch.snoops = s.couch.snoops.filter (·.tag != p.tag) ∧
      t.couch.dir.get n.line = (if p.keepS && !n.inv then 1 else 0) ∧ t.regs = s.regs ∧
      (p.data.length = 64 → ∀ j, j < 64 → (off + j) % 0x10000 < 0x2000 →
        t.mem.get (csAddr (off + j)) = p.data.getD j 0) ∧ (p.data.length ≠ 64 → SameMemory s t)) ∧
  (∀ (l : Fin 1048576) (s : State),
    (∀ n, s.couch.snoops.find? (fun n => n.line == l.val && !n.late) = some n →
      ∃ t, exec (.snoopLate l) s = .next t ∧ (t.rget Reg.cchStatus).getLsbD 5 = true ∧ t.cores = s.cores ∧
        t.roll = s.roll ∧ t.nv = s.nv ∧ (∀ k, k ∈ t.couch.snoops → k.tag = n.tag → k.line = n.line → k.late = true)) ∧
    (s.couch.snoops.find? (fun n => n.line == l.val && !n.late) = none → exec (.snoopLate l) s = .next s))

/-- Every step keeps the canonical form of memory, poison, tags and registers (the form is the model's own, DESIGN CHOICE, log 2) -/
def Obligations.MemoryForm : Prop :=
  ∀ s t : State, s.memWf = true → step s = .next t → t.memWf = true

/-- What the state after reset holds (R424, R445, R514, R573); memory that nothing has written is listed nowhere -/
def Obligations.ResetForm : Prop :=
  State.reset.memWf = true ∧ State.reset.pending = [] ∧ State.reset.mem.cells = [] ∧ State.reset.poison.cells = [] ∧
  State.reset.mod.inReset = true ∧ State.reset.mod.converters = false ∧ State.reset.cores.cells = [] ∧
  State.reset.vat.map.cells = [] ∧ (∀ m, State.reset.wmk.mr.get m = 0) ∧
  (∀ a, State.reset.rget a = regReset a) ∧
  State.reset.rnat Reg.thmPwrLimit = 3600 ∧ State.reset.rnat Reg.thmJuncHi = 100 ∧ State.reset.rnat Reg.thmJuncLo = 95 ∧
  State.reset.rnat Reg.chnCtrl = 0x400 ∧ State.reset.rnat Reg.cchCtrl = 1 ∧
  (∀ q, q < 128 → State.reset.rnat (Reg.thmCeil q) = 48) ∧ (∀ n, n < 32 → State.reset.rnat (Reg.chnLinkCtl n) = 1)

/-- A fuse once burned stays burned, through every command, module reset and loss of power included (R504) -/
def Obligations.FusesStand : Prop :=
  ∀ s t : State, step s = .next t →
    (∀ k, s.nv.fwRevoked.getLsbD k = true → t.nv.fwRevoked.getLsbD k = true) ∧
    (∀ k, s.nv.ownerRevoked.getLsbD k = true → t.nv.ownerRevoked.getLsbD k = true) ∧
    s.nv.svnMin ≤ t.nv.svnMin
end

