-- ==== Sys2Proof/Laws/Sparse.lean ====
section
/-! SUPPORT. The laws of sparse maps: reading after writing, and that every operation keeps the canonical form. -/

namespace Sys2Proof.Machine

section
variable {α : Type}

theorem SMap.find_ins_same (k : Nat) (v : α) : ∀ l : List (Nat × α), SMap.find (SMap.ins k v l) k = some v
  | [] => by simp [SMap.ins, SMap.find]
  | (a, w) :: r => by
    have ih := SMap.find_ins_same k v r
    simp only [SMap.ins]
    split
    · simp [SMap.find]
    · split
      · simp [SMap.find]
      · rename_i h; simp [SMap.find, h, ih]

theorem SMap.find_ins_ne {k j : Nat} (h : j ≠ k) (v : α) :
    ∀ l : List (Nat × α), SMap.find (SMap.ins k v l) j = SMap.find l j
  | [] => by simp [SMap.ins, SMap.find, h]
  | (a, w) :: r => by
    have ih := SMap.find_ins_ne h v r
    simp only [SMap.ins]
    split
    · simp [SMap.find, h]
    · split
      · rename_i e; subst e; simp [SMap.find, h]
      · simp [SMap.find, ih]

theorem SMap.find_del_same (k : Nat) : ∀ l : List (Nat × α), SMap.find (SMap.del k l) k = none
  | [] => by simp [SMap.del, SMap.find]
  | (a, w) :: r => by
    have ih := SMap.find_del_same k r
    simp only [SMap.del]
    split
    · exact ih
    · rename_i h; simp [SMap.find, h, ih]

theorem SMap.find_del_ne {k j : Nat} (h : j ≠ k) :
    ∀ l : List (Nat × α), SMap.find (SMap.del k l) j = SMap.find l j
  | [] => by simp [SMap.del, SMap.find]
  | (a, w) :: r => by
    have ih := SMap.find_del_ne h r
    simp only [SMap.del]
    split
    · rename_i e; subst e; simp [SMap.find, h, ih]
    · simp [SMap.find, ih]

/-! The canonical form -/

/-- The keys of a list rise strictly, and are above a bound. -/
theorem SMap.rising_mono {a b : Nat} (h : a ≤ b) : ∀ {l : List (Nat × α)},
    SMap.rising (some b) l = true → SMap.rising (some a) l = true
  | [], _ => rfl
  | (c, w) :: r, hr => by
    simp only [SMap.rising, Bool.and_eq_true, decide_eq_true_eq] at hr ⊢
    exact ⟨by omega, hr.2⟩

theorem SMap.rising_ins (k : Nat) (v : α) : ∀ (lo : Option Nat) (l : List (Nat × α)),
    (match lo with | none => true | some b => decide (b < k)) = true → SMap.rising lo l = true →
    SMap.rising lo (SMap.ins k v l) = true
  | lo, [], hk, _ => by cases lo <;> simp_all [SMap.ins, SMap.rising]
  | lo, (a, w) :: r, hk, hr => by
    simp only [SMap.rising, Bool.and_eq_true] at hr
    simp only [SMap.ins]
    split
    · rename_i h; simp only [SMap.rising, Bool.and_eq_true]; exact ⟨hk, by simpa using h, hr.2⟩
    · split
      · rename_i e; subst e; simp only [SMap.rising, Bool.and_eq_true]; exact ⟨hk, hr.2⟩
      · simp only [SMap.rising, Bool.and_eq_true]
        exact ⟨hr.1, SMap.rising_ins k v (some a) r (by simp; omega) hr.2⟩

theorem SMap.rising_filter (p : Nat × α → Bool) : ∀ (lo : Option Nat) (l : List (Nat × α)),
    SMap.rising lo l = true → SMap.rising lo (l.filter p) = true
  | _, [], _ => rfl
  | lo, (a, w) :: r, hr => by
    simp only [SMap.rising, Bool.and_eq_true] at hr
    by_cases hp : p (a, w)
    · simp only [List.filter_cons, hp, if_true, SMap.rising, Bool.and_eq_true]
      exact ⟨hr.1, SMap.rising_filter p (some a) r hr.2⟩
    · simp only [List.filter_cons, hp]
      have h2 := SMap.rising_filter p (some a) r hr.2
      cases lo with
      | none =>
        show SMap.rising none (r.filter p) = true
        cases hc : r.filter p with
        | nil => rfl
        | cons x t =>
          rw [hc] at h2
          simp only [SMap.rising, Bool.and_eq_true] at h2 ⊢
          exact ⟨trivial, h2.2⟩
      | some b =>
        exact SMap.rising_mono (by simpa using Nat.le_of_lt (by simpa using hr.1)) h2

theorem SMap.del_eq_filter (k : Nat) : ∀ l : List (Nat × α), SMap.del k l = l.filter fun c => decide (k ≠ c.1)
  | [] => rfl
  | (a, w) :: r => by
    simp only [SMap.del, SMap.del_eq_filter k r, List.filter_cons]
    split <;> simp_all

theorem SMap.all_ins (k : Nat) (v : α) (p : Nat × α → Bool) (hv : p (k, v) = true) : ∀ l : List (Nat × α),
    l.all p = true → (SMap.ins k v l).all p = true
  | [], _ => by simp [SMap.ins, hv]
  | (a, w) :: r, h => by
    simp only [List.all_cons, Bool.and_eq_true] at h
    simp only [SMap.ins]
    split
    · simp [hv, h]
    · split
      · simp [hv, h.2]
      · simp [h.1, SMap.all_ins k v p hv r h.2]

variable [Inhabited α] [DecidableEq α]

/-- Reading the key written gives the value written. -/
@[simp] theorem SMap.get_set_same (m : SMap α) (k : Nat) (v : α) : (m.set k v).get k = v := by
  unfold SMap.set SMap.get
  split
  · rename_i h; simp [SMap.find_del_same, h]
  · simp [SMap.find_ins_same]

/-- Writing a key leaves every other key alone. -/
theorem SMap.get_set_ne {k j : Nat} (h : j ≠ k) (m : SMap α) (v : α) : (m.set k v).get j = m.get j := by
  unfold SMap.set SMap.get
  split
  · simp [SMap.find_del_ne h]
  · simp [SMap.find_ins_ne h]

/-- Reading after writing, both cases. -/
theorem SMap.get_set (m : SMap α) (k j : Nat) (v : α) : (m.set k v).get j = if j = k then v else m.get j := by
  split
  · rename_i h; rw [h, SMap.get_set_same]
  · rename_i h; exact SMap.get_set_ne h m v

@[simp] theorem SMap.get_mod_same (m : SMap α) (k : Nat) (f : α → α) : (m.mod k f).get k = f (m.get k) :=
  SMap.get_set_same m k _

theorem SMap.get_mod_ne {k j : Nat} (h : j ≠ k) (m : SMap α) (f : α → α) : (m.mod k f).get j = m.get j :=
  SMap.get_set_ne h m _

theorem SMap.wf_filter (m : SMap α) (p : Nat × α → Bool) (h : m.wf = true) :
    (SMap.wf ⟨m.cells.filter p⟩ : Bool) = true := by
  simp only [SMap.wf, Bool.and_eq_true] at h ⊢
  exact ⟨SMap.rising_filter p none _ h.1, by
    rw [List.all_eq_true] at h ⊢
    intro x hx; exact h.2 x ((List.mem_filter.mp hx).1)⟩

/-- Writing a key keeps the canonical form. -/
theorem SMap.wf_set (m : SMap α) (k : Nat) (v : α) (h : m.wf = true) : (m.set k v).wf = true := by
  unfold SMap.set
  split
  · rw [SMap.del_eq_filter]; exact SMap.wf_filter m _ h
  · rename_i hv
    simp only [SMap.wf, Bool.and_eq_true] at h ⊢
    exact ⟨SMap.rising_ins k v none _ rfl h.1, SMap.all_ins k v _ (by simpa using hv) _ h.2⟩

theorem SMap.wf_mod (m : SMap α) (k : Nat) (f : α → α) (h : m.wf = true) : (m.mod k f).wf = true :=
  SMap.wf_set m k _ h

theorem SMap.wf_clear (m : SMap α) (lo hi : Nat) (h : m.wf = true) : (m.clear lo hi).wf = true :=
  SMap.wf_filter m _ h

theorem SMap.wf_empty : (⟨[]⟩ : SMap α).wf = true := rfl

theorem SMap.wf_foldl {β : Type} (f : SMap α → β → SMap α) (hf : ∀ m b, m.wf = true → (f m b).wf = true) :
    ∀ (l : List β) (m : SMap α), m.wf = true → (l.foldl f m).wf = true
  | [], _, h => h
  | b :: r, m, h => SMap.wf_foldl f hf r (f m b) (hf m b h)

theorem SMap.wf_mapAll (m : SMap α) (f : Nat → α → α) (h : m.wf = true) : (m.mapAll f).wf = true :=
  SMap.wf_foldl _ (fun m _ h => SMap.wf_set m _ _ h) _ _ h

theorem SMap.wf_copyTo (m : SMap α) (src n dst : Nat) (h : m.wf = true) : (m.copyTo src n dst).wf = true :=
  SMap.wf_foldl _ (fun m _ h => SMap.wf_set m _ _ h) _ _ (SMap.wf_clear m _ _ h)

end

end Sys2Proof.Machine
end

