-- ==== Sys2Proof/Laws/State.lean ====
section
/-! SUPPORT. What each update of the state leaves alone, field by field and accessor by accessor, and what it changes:
no proof unfolds a record update. -/

namespace Sys2Proof.Machine

/-! Fields -/

@[simp] theorem State.rset_pending (s : State) (a : Nat) (v : Word32) : (s.rset a v).pending = s.pending := rfl
@[simp] theorem State.rset_now (s : State) (a : Nat) (v : Word32) : (s.rset a v).now = s.now := rfl
@[simp] theorem State.rset_fresh (s : State) (a : Nat) (v : Word32) : (s.rset a v).fresh = s.fresh := rfl
@[simp] theorem State.rset_mem (s : State) (a : Nat) (v : Word32) : (s.rset a v).mem = s.mem := rfl
@[simp] theorem State.rset_poison (s : State) (a : Nat) (v : Word32) : (s.rset a v).poison = s.poison := rfl
@[simp] theorem State.rset_rect (s : State) (a : Nat) (v : Word32) : (s.rset a v).rect = s.rect := rfl
@[simp] theorem State.rset_pkg (s : State) (a : Nat) (v : Word32) : (s.rset a v).pkg = s.pkg := rfl
@[simp] theorem State.rset_mod (s : State) (a : Nat) (v : Word32) : (s.rset a v).mod = s.mod := rfl
@[simp] theorem State.rset_wmk (s : State) (a : Nat) (v : Word32) : (s.rset a v).wmk = s.wmk := rfl
@[simp] theorem State.rset_nv (s : State) (a : Nat) (v : Word32) : (s.rset a v).nv = s.nv := rfl
@[simp] theorem State.rset_links (s : State) (a : Nat) (v : Word32) : (s.rset a v).links = s.links := rfl
@[simp] theorem State.rset_chain (s : State) (a : Nat) (v : Word32) : (s.rset a v).chain = s.chain := rfl
@[simp] theorem State.rset_couch (s : State) (a : Nat) (v : Word32) : (s.rset a v).couch = s.couch := rfl
@[simp] theorem State.rset_arm (s : State) (a : Nat) (v : Word32) : (s.rset a v).arm = s.arm := rfl
@[simp] theorem State.rset_out (s : State) (a : Nat) (v : Word32) : (s.rset a v).out = s.out := rfl
@[simp] theorem State.rset_cores (s : State) (a : Nat) (v : Word32) : (s.rset a v).cores = s.cores := rfl
@[simp] theorem State.rset_saved (s : State) (a : Nat) (v : Word32) : (s.rset a v).saved = s.saved := rfl
@[simp] theorem State.rset_quires (s : State) (a : Nat) (v : Word32) : (s.rset a v).quires = s.quires := rfl
@[simp] theorem State.rset_claims (s : State) (a : Nat) (v : Word32) : (s.rset a v).claims = s.claims := rfl
@[simp] theorem State.rset_strFresh (s : State) (a : Nat) (v : Word32) : (s.rset a v).strFresh = s.strFresh := rfl
@[simp] theorem State.rset_roll (s : State) (a : Nat) (v : Word32) : (s.rset a v).roll = s.roll := rfl
@[simp] theorem State.rset_vat (s : State) (a : Nat) (v : Word32) : (s.rset a v).vat = s.vat := rfl
@[simp] theorem State.rset_cal (s : State) (a : Nat) (v : Word32) : (s.rset a v).cal = s.cal := rfl
@[simp] theorem State.rset_stk (s : State) (a : Nat) (v : Word32) : (s.rset a v).stk = s.stk := rfl
@[simp] theorem State.ror_pending (s : State) (a b : Nat) : (s.ror a b).pending = s.pending := rfl
@[simp] theorem State.ror_now (s : State) (a b : Nat) : (s.ror a b).now = s.now := rfl
@[simp] theorem State.ror_fresh (s : State) (a b : Nat) : (s.ror a b).fresh = s.fresh := rfl
@[simp] theorem State.ror_mem (s : State) (a b : Nat) : (s.ror a b).mem = s.mem := rfl
@[simp] theorem State.ror_poison (s : State) (a b : Nat) : (s.ror a b).poison = s.poison := rfl
@[simp] theorem State.ror_rect (s : State) (a b : Nat) : (s.ror a b).rect = s.rect := rfl
@[simp] theorem State.ror_pkg (s : State) (a b : Nat) : (s.ror a b).pkg = s.pkg := rfl
@[simp] theorem State.ror_mod (s : State) (a b : Nat) : (s.ror a b).mod = s.mod := rfl
@[simp] theorem State.ror_wmk (s : State) (a b : Nat) : (s.ror a b).wmk = s.wmk := rfl
@[simp] theorem State.ror_nv (s : State) (a b : Nat) : (s.ror a b).nv = s.nv := rfl
@[simp] theorem State.ror_links (s : State) (a b : Nat) : (s.ror a b).links = s.links := rfl
@[simp] theorem State.ror_chain (s : State) (a b : Nat) : (s.ror a b).chain = s.chain := rfl
@[simp] theorem State.ror_couch (s : State) (a b : Nat) : (s.ror a b).couch = s.couch := rfl
@[simp] theorem State.ror_arm (s : State) (a b : Nat) : (s.ror a b).arm = s.arm := rfl
@[simp] theorem State.ror_out (s : State) (a b : Nat) : (s.ror a b).out = s.out := rfl
@[simp] theorem State.ror_cores (s : State) (a b : Nat) : (s.ror a b).cores = s.cores := rfl
@[simp] theorem State.ror_saved (s : State) (a b : Nat) : (s.ror a b).saved = s.saved := rfl
@[simp] theorem State.ror_quires (s : State) (a b : Nat) : (s.ror a b).quires = s.quires := rfl
@[simp] theorem State.ror_claims (s : State) (a b : Nat) : (s.ror a b).claims = s.claims := rfl
@[simp] theorem State.ror_strFresh (s : State) (a b : Nat) : (s.ror a b).strFresh = s.strFresh := rfl
@[simp] theorem State.ror_roll (s : State) (a b : Nat) : (s.ror a b).roll = s.roll := rfl
@[simp] theorem State.ror_vat (s : State) (a b : Nat) : (s.ror a b).vat = s.vat := rfl
@[simp] theorem State.ror_cal (s : State) (a b : Nat) : (s.ror a b).cal = s.cal := rfl
@[simp] theorem State.ror_stk (s : State) (a b : Nat) : (s.ror a b).stk = s.stk := rfl
@[simp] theorem State.rclr_pending (s : State) (a b : Nat) : (s.rclr a b).pending = s.pending := rfl
@[simp] theorem State.rclr_now (s : State) (a b : Nat) : (s.rclr a b).now = s.now := rfl
@[simp] theorem State.rclr_fresh (s : State) (a b : Nat) : (s.rclr a b).fresh = s.fresh := rfl
@[simp] theorem State.rclr_mem (s : State) (a b : Nat) : (s.rclr a b).mem = s.mem := rfl
@[simp] theorem State.rclr_poison (s : State) (a b : Nat) : (s.rclr a b).poison = s.poison := rfl
@[simp] theorem State.rclr_rect (s : State) (a b : Nat) : (s.rclr a b).rect = s.rect := rfl
@[simp] theorem State.rclr_pkg (s : State) (a b : Nat) : (s.rclr a b).pkg = s.pkg := rfl
@[simp] theorem State.rclr_mod (s : State) (a b : Nat) : (s.rclr a b).mod = s.mod := rfl
@[simp] theorem State.rclr_wmk (s : State) (a b : Nat) : (s.rclr a b).wmk = s.wmk := rfl
@[simp] theorem State.rclr_nv (s : State) (a b : Nat) : (s.rclr a b).nv = s.nv := rfl
@[simp] theorem State.rclr_links (s : State) (a b : Nat) : (s.rclr a b).links = s.links := rfl
@[simp] theorem State.rclr_chain (s : State) (a b : Nat) : (s.rclr a b).chain = s.chain := rfl
@[simp] theorem State.rclr_couch (s : State) (a b : Nat) : (s.rclr a b).couch = s.couch := rfl
@[simp] theorem State.rclr_arm (s : State) (a b : Nat) : (s.rclr a b).arm = s.arm := rfl
@[simp] theorem State.rclr_out (s : State) (a b : Nat) : (s.rclr a b).out = s.out := rfl
@[simp] theorem State.rclr_cores (s : State) (a b : Nat) : (s.rclr a b).cores = s.cores := rfl
@[simp] theorem State.rclr_saved (s : State) (a b : Nat) : (s.rclr a b).saved = s.saved := rfl
@[simp] theorem State.rclr_quires (s : State) (a b : Nat) : (s.rclr a b).quires = s.quires := rfl
@[simp] theorem State.rclr_claims (s : State) (a b : Nat) : (s.rclr a b).claims = s.claims := rfl
@[simp] theorem State.rclr_strFresh (s : State) (a b : Nat) : (s.rclr a b).strFresh = s.strFresh := rfl
@[simp] theorem State.rclr_roll (s : State) (a b : Nat) : (s.rclr a b).roll = s.roll := rfl
@[simp] theorem State.rclr_vat (s : State) (a b : Nat) : (s.rclr a b).vat = s.vat := rfl
@[simp] theorem State.rclr_cal (s : State) (a b : Nat) : (s.rclr a b).cal = s.cal := rfl
@[simp] theorem State.rclr_stk (s : State) (a b : Nat) : (s.rclr a b).stk = s.stk := rfl
@[simp] theorem State.radd_pending (s : State) (a n : Nat) : (s.radd a n).pending = s.pending := rfl
@[simp] theorem State.radd_now (s : State) (a n : Nat) : (s.radd a n).now = s.now := rfl
@[simp] theorem State.radd_fresh (s : State) (a n : Nat) : (s.radd a n).fresh = s.fresh := rfl
@[simp] theorem State.radd_mem (s : State) (a n : Nat) : (s.radd a n).mem = s.mem := rfl
@[simp] theorem State.radd_poison (s : State) (a n : Nat) : (s.radd a n).poison = s.poison := rfl
@[simp] theorem State.radd_rect (s : State) (a n : Nat) : (s.radd a n).rect = s.rect := rfl
@[simp] theorem State.radd_pkg (s : State) (a n : Nat) : (s.radd a n).pkg = s.pkg := rfl
@[simp] theorem State.radd_mod (s : State) (a n : Nat) : (s.radd a n).mod = s.mod := rfl
@[simp] theorem State.radd_wmk (s : State) (a n : Nat) : (s.radd a n).wmk = s.wmk := rfl
@[simp] theorem State.radd_nv (s : State) (a n : Nat) : (s.radd a n).nv = s.nv := rfl
@[simp] theorem State.radd_links (s : State) (a n : Nat) : (s.radd a n).links = s.links := rfl
@[simp] theorem State.radd_chain (s : State) (a n : Nat) : (s.radd a n).chain = s.chain := rfl
@[simp] theorem State.radd_couch (s : State) (a n : Nat) : (s.radd a n).couch = s.couch := rfl
@[simp] theorem State.radd_arm (s : State) (a n : Nat) : (s.radd a n).arm = s.arm := rfl
@[simp] theorem State.radd_out (s : State) (a n : Nat) : (s.radd a n).out = s.out := rfl
@[simp] theorem State.radd_cores (s : State) (a n : Nat) : (s.radd a n).cores = s.cores := rfl
@[simp] theorem State.radd_saved (s : State) (a n : Nat) : (s.radd a n).saved = s.saved := rfl
@[simp] theorem State.radd_quires (s : State) (a n : Nat) : (s.radd a n).quires = s.quires := rfl
@[simp] theorem State.radd_claims (s : State) (a n : Nat) : (s.radd a n).claims = s.claims := rfl
@[simp] theorem State.radd_strFresh (s : State) (a n : Nat) : (s.radd a n).strFresh = s.strFresh := rfl
@[simp] theorem State.radd_roll (s : State) (a n : Nat) : (s.radd a n).roll = s.roll := rfl
@[simp] theorem State.radd_vat (s : State) (a n : Nat) : (s.radd a n).vat = s.vat := rfl
@[simp] theorem State.radd_cal (s : State) (a n : Nat) : (s.radd a n).cal = s.cal := rfl
@[simp] theorem State.radd_stk (s : State) (a n : Nat) : (s.radd a n).stk = s.stk := rfl
@[simp] theorem State.rsetFld_pending (s : State) (a l n v : Nat) : (s.rsetFld a l n v).pending = s.pending := rfl
@[simp] theorem State.rsetFld_now (s : State) (a l n v : Nat) : (s.rsetFld a l n v).now = s.now := rfl
@[simp] theorem State.rsetFld_fresh (s : State) (a l n v : Nat) : (s.rsetFld a l n v).fresh = s.fresh := rfl
@[simp] theorem State.rsetFld_mem (s : State) (a l n v : Nat) : (s.rsetFld a l n v).mem = s.mem := rfl
@[simp] theorem State.rsetFld_poison (s : State) (a l n v : Nat) : (s.rsetFld a l n v).poison = s.poison := rfl
@[simp] theorem State.rsetFld_rect (s : State) (a l n v : Nat) : (s.rsetFld a l n v).rect = s.rect := rfl
@[simp] theorem State.rsetFld_pkg (s : State) (a l n v : Nat) : (s.rsetFld a l n v).pkg = s.pkg := rfl
@[simp] theorem State.rsetFld_mod (s : State) (a l n v : Nat) : (s.rsetFld a l n v).mod = s.mod := rfl
@[simp] theorem State.rsetFld_wmk (s : State) (a l n v : Nat) : (s.rsetFld a l n v).wmk = s.wmk := rfl
@[simp] theorem State.rsetFld_nv (s : State) (a l n v : Nat) : (s.rsetFld a l n v).nv = s.nv := rfl
@[simp] theorem State.rsetFld_links (s : State) (a l n v : Nat) : (s.rsetFld a l n v).links = s.links := rfl
@[simp] theorem State.rsetFld_chain (s : State) (a l n v : Nat) : (s.rsetFld a l n v).chain = s.chain := rfl
@[simp] theorem State.rsetFld_couch (s : State) (a l n v : Nat) : (s.rsetFld a l n v).couch = s.couch := rfl
@[simp] theorem State.rsetFld_arm (s : State) (a l n v : Nat) : (s.rsetFld a l n v).arm = s.arm := rfl
@[simp] theorem State.rsetFld_out (s : State) (a l n v : Nat) : (s.rsetFld a l n v).out = s.out := rfl
@[simp] theorem State.rsetFld_cores (s : State) (a l n v : Nat) : (s.rsetFld a l n v).cores = s.cores := rfl
@[simp] theorem State.rsetFld_saved (s : State) (a l n v : Nat) : (s.rsetFld a l n v).saved = s.saved := rfl
@[simp] theorem State.rsetFld_quires (s : State) (a l n v : Nat) : (s.rsetFld a l n v).quires = s.quires := rfl
@[simp] theorem State.rsetFld_claims (s : State) (a l n v : Nat) : (s.rsetFld a l n v).claims = s.claims := rfl
@[simp] theorem State.rsetFld_strFresh (s : State) (a l n v : Nat) : (s.rsetFld a l n v).strFresh = s.strFresh := rfl
@[simp] theorem State.rsetFld_roll (s : State) (a l n v : Nat) : (s.rsetFld a l n v).roll = s.roll := rfl
@[simp] theorem State.rsetFld_vat (s : State) (a l n v : Nat) : (s.rsetFld a l n v).vat = s.vat := rfl
@[simp] theorem State.rsetFld_cal (s : State) (a l n v : Nat) : (s.rsetFld a l n v).cal = s.cal := rfl
@[simp] theorem State.rsetFld_stk (s : State) (a l n v : Nat) : (s.rsetFld a l n v).stk = s.stk := rfl
@[simp] theorem State.rput_pending (s : State) (a i : Nat) (b : Bool) : (s.rput a i b).pending = s.pending := rfl
@[simp] theorem State.rput_now (s : State) (a i : Nat) (b : Bool) : (s.rput a i b).now = s.now := rfl
@[simp] theorem State.rput_fresh (s : State) (a i : Nat) (b : Bool) : (s.rput a i b).fresh = s.fresh := rfl
@[simp] theorem State.rput_mem (s : State) (a i : Nat) (b : Bool) : (s.rput a i b).mem = s.mem := rfl
@[simp] theorem State.rput_poison (s : State) (a i : Nat) (b : Bool) : (s.rput a i b).poison = s.poison := rfl
@[simp] theorem State.rput_rect (s : State) (a i : Nat) (b : Bool) : (s.rput a i b).rect = s.rect := rfl
@[simp] theorem State.rput_pkg (s : State) (a i : Nat) (b : Bool) : (s.rput a i b).pkg = s.pkg := rfl
@[simp] theorem State.rput_mod (s : State) (a i : Nat) (b : Bool) : (s.rput a i b).mod = s.mod := rfl
@[simp] theorem State.rput_wmk (s : State) (a i : Nat) (b : Bool) : (s.rput a i b).wmk = s.wmk := rfl
@[simp] theorem State.rput_nv (s : State) (a i : Nat) (b : Bool) : (s.rput a i b).nv = s.nv := rfl
@[simp] theorem State.rput_links (s : State) (a i : Nat) (b : Bool) : (s.rput a i b).links = s.links := rfl
@[simp] theorem State.rput_chain (s : State) (a i : Nat) (b : Bool) : (s.rput a i b).chain = s.chain := rfl
@[simp] theorem State.rput_couch (s : State) (a i : Nat) (b : Bool) : (s.rput a i b).couch = s.couch := rfl
@[simp] theorem State.rput_arm (s : State) (a i : Nat) (b : Bool) : (s.rput a i b).arm = s.arm := rfl
@[simp] theorem State.rput_out (s : State) (a i : Nat) (b : Bool) : (s.rput a i b).out = s.out := rfl
@[simp] theorem State.rput_cores (s : State) (a i : Nat) (b : Bool) : (s.rput a i b).cores = s.cores := rfl
@[simp] theorem State.rput_saved (s : State) (a i : Nat) (b : Bool) : (s.rput a i b).saved = s.saved := rfl
@[simp] theorem State.rput_quires (s : State) (a i : Nat) (b : Bool) : (s.rput a i b).quires = s.quires := rfl
@[simp] theorem State.rput_claims (s : State) (a i : Nat) (b : Bool) : (s.rput a i b).claims = s.claims := rfl
@[simp] theorem State.rput_strFresh (s : State) (a i : Nat) (b : Bool) : (s.rput a i b).strFresh = s.strFresh := rfl
@[simp] theorem State.rput_roll (s : State) (a i : Nat) (b : Bool) : (s.rput a i b).roll = s.roll := rfl
@[simp] theorem State.rput_vat (s : State) (a i : Nat) (b : Bool) : (s.rput a i b).vat = s.vat := rfl
@[simp] theorem State.rput_cal (s : State) (a i : Nat) (b : Bool) : (s.rput a i b).cal = s.cal := rfl
@[simp] theorem State.rput_stk (s : State) (a i : Nat) (b : Bool) : (s.rput a i b).stk = s.stk := rfl
@[simp] theorem State.wr_pending (s : State) (a : Nat) (bs : List Byte) : (s.wr a bs).pending = s.pending := rfl
@[simp] theorem State.wr_now (s : State) (a : Nat) (bs : List Byte) : (s.wr a bs).now = s.now := rfl
@[simp] theorem State.wr_fresh (s : State) (a : Nat) (bs : List Byte) : (s.wr a bs).fresh = s.fresh := rfl
@[simp] theorem State.wr_poison (s : State) (a : Nat) (bs : List Byte) : (s.wr a bs).poison = s.poison := rfl
@[simp] theorem State.wr_rect (s : State) (a : Nat) (bs : List Byte) : (s.wr a bs).rect = s.rect := rfl
@[simp] theorem State.wr_regs (s : State) (a : Nat) (bs : List Byte) : (s.wr a bs).regs = s.regs := rfl
@[simp] theorem State.wr_pkg (s : State) (a : Nat) (bs : List Byte) : (s.wr a bs).pkg = s.pkg := rfl
@[simp] theorem State.wr_mod (s : State) (a : Nat) (bs : List Byte) : (s.wr a bs).mod = s.mod := rfl
@[simp] theorem State.wr_wmk (s : State) (a : Nat) (bs : List Byte) : (s.wr a bs).wmk = s.wmk := rfl
@[simp] theorem State.wr_nv (s : State) (a : Nat) (bs : List Byte) : (s.wr a bs).nv = s.nv := rfl
@[simp] theorem State.wr_links (s : State) (a : Nat) (bs : List Byte) : (s.wr a bs).links = s.links := rfl
@[simp] theorem State.wr_chain (s : State) (a : Nat) (bs : List Byte) : (s.wr a bs).chain = s.chain := rfl
@[simp] theorem State.wr_couch (s : State) (a : Nat) (bs : List Byte) : (s.wr a bs).couch = s.couch := rfl
@[simp] theorem State.wr_arm (s : State) (a : Nat) (bs : List Byte) : (s.wr a bs).arm = s.arm := rfl
@[simp] theorem State.wr_out (s : State) (a : Nat) (bs : List Byte) : (s.wr a bs).out = s.out := rfl
@[simp] theorem State.wr_cores (s : State) (a : Nat) (bs : List Byte) : (s.wr a bs).cores = s.cores := rfl
@[simp] theorem State.wr_saved (s : State) (a : Nat) (bs : List Byte) : (s.wr a bs).saved = s.saved := rfl
@[simp] theorem State.wr_quires (s : State) (a : Nat) (bs : List Byte) : (s.wr a bs).quires = s.quires := rfl
@[simp] theorem State.wr_claims (s : State) (a : Nat) (bs : List Byte) : (s.wr a bs).claims = s.claims := rfl
@[simp] theorem State.wr_strFresh (s : State) (a : Nat) (bs : List Byte) : (s.wr a bs).strFresh = s.strFresh := rfl
@[simp] theorem State.wr_roll (s : State) (a : Nat) (bs : List Byte) : (s.wr a bs).roll = s.roll := rfl
@[simp] theorem State.wr_vat (s : State) (a : Nat) (bs : List Byte) : (s.wr a bs).vat = s.vat := rfl
@[simp] theorem State.wr_cal (s : State) (a : Nat) (bs : List Byte) : (s.wr a bs).cal = s.cal := rfl
@[simp] theorem State.wr_stk (s : State) (a : Nat) (bs : List Byte) : (s.wr a bs).stk = s.stk := rfl
@[simp] theorem State.wrN_pending (s : State) (a n v : Nat) : (s.wrN a n v).pending = s.pending := rfl
@[simp] theorem State.wrN_now (s : State) (a n v : Nat) : (s.wrN a n v).now = s.now := rfl
@[simp] theorem State.wrN_fresh (s : State) (a n v : Nat) : (s.wrN a n v).fresh = s.fresh := rfl
@[simp] theorem State.wrN_poison (s : State) (a n v : Nat) : (s.wrN a n v).poison = s.poison := rfl
@[simp] theorem State.wrN_rect (s : State) (a n v : Nat) : (s.wrN a n v).rect = s.rect := rfl
@[simp] theorem State.wrN_regs (s : State) (a n v : Nat) : (s.wrN a n v).regs = s.regs := rfl
@[simp] theorem State.wrN_pkg (s : State) (a n v : Nat) : (s.wrN a n v).pkg = s.pkg := rfl
@[simp] theorem State.wrN_mod (s : State) (a n v : Nat) : (s.wrN a n v).mod = s.mod := rfl
@[simp] theorem State.wrN_wmk (s : State) (a n v : Nat) : (s.wrN a n v).wmk = s.wmk := rfl
@[simp] theorem State.wrN_nv (s : State) (a n v : Nat) : (s.wrN a n v).nv = s.nv := rfl
@[simp] theorem State.wrN_links (s : State) (a n v : Nat) : (s.wrN a n v).links = s.links := rfl
@[simp] theorem State.wrN_chain (s : State) (a n v : Nat) : (s.wrN a n v).chain = s.chain := rfl
@[simp] theorem State.wrN_couch (s : State) (a n v : Nat) : (s.wrN a n v).couch = s.couch := rfl
@[simp] theorem State.wrN_arm (s : State) (a n v : Nat) : (s.wrN a n v).arm = s.arm := rfl
@[simp] theorem State.wrN_out (s : State) (a n v : Nat) : (s.wrN a n v).out = s.out := rfl
@[simp] theorem State.wrN_cores (s : State) (a n v : Nat) : (s.wrN a n v).cores = s.cores := rfl
@[simp] theorem State.wrN_saved (s : State) (a n v : Nat) : (s.wrN a n v).saved = s.saved := rfl
@[simp] theorem State.wrN_quires (s : State) (a n v : Nat) : (s.wrN a n v).quires = s.quires := rfl
@[simp] theorem State.wrN_claims (s : State) (a n v : Nat) : (s.wrN a n v).claims = s.claims := rfl
@[simp] theorem State.wrN_strFresh (s : State) (a n v : Nat) : (s.wrN a n v).strFresh = s.strFresh := rfl
@[simp] theorem State.wrN_roll (s : State) (a n v : Nat) : (s.wrN a n v).roll = s.roll := rfl
@[simp] theorem State.wrN_vat (s : State) (a n v : Nat) : (s.wrN a n v).vat = s.vat := rfl
@[simp] theorem State.wrN_cal (s : State) (a n v : Nat) : (s.wrN a n v).cal = s.cal := rfl
@[simp] theorem State.wrN_stk (s : State) (a n v : Nat) : (s.wrN a n v).stk = s.stk := rfl
@[simp] theorem State.zero_pending (s : State) (a n : Nat) : (s.zero a n).pending = s.pending := rfl
@[simp] theorem State.zero_now (s : State) (a n : Nat) : (s.zero a n).now = s.now := rfl
@[simp] theorem State.zero_fresh (s : State) (a n : Nat) : (s.zero a n).fresh = s.fresh := rfl
@[simp] theorem State.zero_poison (s : State) (a n : Nat) : (s.zero a n).poison = s.poison := rfl
@[simp] theorem State.zero_rect (s : State) (a n : Nat) : (s.zero a n).rect = s.rect := rfl
@[simp] theorem State.zero_regs (s : State) (a n : Nat) : (s.zero a n).regs = s.regs := rfl
@[simp] theorem State.zero_pkg (s : State) (a n : Nat) : (s.zero a n).pkg = s.pkg := rfl
@[simp] theorem State.zero_mod (s : State) (a n : Nat) : (s.zero a n).mod = s.mod := rfl
@[simp] theorem State.zero_wmk (s : State) (a n : Nat) : (s.zero a n).wmk = s.wmk := rfl
@[simp] theorem State.zero_nv (s : State) (a n : Nat) : (s.zero a n).nv = s.nv := rfl
@[simp] theorem State.zero_links (s : State) (a n : Nat) : (s.zero a n).links = s.links := rfl
@[simp] theorem State.zero_chain (s : State) (a n : Nat) : (s.zero a n).chain = s.chain := rfl
@[simp] theorem State.zero_couch (s : State) (a n : Nat) : (s.zero a n).couch = s.couch := rfl
@[simp] theorem State.zero_arm (s : State) (a n : Nat) : (s.zero a n).arm = s.arm := rfl
@[simp] theorem State.zero_out (s : State) (a n : Nat) : (s.zero a n).out = s.out := rfl
@[simp] theorem State.zero_cores (s : State) (a n : Nat) : (s.zero a n).cores = s.cores := rfl
@[simp] theorem State.zero_saved (s : State) (a n : Nat) : (s.zero a n).saved = s.saved := rfl
@[simp] theorem State.zero_quires (s : State) (a n : Nat) : (s.zero a n).quires = s.quires := rfl
@[simp] theorem State.zero_claims (s : State) (a n : Nat) : (s.zero a n).claims = s.claims := rfl
@[simp] theorem State.zero_strFresh (s : State) (a n : Nat) : (s.zero a n).strFresh = s.strFresh := rfl
@[simp] theorem State.zero_roll (s : State) (a n : Nat) : (s.zero a n).roll = s.roll := rfl
@[simp] theorem State.zero_vat (s : State) (a n : Nat) : (s.zero a n).vat = s.vat := rfl
@[simp] theorem State.zero_cal (s : State) (a n : Nat) : (s.zero a n).cal = s.cal := rfl
@[simp] theorem State.zero_stk (s : State) (a n : Nat) : (s.zero a n).stk = s.stk := rfl
@[simp] theorem State.setPoison_pending (s : State) (l v : Nat) : (s.setPoison l v).pending = s.pending := rfl
@[simp] theorem State.setPoison_now (s : State) (l v : Nat) : (s.setPoison l v).now = s.now := rfl
@[simp] theorem State.setPoison_fresh (s : State) (l v : Nat) : (s.setPoison l v).fresh = s.fresh := rfl
@[simp] theorem State.setPoison_mem (s : State) (l v : Nat) : (s.setPoison l v).mem = s.mem := rfl
@[simp] theorem State.setPoison_rect (s : State) (l v : Nat) : (s.setPoison l v).rect = s.rect := rfl
@[simp] theorem State.setPoison_regs (s : State) (l v : Nat) : (s.setPoison l v).regs = s.regs := rfl
@[simp] theorem State.setPoison_pkg (s : State) (l v : Nat) : (s.setPoison l v).pkg = s.pkg := rfl
@[simp] theorem State.setPoison_mod (s : State) (l v : Nat) : (s.setPoison l v).mod = s.mod := rfl
@[simp] theorem State.setPoison_wmk (s : State) (l v : Nat) : (s.setPoison l v).wmk = s.wmk := rfl
@[simp] theorem State.setPoison_nv (s : State) (l v : Nat) : (s.setPoison l v).nv = s.nv := rfl
@[simp] theorem State.setPoison_links (s : State) (l v : Nat) : (s.setPoison l v).links = s.links := rfl
@[simp] theorem State.setPoison_chain (s : State) (l v : Nat) : (s.setPoison l v).chain = s.chain := rfl
@[simp] theorem State.setPoison_couch (s : State) (l v : Nat) : (s.setPoison l v).couch = s.couch := rfl
@[simp] theorem State.setPoison_arm (s : State) (l v : Nat) : (s.setPoison l v).arm = s.arm := rfl
@[simp] theorem State.setPoison_out (s : State) (l v : Nat) : (s.setPoison l v).out = s.out := rfl
@[simp] theorem State.setPoison_cores (s : State) (l v : Nat) : (s.setPoison l v).cores = s.cores := rfl
@[simp] theorem State.setPoison_saved (s : State) (l v : Nat) : (s.setPoison l v).saved = s.saved := rfl
@[simp] theorem State.setPoison_quires (s : State) (l v : Nat) : (s.setPoison l v).quires = s.quires := rfl
@[simp] theorem State.setPoison_claims (s : State) (l v : Nat) : (s.setPoison l v).claims = s.claims := rfl
@[simp] theorem State.setPoison_strFresh (s : State) (l v : Nat) : (s.setPoison l v).strFresh = s.strFresh := rfl
@[simp] theorem State.setPoison_roll (s : State) (l v : Nat) : (s.setPoison l v).roll = s.roll := rfl
@[simp] theorem State.setPoison_vat (s : State) (l v : Nat) : (s.setPoison l v).vat = s.vat := rfl
@[simp] theorem State.setPoison_cal (s : State) (l v : Nat) : (s.setPoison l v).cal = s.cal := rfl
@[simp] theorem State.setPoison_stk (s : State) (l v : Nat) : (s.setPoison l v).stk = s.stk := rfl
@[simp] theorem State.modCore_pending (s : State) (n : Nat) (f : Core → Core) : (s.modCore n f).pending = s.pending := rfl
@[simp] theorem State.modCore_now (s : State) (n : Nat) (f : Core → Core) : (s.modCore n f).now = s.now := rfl
@[simp] theorem State.modCore_fresh (s : State) (n : Nat) (f : Core → Core) : (s.modCore n f).fresh = s.fresh := rfl
@[simp] theorem State.modCore_mem (s : State) (n : Nat) (f : Core → Core) : (s.modCore n f).mem = s.mem := rfl
@[simp] theorem State.modCore_poison (s : State) (n : Nat) (f : Core → Core) : (s.modCore n f).poison = s.poison := rfl
@[simp] theorem State.modCore_rect (s : State) (n : Nat) (f : Core → Core) : (s.modCore n f).rect = s.rect := rfl
@[simp] theorem State.modCore_regs (s : State) (n : Nat) (f : Core → Core) : (s.modCore n f).regs = s.regs := rfl
@[simp] theorem State.modCore_pkg (s : State) (n : Nat) (f : Core → Core) : (s.modCore n f).pkg = s.pkg := rfl
@[simp] theorem State.modCore_mod (s : State) (n : Nat) (f : Core → Core) : (s.modCore n f).mod = s.mod := rfl
@[simp] theorem State.modCore_wmk (s : State) (n : Nat) (f : Core → Core) : (s.modCore n f).wmk = s.wmk := rfl
@[simp] theorem State.modCore_nv (s : State) (n : Nat) (f : Core → Core) : (s.modCore n f).nv = s.nv := rfl
@[simp] theorem State.modCore_links (s : State) (n : Nat) (f : Core → Core) : (s.modCore n f).links = s.links := rfl
@[simp] theorem State.modCore_chain (s : State) (n : Nat) (f : Core → Core) : (s.modCore n f).chain = s.chain := rfl
@[simp] theorem State.modCore_couch (s : State) (n : Nat) (f : Core → Core) : (s.modCore n f).couch = s.couch := rfl
@[simp] theorem State.modCore_arm (s : State) (n : Nat) (f : Core → Core) : (s.modCore n f).arm = s.arm := rfl
@[simp] theorem State.modCore_out (s : State) (n : Nat) (f : Core → Core) : (s.modCore n f).out = s.out := rfl
@[simp] theorem State.modCore_saved (s : State) (n : Nat) (f : Core → Core) : (s.modCore n f).saved = s.saved := rfl
@[simp] theorem State.modCore_quires (s : State) (n : Nat) (f : Core → Core) : (s.modCore n f).quires = s.quires := rfl
@[simp] theorem State.modCore_claims (s : State) (n : Nat) (f : Core → Core) : (s.modCore n f).claims = s.claims := rfl
@[simp] theorem State.modCore_strFresh (s : State) (n : Nat) (f : Core → Core) : (s.modCore n f).strFresh = s.strFresh := rfl
@[simp] theorem State.modCore_roll (s : State) (n : Nat) (f : Core → Core) : (s.modCore n f).roll = s.roll := rfl
@[simp] theorem State.modCore_vat (s : State) (n : Nat) (f : Core → Core) : (s.modCore n f).vat = s.vat := rfl
@[simp] theorem State.modCore_cal (s : State) (n : Nat) (f : Core → Core) : (s.modCore n f).cal = s.cal := rfl
@[simp] theorem State.modCore_stk (s : State) (n : Nat) (f : Core → Core) : (s.modCore n f).stk = s.stk := rfl
@[simp] theorem State.modQuire_pending (s : State) (n : Nat) (f : Quire → Quire) : (s.modQuire n f).pending = s.pending := rfl
@[simp] theorem State.modQuire_now (s : State) (n : Nat) (f : Quire → Quire) : (s.modQuire n f).now = s.now := rfl
@[simp] theorem State.modQuire_fresh (s : State) (n : Nat) (f : Quire → Quire) : (s.modQuire n f).fresh = s.fresh := rfl
@[simp] theorem State.modQuire_mem (s : State) (n : Nat) (f : Quire → Quire) : (s.modQuire n f).mem = s.mem := rfl
@[simp] theorem State.modQuire_poison (s : State) (n : Nat) (f : Quire → Quire) : (s.modQuire n f).poison = s.poison := rfl
@[simp] theorem State.modQuire_rect (s : State) (n : Nat) (f : Quire → Quire) : (s.modQuire n f).rect = s.rect := rfl
@[simp] theorem State.modQuire_regs (s : State) (n : Nat) (f : Quire → Quire) : (s.modQuire n f).regs = s.regs := rfl
@[simp] theorem State.modQuire_pkg (s : State) (n : Nat) (f : Quire → Quire) : (s.modQuire n f).pkg = s.pkg := rfl
@[simp] theorem State.modQuire_mod (s : State) (n : Nat) (f : Quire → Quire) : (s.modQuire n f).mod = s.mod := rfl
@[simp] theorem State.modQuire_wmk (s : State) (n : Nat) (f : Quire → Quire) : (s.modQuire n f).wmk = s.wmk := rfl
@[simp] theorem State.modQuire_nv (s : State) (n : Nat) (f : Quire → Quire) : (s.modQuire n f).nv = s.nv := rfl
@[simp] theorem State.modQuire_links (s : State) (n : Nat) (f : Quire → Quire) : (s.modQuire n f).links = s.links := rfl
@[simp] theorem State.modQuire_chain (s : State) (n : Nat) (f : Quire → Quire) : (s.modQuire n f).chain = s.chain := rfl
@[simp] theorem State.modQuire_couch (s : State) (n : Nat) (f : Quire → Quire) : (s.modQuire n f).couch = s.couch := rfl
@[simp] theorem State.modQuire_arm (s : State) (n : Nat) (f : Quire → Quire) : (s.modQuire n f).arm = s.arm := rfl
@[simp] theorem State.modQuire_out (s : State) (n : Nat) (f : Quire → Quire) : (s.modQuire n f).out = s.out := rfl
@[simp] theorem State.modQuire_cores (s : State) (n : Nat) (f : Quire → Quire) : (s.modQuire n f).cores = s.cores := rfl
@[simp] theorem State.modQuire_saved (s : State) (n : Nat) (f : Quire → Quire) : (s.modQuire n f).saved = s.saved := rfl
@[simp] theorem State.modQuire_claims (s : State) (n : Nat) (f : Quire → Quire) : (s.modQuire n f).claims = s.claims := rfl
@[simp] theorem State.modQuire_strFresh (s : State) (n : Nat) (f : Quire → Quire) : (s.modQuire n f).strFresh = s.strFresh := rfl
@[simp] theorem State.modQuire_roll (s : State) (n : Nat) (f : Quire → Quire) : (s.modQuire n f).roll = s.roll := rfl
@[simp] theorem State.modQuire_vat (s : State) (n : Nat) (f : Quire → Quire) : (s.modQuire n f).vat = s.vat := rfl
@[simp] theorem State.modQuire_cal (s : State) (n : Nat) (f : Quire → Quire) : (s.modQuire n f).cal = s.cal := rfl
@[simp] theorem State.modQuire_stk (s : State) (n : Nat) (f : Quire → Quire) : (s.modQuire n f).stk = s.stk := rfl
@[simp] theorem State.modLink_pending (s : State) (n : Nat) (f : Link → Link) : (s.modLink n f).pending = s.pending := rfl
@[simp] theorem State.modLink_now (s : State) (n : Nat) (f : Link → Link) : (s.modLink n f).now = s.now := rfl
@[simp] theorem State.modLink_fresh (s : State) (n : Nat) (f : Link → Link) : (s.modLink n f).fresh = s.fresh := rfl
@[simp] theorem State.modLink_mem (s : State) (n : Nat) (f : Link → Link) : (s.modLink n f).mem = s.mem := rfl
@[simp] theorem State.modLink_poison (s : State) (n : Nat) (f : Link → Link) : (s.modLink n f).poison = s.poison := rfl
@[simp] theorem State.modLink_rect (s : State) (n : Nat) (f : Link → Link) : (s.modLink n f).rect = s.rect := rfl
@[simp] theorem State.modLink_regs (s : State) (n : Nat) (f : Link → Link) : (s.modLink n f).regs = s.regs := rfl
@[simp] theorem State.modLink_pkg (s : State) (n : Nat) (f : Link → Link) : (s.modLink n f).pkg = s.pkg := rfl
@[simp] theorem State.modLink_mod (s : State) (n : Nat) (f : Link → Link) : (s.modLink n f).mod = s.mod := rfl
@[simp] theorem State.modLink_wmk (s : State) (n : Nat) (f : Link → Link) : (s.modLink n f).wmk = s.wmk := rfl
@[simp] theorem State.modLink_nv (s : State) (n : Nat) (f : Link → Link) : (s.modLink n f).nv = s.nv := rfl
@[simp] theorem State.modLink_chain (s : State) (n : Nat) (f : Link → Link) : (s.modLink n f).chain = s.chain := rfl
@[simp] theorem State.modLink_couch (s : State) (n : Nat) (f : Link → Link) : (s.modLink n f).couch = s.couch := rfl
@[simp] theorem State.modLink_arm (s : State) (n : Nat) (f : Link → Link) : (s.modLink n f).arm = s.arm := rfl
@[simp] theorem State.modLink_out (s : State) (n : Nat) (f : Link → Link) : (s.modLink n f).out = s.out := rfl
@[simp] theorem State.modLink_cores (s : State) (n : Nat) (f : Link → Link) : (s.modLink n f).cores = s.cores := rfl
@[simp] theorem State.modLink_saved (s : State) (n : Nat) (f : Link → Link) : (s.modLink n f).saved = s.saved := rfl
@[simp] theorem State.modLink_quires (s : State) (n : Nat) (f : Link → Link) : (s.modLink n f).quires = s.quires := rfl
@[simp] theorem State.modLink_claims (s : State) (n : Nat) (f : Link → Link) : (s.modLink n f).claims = s.claims := rfl
@[simp] theorem State.modLink_strFresh (s : State) (n : Nat) (f : Link → Link) : (s.modLink n f).strFresh = s.strFresh := rfl
@[simp] theorem State.modLink_roll (s : State) (n : Nat) (f : Link → Link) : (s.modLink n f).roll = s.roll := rfl
@[simp] theorem State.modLink_vat (s : State) (n : Nat) (f : Link → Link) : (s.modLink n f).vat = s.vat := rfl
@[simp] theorem State.modLink_cal (s : State) (n : Nat) (f : Link → Link) : (s.modLink n f).cal = s.cal := rfl
@[simp] theorem State.modLink_stk (s : State) (n : Nat) (f : Link → Link) : (s.modLink n f).stk = s.stk := rfl
@[simp] theorem State.modBox_pending (s : State) (n : Nat) (f : Mailbox → Mailbox) : (s.modBox n f).pending = s.pending := rfl
@[simp] theorem State.modBox_now (s : State) (n : Nat) (f : Mailbox → Mailbox) : (s.modBox n f).now = s.now := rfl
@[simp] theorem State.modBox_fresh (s : State) (n : Nat) (f : Mailbox → Mailbox) : (s.modBox n f).fresh = s.fresh := rfl
@[simp] theorem State.modBox_mem (s : State) (n : Nat) (f : Mailbox → Mailbox) : (s.modBox n f).mem = s.mem := rfl
@[simp] theorem State.modBox_poison (s : State) (n : Nat) (f : Mailbox → Mailbox) : (s.modBox n f).poison = s.poison := rfl
@[simp] theorem State.modBox_rect (s : State) (n : Nat) (f : Mailbox → Mailbox) : (s.modBox n f).rect = s.rect := rfl
@[simp] theorem State.modBox_regs (s : State) (n : Nat) (f : Mailbox → Mailbox) : (s.modBox n f).regs = s.regs := rfl
@[simp] theorem State.modBox_pkg (s : State) (n : Nat) (f : Mailbox → Mailbox) : (s.modBox n f).pkg = s.pkg := rfl
@[simp] theorem State.modBox_mod (s : State) (n : Nat) (f : Mailbox → Mailbox) : (s.modBox n f).mod = s.mod := rfl
@[simp] theorem State.modBox_wmk (s : State) (n : Nat) (f : Mailbox → Mailbox) : (s.modBox n f).wmk = s.wmk := rfl
@[simp] theorem State.modBox_nv (s : State) (n : Nat) (f : Mailbox → Mailbox) : (s.modBox n f).nv = s.nv := rfl
@[simp] theorem State.modBox_links (s : State) (n : Nat) (f : Mailbox → Mailbox) : (s.modBox n f).links = s.links := rfl
@[simp] theorem State.modBox_chain (s : State) (n : Nat) (f : Mailbox → Mailbox) : (s.modBox n f).chain = s.chain := rfl
@[simp] theorem State.modBox_couch (s : State) (n : Nat) (f : Mailbox → Mailbox) : (s.modBox n f).couch = s.couch := rfl
@[simp] theorem State.modBox_out (s : State) (n : Nat) (f : Mailbox → Mailbox) : (s.modBox n f).out = s.out := rfl
@[simp] theorem State.modBox_cores (s : State) (n : Nat) (f : Mailbox → Mailbox) : (s.modBox n f).cores = s.cores := rfl
@[simp] theorem State.modBox_saved (s : State) (n : Nat) (f : Mailbox → Mailbox) : (s.modBox n f).saved = s.saved := rfl
@[simp] theorem State.modBox_quires (s : State) (n : Nat) (f : Mailbox → Mailbox) : (s.modBox n f).quires = s.quires := rfl
@[simp] theorem State.modBox_claims (s : State) (n : Nat) (f : Mailbox → Mailbox) : (s.modBox n f).claims = s.claims := rfl
@[simp] theorem State.modBox_strFresh (s : State) (n : Nat) (f : Mailbox → Mailbox) : (s.modBox n f).strFresh = s.strFresh := rfl
@[simp] theorem State.modBox_roll (s : State) (n : Nat) (f : Mailbox → Mailbox) : (s.modBox n f).roll = s.roll := rfl
@[simp] theorem State.modBox_vat (s : State) (n : Nat) (f : Mailbox → Mailbox) : (s.modBox n f).vat = s.vat := rfl
@[simp] theorem State.modBox_cal (s : State) (n : Nat) (f : Mailbox → Mailbox) : (s.modBox n f).cal = s.cal := rfl
@[simp] theorem State.modBox_stk (s : State) (n : Nat) (f : Mailbox → Mailbox) : (s.modBox n f).stk = s.stk := rfl
@[simp] theorem State.modPart_pending (s : State) (n : Nat) (f : Part → Part) : (s.modPart n f).pending = s.pending := rfl
@[simp] theorem State.modPart_now (s : State) (n : Nat) (f : Part → Part) : (s.modPart n f).now = s.now := rfl
@[simp] theorem State.modPart_fresh (s : State) (n : Nat) (f : Part → Part) : (s.modPart n f).fresh = s.fresh := rfl
@[simp] theorem State.modPart_mem (s : State) (n : Nat) (f : Part → Part) : (s.modPart n f).mem = s.mem := rfl
@[simp] theorem State.modPart_poison (s : State) (n : Nat) (f : Part → Part) : (s.modPart n f).poison = s.poison := rfl
@[simp] theorem State.modPart_rect (s : State) (n : Nat) (f : Part → Part) : (s.modPart n f).rect = s.rect := rfl
@[simp] theorem State.modPart_regs (s : State) (n : Nat) (f : Part → Part) : (s.modPart n f).regs = s.regs := rfl
@[simp] theorem State.modPart_pkg (s : State) (n : Nat) (f : Part → Part) : (s.modPart n f).pkg = s.pkg := rfl
@[simp] theorem State.modPart_mod (s : State) (n : Nat) (f : Part → Part) : (s.modPart n f).mod = s.mod := rfl
@[simp] theorem State.modPart_wmk (s : State) (n : Nat) (f : Part → Part) : (s.modPart n f).wmk = s.wmk := rfl
@[simp] theorem State.modPart_nv (s : State) (n : Nat) (f : Part → Part) : (s.modPart n f).nv = s.nv := rfl
@[simp] theorem State.modPart_links (s : State) (n : Nat) (f : Part → Part) : (s.modPart n f).links = s.links := rfl
@[simp] theorem State.modPart_chain (s : State) (n : Nat) (f : Part → Part) : (s.modPart n f).chain = s.chain := rfl
@[simp] theorem State.modPart_couch (s : State) (n : Nat) (f : Part → Part) : (s.modPart n f).couch = s.couch := rfl
@[simp] theorem State.modPart_out (s : State) (n : Nat) (f : Part → Part) : (s.modPart n f).out = s.out := rfl
@[simp] theorem State.modPart_cores (s : State) (n : Nat) (f : Part → Part) : (s.modPart n f).cores = s.cores := rfl
@[simp] theorem State.modPart_saved (s : State) (n : Nat) (f : Part → Part) : (s.modPart n f).saved = s.saved := rfl
@[simp] theorem State.modPart_quires (s : State) (n : Nat) (f : Part → Part) : (s.modPart n f).quires = s.quires := rfl
@[simp] theorem State.modPart_claims (s : State) (n : Nat) (f : Part → Part) : (s.modPart n f).claims = s.claims := rfl
@[simp] theorem State.modPart_strFresh (s : State) (n : Nat) (f : Part → Part) : (s.modPart n f).strFresh = s.strFresh := rfl
@[simp] theorem State.modPart_roll (s : State) (n : Nat) (f : Part → Part) : (s.modPart n f).roll = s.roll := rfl
@[simp] theorem State.modPart_vat (s : State) (n : Nat) (f : Part → Part) : (s.modPart n f).vat = s.vat := rfl
@[simp] theorem State.modPart_cal (s : State) (n : Nat) (f : Part → Part) : (s.modPart n f).cal = s.cal := rfl
@[simp] theorem State.modPart_stk (s : State) (n : Nat) (f : Part → Part) : (s.modPart n f).stk = s.stk := rfl
@[simp] theorem State.modCtx_pending (s : State) (n : Nat) (f : Ctx → Ctx) : (s.modCtx n f).pending = s.pending := rfl
@[simp] theorem State.modCtx_now (s : State) (n : Nat) (f : Ctx → Ctx) : (s.modCtx n f).now = s.now := rfl
@[simp] theorem State.modCtx_fresh (s : State) (n : Nat) (f : Ctx → Ctx) : (s.modCtx n f).fresh = s.fresh := rfl
@[simp] theorem State.modCtx_mem (s : State) (n : Nat) (f : Ctx → Ctx) : (s.modCtx n f).mem = s.mem := rfl
@[simp] theorem State.modCtx_poison (s : State) (n : Nat) (f : Ctx → Ctx) : (s.modCtx n f).poison = s.poison := rfl
@[simp] theorem State.modCtx_rect (s : State) (n : Nat) (f : Ctx → Ctx) : (s.modCtx n f).rect = s.rect := rfl
@[simp] theorem State.modCtx_regs (s : State) (n : Nat) (f : Ctx → Ctx) : (s.modCtx n f).regs = s.regs := rfl
@[simp] theorem State.modCtx_pkg (s : State) (n : Nat) (f : Ctx → Ctx) : (s.modCtx n f).pkg = s.pkg := rfl
@[simp] theorem State.modCtx_mod (s : State) (n : Nat) (f : Ctx → Ctx) : (s.modCtx n f).mod = s.mod := rfl
@[simp] theorem State.modCtx_wmk (s : State) (n : Nat) (f : Ctx → Ctx) : (s.modCtx n f).wmk = s.wmk := rfl
@[simp] theorem State.modCtx_nv (s : State) (n : Nat) (f : Ctx → Ctx) : (s.modCtx n f).nv = s.nv := rfl
@[simp] theorem State.modCtx_links (s : State) (n : Nat) (f : Ctx → Ctx) : (s.modCtx n f).links = s.links := rfl
@[simp] theorem State.modCtx_chain (s : State) (n : Nat) (f : Ctx → Ctx) : (s.modCtx n f).chain = s.chain := rfl
@[simp] theorem State.modCtx_couch (s : State) (n : Nat) (f : Ctx → Ctx) : (s.modCtx n f).couch = s.couch := rfl
@[simp] theorem State.modCtx_out (s : State) (n : Nat) (f : Ctx → Ctx) : (s.modCtx n f).out = s.out := rfl
@[simp] theorem State.modCtx_cores (s : State) (n : Nat) (f : Ctx → Ctx) : (s.modCtx n f).cores = s.cores := rfl
@[simp] theorem State.modCtx_saved (s : State) (n : Nat) (f : Ctx → Ctx) : (s.modCtx n f).saved = s.saved := rfl
@[simp] theorem State.modCtx_quires (s : State) (n : Nat) (f : Ctx → Ctx) : (s.modCtx n f).quires = s.quires := rfl
@[simp] theorem State.modCtx_claims (s : State) (n : Nat) (f : Ctx → Ctx) : (s.modCtx n f).claims = s.claims := rfl
@[simp] theorem State.modCtx_strFresh (s : State) (n : Nat) (f : Ctx → Ctx) : (s.modCtx n f).strFresh = s.strFresh := rfl
@[simp] theorem State.modCtx_roll (s : State) (n : Nat) (f : Ctx → Ctx) : (s.modCtx n f).roll = s.roll := rfl
@[simp] theorem State.modCtx_vat (s : State) (n : Nat) (f : Ctx → Ctx) : (s.modCtx n f).vat = s.vat := rfl
@[simp] theorem State.modCtx_cal (s : State) (n : Nat) (f : Ctx → Ctx) : (s.modCtx n f).cal = s.cal := rfl
@[simp] theorem State.modCtx_stk (s : State) (n : Nat) (f : Ctx → Ctx) : (s.modCtx n f).stk = s.stk := rfl
@[simp] theorem State.modGroup_pending (s : State) (n : Nat) (f : Group → Group) : (s.modGroup n f).pending = s.pending := rfl
@[simp] theorem State.modGroup_now (s : State) (n : Nat) (f : Group → Group) : (s.modGroup n f).now = s.now := rfl
@[simp] theorem State.modGroup_fresh (s : State) (n : Nat) (f : Group → Group) : (s.modGroup n f).fresh = s.fresh := rfl
@[simp] theorem State.modGroup_mem (s : State) (n : Nat) (f : Group → Group) : (s.modGroup n f).mem = s.mem := rfl
@[simp] theorem State.modGroup_poison (s : State) (n : Nat) (f : Group → Group) : (s.modGroup n f).poison = s.poison := rfl
@[simp] theorem State.modGroup_rect (s : State) (n : Nat) (f : Group → Group) : (s.modGroup n f).rect = s.rect := rfl
@[simp] theorem State.modGroup_regs (s : State) (n : Nat) (f : Group → Group) : (s.modGroup n f).regs = s.regs := rfl
@[simp] theorem State.modGroup_pkg (s : State) (n : Nat) (f : Group → Group) : (s.modGroup n f).pkg = s.pkg := rfl
@[simp] theorem State.modGroup_mod (s : State) (n : Nat) (f : Group → Group) : (s.modGroup n f).mod = s.mod := rfl
@[simp] theorem State.modGroup_wmk (s : State) (n : Nat) (f : Group → Group) : (s.modGroup n f).wmk = s.wmk := rfl
@[simp] theorem State.modGroup_nv (s : State) (n : Nat) (f : Group → Group) : (s.modGroup n f).nv = s.nv := rfl
@[simp] theorem State.modGroup_links (s : State) (n : Nat) (f : Group → Group) : (s.modGroup n f).links = s.links := rfl
@[simp] theorem State.modGroup_chain (s : State) (n : Nat) (f : Group → Group) : (s.modGroup n f).chain = s.chain := rfl
@[simp] theorem State.modGroup_couch (s : State) (n : Nat) (f : Group → Group) : (s.modGroup n f).couch = s.couch := rfl
@[simp] theorem State.modGroup_arm (s : State) (n : Nat) (f : Group → Group) : (s.modGroup n f).arm = s.arm := rfl
@[simp] theorem State.modGroup_out (s : State) (n : Nat) (f : Group → Group) : (s.modGroup n f).out = s.out := rfl
@[simp] theorem State.modGroup_cores (s : State) (n : Nat) (f : Group → Group) : (s.modGroup n f).cores = s.cores := rfl
@[simp] theorem State.modGroup_saved (s : State) (n : Nat) (f : Group → Group) : (s.modGroup n f).saved = s.saved := rfl
@[simp] theorem State.modGroup_quires (s : State) (n : Nat) (f : Group → Group) : (s.modGroup n f).quires = s.quires := rfl
@[simp] theorem State.modGroup_claims (s : State) (n : Nat) (f : Group → Group) : (s.modGroup n f).claims = s.claims := rfl
@[simp] theorem State.modGroup_strFresh (s : State) (n : Nat) (f : Group → Group) : (s.modGroup n f).strFresh = s.strFresh := rfl
@[simp] theorem State.modGroup_vat (s : State) (n : Nat) (f : Group → Group) : (s.modGroup n f).vat = s.vat := rfl
@[simp] theorem State.modGroup_cal (s : State) (n : Nat) (f : Group → Group) : (s.modGroup n f).cal = s.cal := rfl
@[simp] theorem State.modGroup_stk (s : State) (n : Nat) (f : Group → Group) : (s.modGroup n f).stk = s.stk := rfl
@[simp] theorem State.modBranch_pending (s : State) (n : Nat) (f : Branch → Branch) : (s.modBranch n f).pending = s.pending := rfl
@[simp] theorem State.modBranch_now (s : State) (n : Nat) (f : Branch → Branch) : (s.modBranch n f).now = s.now := rfl
@[simp] theorem State.modBranch_fresh (s : State) (n : Nat) (f : Branch → Branch) : (s.modBranch n f).fresh = s.fresh := rfl
@[simp] theorem State.modBranch_mem (s : State) (n : Nat) (f : Branch → Branch) : (s.modBranch n f).mem = s.mem := rfl
@[simp] theorem State.modBranch_poison (s : State) (n : Nat) (f : Branch → Branch) : (s.modBranch n f).poison = s.poison := rfl
@[simp] theorem State.modBranch_rect (s : State) (n : Nat) (f : Branch → Branch) : (s.modBranch n f).rect = s.rect := rfl
@[simp] theorem State.modBranch_regs (s : State) (n : Nat) (f : Branch → Branch) : (s.modBranch n f).regs = s.regs := rfl
@[simp] theorem State.modBranch_pkg (s : State) (n : Nat) (f : Branch → Branch) : (s.modBranch n f).pkg = s.pkg := rfl
@[simp] theorem State.modBranch_mod (s : State) (n : Nat) (f : Branch → Branch) : (s.modBranch n f).mod = s.mod := rfl
@[simp] theorem State.modBranch_wmk (s : State) (n : Nat) (f : Branch → Branch) : (s.modBranch n f).wmk = s.wmk := rfl
@[simp] theorem State.modBranch_nv (s : State) (n : Nat) (f : Branch → Branch) : (s.modBranch n f).nv = s.nv := rfl
@[simp] theorem State.modBranch_links (s : State) (n : Nat) (f : Branch → Branch) : (s.modBranch n f).links = s.links := rfl
@[simp] theorem State.modBranch_chain (s : State) (n : Nat) (f : Branch → Branch) : (s.modBranch n f).chain = s.chain := rfl
@[simp] theorem State.modBranch_couch (s : State) (n : Nat) (f : Branch → Branch) : (s.modBranch n f).couch = s.couch := rfl
@[simp] theorem State.modBranch_arm (s : State) (n : Nat) (f : Branch → Branch) : (s.modBranch n f).arm = s.arm := rfl
@[simp] theorem State.modBranch_out (s : State) (n : Nat) (f : Branch → Branch) : (s.modBranch n f).out = s.out := rfl
@[simp] theorem State.modBranch_cores (s : State) (n : Nat) (f : Branch → Branch) : (s.modBranch n f).cores = s.cores := rfl
@[simp] theorem State.modBranch_saved (s : State) (n : Nat) (f : Branch → Branch) : (s.modBranch n f).saved = s.saved := rfl
@[simp] theorem State.modBranch_quires (s : State) (n : Nat) (f : Branch → Branch) : (s.modBranch n f).quires = s.quires := rfl
@[simp] theorem State.modBranch_claims (s : State) (n : Nat) (f : Branch → Branch) : (s.modBranch n f).claims = s.claims := rfl
@[simp] theorem State.modBranch_strFresh (s : State) (n : Nat) (f : Branch → Branch) : (s.modBranch n f).strFresh = s.strFresh := rfl
@[simp] theorem State.modBranch_vat (s : State) (n : Nat) (f : Branch → Branch) : (s.modBranch n f).vat = s.vat := rfl
@[simp] theorem State.modBranch_cal (s : State) (n : Nat) (f : Branch → Branch) : (s.modBranch n f).cal = s.cal := rfl
@[simp] theorem State.modBranch_stk (s : State) (n : Nat) (f : Branch → Branch) : (s.modBranch n f).stk = s.stk := rfl
@[simp] theorem State.modPage_pending (s : State) (n : Nat) (f : VatEnt → VatEnt) : (s.modPage n f).pending = s.pending := rfl
@[simp] theorem State.modPage_now (s : State) (n : Nat) (f : VatEnt → VatEnt) : (s.modPage n f).now = s.now := rfl
@[simp] theorem State.modPage_fresh (s : State) (n : Nat) (f : VatEnt → VatEnt) : (s.modPage n f).fresh = s.fresh := rfl
@[simp] theorem State.modPage_mem (s : State) (n : Nat) (f : VatEnt → VatEnt) : (s.modPage n f).mem = s.mem := rfl
@[simp] theorem State.modPage_poison (s : State) (n : Nat) (f : VatEnt → VatEnt) : (s.modPage n f).poison = s.poison := rfl
@[simp] theorem State.modPage_rect (s : State) (n : Nat) (f : VatEnt → VatEnt) : (s.modPage n f).rect = s.rect := rfl
@[simp] theorem State.modPage_regs (s : State) (n : Nat) (f : VatEnt → VatEnt) : (s.modPage n f).regs = s.regs := rfl
@[simp] theorem State.modPage_pkg (s : State) (n : Nat) (f : VatEnt → VatEnt) : (s.modPage n f).pkg = s.pkg := rfl
@[simp] theorem State.modPage_mod (s : State) (n : Nat) (f : VatEnt → VatEnt) : (s.modPage n f).mod = s.mod := rfl
@[simp] theorem State.modPage_wmk (s : State) (n : Nat) (f : VatEnt → VatEnt) : (s.modPage n f).wmk = s.wmk := rfl
@[simp] theorem State.modPage_nv (s : State) (n : Nat) (f : VatEnt → VatEnt) : (s.modPage n f).nv = s.nv := rfl
@[simp] theorem State.modPage_links (s : State) (n : Nat) (f : VatEnt → VatEnt) : (s.modPage n f).links = s.links := rfl
@[simp] theorem State.modPage_chain (s : State) (n : Nat) (f : VatEnt → VatEnt) : (s.modPage n f).chain = s.chain := rfl
@[simp] theorem State.modPage_couch (s : State) (n : Nat) (f : VatEnt → VatEnt) : (s.modPage n f).couch = s.couch := rfl
@[simp] theorem State.modPage_arm (s : State) (n : Nat) (f : VatEnt → VatEnt) : (s.modPage n f).arm = s.arm := rfl
@[simp] theorem State.modPage_out (s : State) (n : Nat) (f : VatEnt → VatEnt) : (s.modPage n f).out = s.out := rfl
@[simp] theorem State.modPage_cores (s : State) (n : Nat) (f : VatEnt → VatEnt) : (s.modPage n f).cores = s.cores := rfl
@[simp] theorem State.modPage_saved (s : State) (n : Nat) (f : VatEnt → VatEnt) : (s.modPage n f).saved = s.saved := rfl
@[simp] theorem State.modPage_quires (s : State) (n : Nat) (f : VatEnt → VatEnt) : (s.modPage n f).quires = s.quires := rfl
@[simp] theorem State.modPage_claims (s : State) (n : Nat) (f : VatEnt → VatEnt) : (s.modPage n f).claims = s.claims := rfl
@[simp] theorem State.modPage_strFresh (s : State) (n : Nat) (f : VatEnt → VatEnt) : (s.modPage n f).strFresh = s.strFresh := rfl
@[simp] theorem State.modPage_roll (s : State) (n : Nat) (f : VatEnt → VatEnt) : (s.modPage n f).roll = s.roll := rfl
@[simp] theorem State.modPage_cal (s : State) (n : Nat) (f : VatEnt → VatEnt) : (s.modPage n f).cal = s.cal := rfl
@[simp] theorem State.modPage_stk (s : State) (n : Nat) (f : VatEnt → VatEnt) : (s.modPage n f).stk = s.stk := rfl
@[simp] theorem State.modFrec_pending (s : State) (n : Nat) (f : FrameRec → FrameRec) : (s.modFrec n f).pending = s.pending := rfl
@[simp] theorem State.modFrec_now (s : State) (n : Nat) (f : FrameRec → FrameRec) : (s.modFrec n f).now = s.now := rfl
@[simp] theorem State.modFrec_fresh (s : State) (n : Nat) (f : FrameRec → FrameRec) : (s.modFrec n f).fresh = s.fresh := rfl
@[simp] theorem State.modFrec_mem (s : State) (n : Nat) (f : FrameRec → FrameRec) : (s.modFrec n f).mem = s.mem := rfl
@[simp] theorem State.modFrec_poison (s : State) (n : Nat) (f : FrameRec → FrameRec) : (s.modFrec n f).poison = s.poison := rfl
@[simp] theorem State.modFrec_rect (s : State) (n : Nat) (f : FrameRec → FrameRec) : (s.modFrec n f).rect = s.rect := rfl
@[simp] theorem State.modFrec_regs (s : State) (n : Nat) (f : FrameRec → FrameRec) : (s.modFrec n f).regs = s.regs := rfl
@[simp] theorem State.modFrec_pkg (s : State) (n : Nat) (f : FrameRec → FrameRec) : (s.modFrec n f).pkg = s.pkg := rfl
@[simp] theorem State.modFrec_mod (s : State) (n : Nat) (f : FrameRec → FrameRec) : (s.modFrec n f).mod = s.mod := rfl
@[simp] theorem State.modFrec_wmk (s : State) (n : Nat) (f : FrameRec → FrameRec) : (s.modFrec n f).wmk = s.wmk := rfl
@[simp] theorem State.modFrec_nv (s : State) (n : Nat) (f : FrameRec → FrameRec) : (s.modFrec n f).nv = s.nv := rfl
@[simp] theorem State.modFrec_links (s : State) (n : Nat) (f : FrameRec → FrameRec) : (s.modFrec n f).links = s.links := rfl
@[simp] theorem State.modFrec_chain (s : State) (n : Nat) (f : FrameRec → FrameRec) : (s.modFrec n f).chain = s.chain := rfl
@[simp] theorem State.modFrec_couch (s : State) (n : Nat) (f : FrameRec → FrameRec) : (s.modFrec n f).couch = s.couch := rfl
@[simp] theorem State.modFrec_arm (s : State) (n : Nat) (f : FrameRec → FrameRec) : (s.modFrec n f).arm = s.arm := rfl
@[simp] theorem State.modFrec_out (s : State) (n : Nat) (f : FrameRec → FrameRec) : (s.modFrec n f).out = s.out := rfl
@[simp] theorem State.modFrec_cores (s : State) (n : Nat) (f : FrameRec → FrameRec) : (s.modFrec n f).cores = s.cores := rfl
@[simp] theorem State.modFrec_saved (s : State) (n : Nat) (f : FrameRec → FrameRec) : (s.modFrec n f).saved = s.saved := rfl
@[simp] theorem State.modFrec_quires (s : State) (n : Nat) (f : FrameRec → FrameRec) : (s.modFrec n f).quires = s.quires := rfl
@[simp] theorem State.modFrec_claims (s : State) (n : Nat) (f : FrameRec → FrameRec) : (s.modFrec n f).claims = s.claims := rfl
@[simp] theorem State.modFrec_strFresh (s : State) (n : Nat) (f : FrameRec → FrameRec) : (s.modFrec n f).strFresh = s.strFresh := rfl
@[simp] theorem State.modFrec_roll (s : State) (n : Nat) (f : FrameRec → FrameRec) : (s.modFrec n f).roll = s.roll := rfl
@[simp] theorem State.modFrec_vat (s : State) (n : Nat) (f : FrameRec → FrameRec) : (s.modFrec n f).vat = s.vat := rfl
@[simp] theorem State.modFrec_stk (s : State) (n : Nat) (f : FrameRec → FrameRec) : (s.modFrec n f).stk = s.stk := rfl
@[simp] theorem State.modStack_pending (s : State) (n : Nat) (f : Stack → Stack) : (s.modStack n f).pending = s.pending := rfl
@[simp] theorem State.modStack_now (s : State) (n : Nat) (f : Stack → Stack) : (s.modStack n f).now = s.now := rfl
@[simp] theorem State.modStack_fresh (s : State) (n : Nat) (f : Stack → Stack) : (s.modStack n f).fresh = s.fresh := rfl
@[simp] theorem State.modStack_mem (s : State) (n : Nat) (f : Stack → Stack) : (s.modStack n f).mem = s.mem := rfl
@[simp] theorem State.modStack_poison (s : State) (n : Nat) (f : Stack → Stack) : (s.modStack n f).poison = s.poison := rfl
@[simp] theorem State.modStack_rect (s : State) (n : Nat) (f : Stack → Stack) : (s.modStack n f).rect = s.rect := rfl
@[simp] theorem State.modStack_regs (s : State) (n : Nat) (f : Stack → Stack) : (s.modStack n f).regs = s.regs := rfl
@[simp] theorem State.modStack_pkg (s : State) (n : Nat) (f : Stack → Stack) : (s.modStack n f).pkg = s.pkg := rfl
@[simp] theorem State.modStack_mod (s : State) (n : Nat) (f : Stack → Stack) : (s.modStack n f).mod = s.mod := rfl
@[simp] theorem State.modStack_wmk (s : State) (n : Nat) (f : Stack → Stack) : (s.modStack n f).wmk = s.wmk := rfl
@[simp] theorem State.modStack_nv (s : State) (n : Nat) (f : Stack → Stack) : (s.modStack n f).nv = s.nv := rfl
@[simp] theorem State.modStack_links (s : State) (n : Nat) (f : Stack → Stack) : (s.modStack n f).links = s.links := rfl
@[simp] theorem State.modStack_chain (s : State) (n : Nat) (f : Stack → Stack) : (s.modStack n f).chain = s.chain := rfl
@[simp] theorem State.modStack_couch (s : State) (n : Nat) (f : Stack → Stack) : (s.modStack n f).couch = s.couch := rfl
@[simp] theorem State.modStack_arm (s : State) (n : Nat) (f : Stack → Stack) : (s.modStack n f).arm = s.arm := rfl
@[simp] theorem State.modStack_out (s : State) (n : Nat) (f : Stack → Stack) : (s.modStack n f).out = s.out := rfl
@[simp] theorem State.modStack_cores (s : State) (n : Nat) (f : Stack → Stack) : (s.modStack n f).cores = s.cores := rfl
@[simp] theorem State.modStack_saved (s : State) (n : Nat) (f : Stack → Stack) : (s.modStack n f).saved = s.saved := rfl
@[simp] theorem State.modStack_quires (s : State) (n : Nat) (f : Stack → Stack) : (s.modStack n f).quires = s.quires := rfl
@[simp] theorem State.modStack_claims (s : State) (n : Nat) (f : Stack → Stack) : (s.modStack n f).claims = s.claims := rfl
@[simp] theorem State.modStack_strFresh (s : State) (n : Nat) (f : Stack → Stack) : (s.modStack n f).strFresh = s.strFresh := rfl
@[simp] theorem State.modStack_roll (s : State) (n : Nat) (f : Stack → Stack) : (s.modStack n f).roll = s.roll := rfl
@[simp] theorem State.modStack_vat (s : State) (n : Nat) (f : Stack → Stack) : (s.modStack n f).vat = s.vat := rfl
@[simp] theorem State.modStack_cal (s : State) (n : Nat) (f : Stack → Stack) : (s.modStack n f).cal = s.cal := rfl

/-! Units -/

@[simp] theorem State.rset_core (s : State) (a : Nat) (v : Word32) (k : Nat) : (s.rset a v).core k = s.core k := rfl
@[simp] theorem State.rset_quire (s : State) (a : Nat) (v : Word32) (k : Nat) : (s.rset a v).quire k = s.quire k := rfl
@[simp] theorem State.rset_link (s : State) (a : Nat) (v : Word32) (k : Nat) : (s.rset a v).link k = s.link k := rfl
@[simp] theorem State.rset_box (s : State) (a : Nat) (v : Word32) (k : Nat) : (s.rset a v).box k = s.box k := rfl
@[simp] theorem State.rset_part (s : State) (a : Nat) (v : Word32) (k : Nat) : (s.rset a v).part k = s.part k := rfl
@[simp] theorem State.rset_ctx (s : State) (a : Nat) (v : Word32) (k : Nat) : (s.rset a v).ctx k = s.ctx k := rfl
@[simp] theorem State.rset_group (s : State) (a : Nat) (v : Word32) (k : Nat) : (s.rset a v).group k = s.group k := rfl
@[simp] theorem State.rset_branch (s : State) (a : Nat) (v : Word32) (k : Nat) : (s.rset a v).branch k = s.branch k := rfl
@[simp] theorem State.rset_page (s : State) (a : Nat) (v : Word32) (k : Nat) : (s.rset a v).page k = s.page k := rfl
@[simp] theorem State.rset_frec (s : State) (a : Nat) (v : Word32) (k : Nat) : (s.rset a v).frec k = s.frec k := rfl
@[simp] theorem State.rset_stack (s : State) (a : Nat) (v : Word32) (k : Nat) : (s.rset a v).stack k = s.stack k := rfl
@[simp] theorem State.rset_rd (s : State) (a : Nat) (v : Word32) (k w : Nat) : (s.rset a v).rd k w = s.rd k w := rfl
@[simp] theorem State.rset_rdN (s : State) (a : Nat) (v : Word32) (k w : Nat) : (s.rset a v).rdN k w = s.rdN k w := rfl
@[simp] theorem State.ror_core (s : State) (a b : Nat) (k : Nat) : (s.ror a b).core k = s.core k := rfl
@[simp] theorem State.ror_quire (s : State) (a b : Nat) (k : Nat) : (s.ror a b).quire k = s.quire k := rfl
@[simp] theorem State.ror_link (s : State) (a b : Nat) (k : Nat) : (s.ror a b).link k = s.link k := rfl
@[simp] theorem State.ror_box (s : State) (a b : Nat) (k : Nat) : (s.ror a b).box k = s.box k := rfl
@[simp] theorem State.ror_part (s : State) (a b : Nat) (k : Nat) : (s.ror a b).part k = s.part k := rfl
@[simp] theorem State.ror_ctx (s : State) (a b : Nat) (k : Nat) : (s.ror a b).ctx k = s.ctx k := rfl
@[simp] theorem State.ror_group (s : State) (a b : Nat) (k : Nat) : (s.ror a b).group k = s.group k := rfl
@[simp] theorem State.ror_branch (s : State) (a b : Nat) (k : Nat) : (s.ror a b).branch k = s.branch k := rfl
@[simp] theorem State.ror_page (s : State) (a b : Nat) (k : Nat) : (s.ror a b).page k = s.page k := rfl
@[simp] theorem State.ror_frec (s : State) (a b : Nat) (k : Nat) : (s.ror a b).frec k = s.frec k := rfl
@[simp] theorem State.ror_stack (s : State) (a b : Nat) (k : Nat) : (s.ror a b).stack k = s.stack k := rfl
@[simp] theorem State.ror_rd (s : State) (a b : Nat) (k w : Nat) : (s.ror a b).rd k w = s.rd k w := rfl
@[simp] theorem State.ror_rdN (s : State) (a b : Nat) (k w : Nat) : (s.ror a b).rdN k w = s.rdN k w := rfl
@[simp] theorem State.rclr_core (s : State) (a b : Nat) (k : Nat) : (s.rclr a b).core k = s.core k := rfl
@[simp] theorem State.rclr_quire (s : State) (a b : Nat) (k : Nat) : (s.rclr a b).quire k = s.quire k := rfl
@[simp] theorem State.rclr_link (s : State) (a b : Nat) (k : Nat) : (s.rclr a b).link k = s.link k := rfl
@[simp] theorem State.rclr_box (s : State) (a b : Nat) (k : Nat) : (s.rclr a b).box k = s.box k := rfl
@[simp] theorem State.rclr_part (s : State) (a b : Nat) (k : Nat) : (s.rclr a b).part k = s.part k := rfl
@[simp] theorem State.rclr_ctx (s : State) (a b : Nat) (k : Nat) : (s.rclr a b).ctx k = s.ctx k := rfl
@[simp] theorem State.rclr_group (s : State) (a b : Nat) (k : Nat) : (s.rclr a b).group k = s.group k := rfl
@[simp] theorem State.rclr_branch (s : State) (a b : Nat) (k : Nat) : (s.rclr a b).branch k = s.branch k := rfl
@[simp] theorem State.rclr_page (s : State) (a b : Nat) (k : Nat) : (s.rclr a b).page k = s.page k := rfl
@[simp] theorem State.rclr_frec (s : State) (a b : Nat) (k : Nat) : (s.rclr a b).frec k = s.frec k := rfl
@[simp] theorem State.rclr_stack (s : State) (a b : Nat) (k : Nat) : (s.rclr a b).stack k = s.stack k := rfl
@[simp] theorem State.rclr_rd (s : State) (a b : Nat) (k w : Nat) : (s.rclr a b).rd k w = s.rd k w := rfl
@[simp] theorem State.rclr_rdN (s : State) (a b : Nat) (k w : Nat) : (s.rclr a b).rdN k w = s.rdN k w := rfl
@[simp] theorem State.radd_core (s : State) (a n : Nat) (k : Nat) : (s.radd a n).core k = s.core k := rfl
@[simp] theorem State.radd_quire (s : State) (a n : Nat) (k : Nat) : (s.radd a n).quire k = s.quire k := rfl
@[simp] theorem State.radd_link (s : State) (a n : Nat) (k : Nat) : (s.radd a n).link k = s.link k := rfl
@[simp] theorem State.radd_box (s : State) (a n : Nat) (k : Nat) : (s.radd a n).box k = s.box k := rfl
@[simp] theorem State.radd_part (s : State) (a n : Nat) (k : Nat) : (s.radd a n).part k = s.part k := rfl
@[simp] theorem State.radd_ctx (s : State) (a n : Nat) (k : Nat) : (s.radd a n).ctx k = s.ctx k := rfl
@[simp] theorem State.radd_group (s : State) (a n : Nat) (k : Nat) : (s.radd a n).group k = s.group k := rfl
@[simp] theorem State.radd_branch (s : State) (a n : Nat) (k : Nat) : (s.radd a n).branch k = s.branch k := rfl
@[simp] theorem State.radd_page (s : State) (a n : Nat) (k : Nat) : (s.radd a n).page k = s.page k := rfl
@[simp] theorem State.radd_frec (s : State) (a n : Nat) (k : Nat) : (s.radd a n).frec k = s.frec k := rfl
@[simp] theorem State.radd_stack (s : State) (a n : Nat) (k : Nat) : (s.radd a n).stack k = s.stack k := rfl
@[simp] theorem State.radd_rd (s : State) (a n : Nat) (k w : Nat) : (s.radd a n).rd k w = s.rd k w := rfl
@[simp] theorem State.radd_rdN (s : State) (a n : Nat) (k w : Nat) : (s.radd a n).rdN k w = s.rdN k w := rfl
@[simp] theorem State.rsetFld_core (s : State) (a l n v : Nat) (k : Nat) : (s.rsetFld a l n v).core k = s.core k := rfl
@[simp] theorem State.rsetFld_quire (s : State) (a l n v : Nat) (k : Nat) : (s.rsetFld a l n v).quire k = s.quire k := rfl
@[simp] theorem State.rsetFld_link (s : State) (a l n v : Nat) (k : Nat) : (s.rsetFld a l n v).link k = s.link k := rfl
@[simp] theorem State.rsetFld_box (s : State) (a l n v : Nat) (k : Nat) : (s.rsetFld a l n v).box k = s.box k := rfl
@[simp] theorem State.rsetFld_part (s : State) (a l n v : Nat) (k : Nat) : (s.rsetFld a l n v).part k = s.part k := rfl
@[simp] theorem State.rsetFld_ctx (s : State) (a l n v : Nat) (k : Nat) : (s.rsetFld a l n v).ctx k = s.ctx k := rfl
@[simp] theorem State.rsetFld_group (s : State) (a l n v : Nat) (k : Nat) : (s.rsetFld a l n v).group k = s.group k := rfl
@[simp] theorem State.rsetFld_branch (s : State) (a l n v : Nat) (k : Nat) : (s.rsetFld a l n v).branch k = s.branch k := rfl
@[simp] theorem State.rsetFld_page (s : State) (a l n v : Nat) (k : Nat) : (s.rsetFld a l n v).page k = s.page k := rfl
@[simp] theorem State.rsetFld_frec (s : State) (a l n v : Nat) (k : Nat) : (s.rsetFld a l n v).frec k = s.frec k := rfl
@[simp] theorem State.rsetFld_stack (s : State) (a l n v : Nat) (k : Nat) : (s.rsetFld a l n v).stack k = s.stack k := rfl
@[simp] theorem State.rsetFld_rd (s : State) (a l n v : Nat) (k w : Nat) : (s.rsetFld a l n v).rd k w = s.rd k w := rfl
@[simp] theorem State.rsetFld_rdN (s : State) (a l n v : Nat) (k w : Nat) : (s.rsetFld a l n v).rdN k w = s.rdN k w := rfl
@[simp] theorem State.rput_core (s : State) (a i : Nat) (b : Bool) (k : Nat) : (s.rput a i b).core k = s.core k := rfl
@[simp] theorem State.rput_quire (s : State) (a i : Nat) (b : Bool) (k : Nat) : (s.rput a i b).quire k = s.quire k := rfl
@[simp] theorem State.rput_link (s : State) (a i : Nat) (b : Bool) (k : Nat) : (s.rput a i b).link k = s.link k := rfl
@[simp] theorem State.rput_box (s : State) (a i : Nat) (b : Bool) (k : Nat) : (s.rput a i b).box k = s.box k := rfl
@[simp] theorem State.rput_part (s : State) (a i : Nat) (b : Bool) (k : Nat) : (s.rput a i b).part k = s.part k := rfl
@[simp] theorem State.rput_ctx (s : State) (a i : Nat) (b : Bool) (k : Nat) : (s.rput a i b).ctx k = s.ctx k := rfl
@[simp] theorem State.rput_group (s : State) (a i : Nat) (b : Bool) (k : Nat) : (s.rput a i b).group k = s.group k := rfl
@[simp] theorem State.rput_branch (s : State) (a i : Nat) (b : Bool) (k : Nat) : (s.rput a i b).branch k = s.branch k := rfl
@[simp] theorem State.rput_page (s : State) (a i : Nat) (b : Bool) (k : Nat) : (s.rput a i b).page k = s.page k := rfl
@[simp] theorem State.rput_frec (s : State) (a i : Nat) (b : Bool) (k : Nat) : (s.rput a i b).frec k = s.frec k := rfl
@[simp] theorem State.rput_stack (s : State) (a i : Nat) (b : Bool) (k : Nat) : (s.rput a i b).stack k = s.stack k := rfl
@[simp] theorem State.rput_rd (s : State) (a i : Nat) (b : Bool) (k w : Nat) : (s.rput a i b).rd k w = s.rd k w := rfl
@[simp] theorem State.rput_rdN (s : State) (a i : Nat) (b : Bool) (k w : Nat) : (s.rput a i b).rdN k w = s.rdN k w := rfl
@[simp] theorem State.wr_core (s : State) (a : Nat) (bs : List Byte) (k : Nat) : (s.wr a bs).core k = s.core k := rfl
@[simp] theorem State.wr_quire (s : State) (a : Nat) (bs : List Byte) (k : Nat) : (s.wr a bs).quire k = s.quire k := rfl
@[simp] theorem State.wr_link (s : State) (a : Nat) (bs : List Byte) (k : Nat) : (s.wr a bs).link k = s.link k := rfl
@[simp] theorem State.wr_box (s : State) (a : Nat) (bs : List Byte) (k : Nat) : (s.wr a bs).box k = s.box k := rfl
@[simp] theorem State.wr_part (s : State) (a : Nat) (bs : List Byte) (k : Nat) : (s.wr a bs).part k = s.part k := rfl
@[simp] theorem State.wr_ctx (s : State) (a : Nat) (bs : List Byte) (k : Nat) : (s.wr a bs).ctx k = s.ctx k := rfl
@[simp] theorem State.wr_group (s : State) (a : Nat) (bs : List Byte) (k : Nat) : (s.wr a bs).group k = s.group k := rfl
@[simp] theorem State.wr_branch (s : State) (a : Nat) (bs : List Byte) (k : Nat) : (s.wr a bs).branch k = s.branch k := rfl
@[simp] theorem State.wr_page (s : State) (a : Nat) (bs : List Byte) (k : Nat) : (s.wr a bs).page k = s.page k := rfl
@[simp] theorem State.wr_frec (s : State) (a : Nat) (bs : List Byte) (k : Nat) : (s.wr a bs).frec k = s.frec k := rfl
@[simp] theorem State.wr_stack (s : State) (a : Nat) (bs : List Byte) (k : Nat) : (s.wr a bs).stack k = s.stack k := rfl
@[simp] theorem State.wr_rget (s : State) (a : Nat) (bs : List Byte) (k : Nat) : (s.wr a bs).rget k = s.rget k := rfl
@[simp] theorem State.wr_rnat (s : State) (a : Nat) (bs : List Byte) (k : Nat) : (s.wr a bs).rnat k = s.rnat k := rfl
@[simp] theorem State.wr_rbit (s : State) (a : Nat) (bs : List Byte) (k i : Nat) : (s.wr a bs).rbit k i = s.rbit k i := rfl
@[simp] theorem State.wr_rfld (s : State) (a : Nat) (bs : List Byte) (k i w : Nat) : (s.wr a bs).rfld k i w = s.rfld k i w := rfl
@[simp] theorem State.wrN_core (s : State) (a n v : Nat) (k : Nat) : (s.wrN a n v).core k = s.core k := rfl
@[simp] theorem State.wrN_quire (s : State) (a n v : Nat) (k : Nat) : (s.wrN a n v).quire k = s.quire k := rfl
@[simp] theorem State.wrN_link (s : State) (a n v : Nat) (k : Nat) : (s.wrN a n v).link k = s.link k := rfl
@[simp] theorem State.wrN_box (s : State) (a n v : Nat) (k : Nat) : (s.wrN a n v).box k = s.box k := rfl
@[simp] theorem State.wrN_part (s : State) (a n v : Nat) (k : Nat) : (s.wrN a n v).part k = s.part k := rfl
@[simp] theorem State.wrN_ctx (s : State) (a n v : Nat) (k : Nat) : (s.wrN a n v).ctx k = s.ctx k := rfl
@[simp] theorem State.wrN_group (s : State) (a n v : Nat) (k : Nat) : (s.wrN a n v).group k = s.group k := rfl
@[simp] theorem State.wrN_branch (s : State) (a n v : Nat) (k : Nat) : (s.wrN a n v).branch k = s.branch k := rfl
@[simp] theorem State.wrN_page (s : State) (a n v : Nat) (k : Nat) : (s.wrN a n v).page k = s.page k := rfl
@[simp] theorem State.wrN_frec (s : State) (a n v : Nat) (k : Nat) : (s.wrN a n v).frec k = s.frec k := rfl
@[simp] theorem State.wrN_stack (s : State) (a n v : Nat) (k : Nat) : (s.wrN a n v).stack k = s.stack k := rfl
@[simp] theorem State.wrN_rget (s : State) (a n v : Nat) (k : Nat) : (s.wrN a n v).rget k = s.rget k := rfl
@[simp] theorem State.wrN_rnat (s : State) (a n v : Nat) (k : Nat) : (s.wrN a n v).rnat k = s.rnat k := rfl
@[simp] theorem State.wrN_rbit (s : State) (a n v : Nat) (k i : Nat) : (s.wrN a n v).rbit k i = s.rbit k i := rfl
@[simp] theorem State.wrN_rfld (s : State) (a n v : Nat) (k i w : Nat) : (s.wrN a n v).rfld k i w = s.rfld k i w := rfl
@[simp] theorem State.zero_core (s : State) (a n : Nat) (k : Nat) : (s.zero a n).core k = s.core k := rfl
@[simp] theorem State.zero_quire (s : State) (a n : Nat) (k : Nat) : (s.zero a n).quire k = s.quire k := rfl
@[simp] theorem State.zero_link (s : State) (a n : Nat) (k : Nat) : (s.zero a n).link k = s.link k := rfl
@[simp] theorem State.zero_box (s : State) (a n : Nat) (k : Nat) : (s.zero a n).box k = s.box k := rfl
@[simp] theorem State.zero_part (s : State) (a n : Nat) (k : Nat) : (s.zero a n).part k = s.part k := rfl
@[simp] theorem State.zero_ctx (s : State) (a n : Nat) (k : Nat) : (s.zero a n).ctx k = s.ctx k := rfl
@[simp] theorem State.zero_group (s : State) (a n : Nat) (k : Nat) : (s.zero a n).group k = s.group k := rfl
@[simp] theorem State.zero_branch (s : State) (a n : Nat) (k : Nat) : (s.zero a n).branch k = s.branch k := rfl
@[simp] theorem State.zero_page (s : State) (a n : Nat) (k : Nat) : (s.zero a n).page k = s.page k := rfl
@[simp] theorem State.zero_frec (s : State) (a n : Nat) (k : Nat) : (s.zero a n).frec k = s.frec k := rfl
@[simp] theorem State.zero_stack (s : State) (a n : Nat) (k : Nat) : (s.zero a n).stack k = s.stack k := rfl
@[simp] theorem State.zero_rget (s : State) (a n : Nat) (k : Nat) : (s.zero a n).rget k = s.rget k := rfl
@[simp] theorem State.zero_rnat (s : State) (a n : Nat) (k : Nat) : (s.zero a n).rnat k = s.rnat k := rfl
@[simp] theorem State.zero_rbit (s : State) (a n : Nat) (k i : Nat) : (s.zero a n).rbit k i = s.rbit k i := rfl
@[simp] theorem State.zero_rfld (s : State) (a n : Nat) (k i w : Nat) : (s.zero a n).rfld k i w = s.rfld k i w := rfl
@[simp] theorem State.setPoison_core (s : State) (l v : Nat) (k : Nat) : (s.setPoison l v).core k = s.core k := rfl
@[simp] theorem State.setPoison_quire (s : State) (l v : Nat) (k : Nat) : (s.setPoison l v).quire k = s.quire k := rfl
@[simp] theorem State.setPoison_link (s : State) (l v : Nat) (k : Nat) : (s.setPoison l v).link k = s.link k := rfl
@[simp] theorem State.setPoison_box (s : State) (l v : Nat) (k : Nat) : (s.setPoison l v).box k = s.box k := rfl
@[simp] theorem State.setPoison_part (s : State) (l v : Nat) (k : Nat) : (s.setPoison l v).part k = s.part k := rfl
@[simp] theorem State.setPoison_ctx (s : State) (l v : Nat) (k : Nat) : (s.setPoison l v).ctx k = s.ctx k := rfl
@[simp] theorem State.setPoison_group (s : State) (l v : Nat) (k : Nat) : (s.setPoison l v).group k = s.group k := rfl
@[simp] theorem State.setPoison_branch (s : State) (l v : Nat) (k : Nat) : (s.setPoison l v).branch k = s.branch k := rfl
@[simp] theorem State.setPoison_page (s : State) (l v : Nat) (k : Nat) : (s.setPoison l v).page k = s.page k := rfl
@[simp] theorem State.setPoison_frec (s : State) (l v : Nat) (k : Nat) : (s.setPoison l v).frec k = s.frec k := rfl
@[simp] theorem State.setPoison_stack (s : State) (l v : Nat) (k : Nat) : (s.setPoison l v).stack k = s.stack k := rfl
@[simp] theorem State.setPoison_rget (s : State) (l v : Nat) (k : Nat) : (s.setPoison l v).rget k = s.rget k := rfl
@[simp] theorem State.setPoison_rnat (s : State) (l v : Nat) (k : Nat) : (s.setPoison l v).rnat k = s.rnat k := rfl
@[simp] theorem State.setPoison_rbit (s : State) (l v : Nat) (k i : Nat) : (s.setPoison l v).rbit k i = s.rbit k i := rfl
@[simp] theorem State.setPoison_rfld (s : State) (l v : Nat) (k i w : Nat) : (s.setPoison l v).rfld k i w = s.rfld k i w := rfl
@[simp] theorem State.setPoison_rd (s : State) (l v : Nat) (k w : Nat) : (s.setPoison l v).rd k w = s.rd k w := rfl
@[simp] theorem State.setPoison_rdN (s : State) (l v : Nat) (k w : Nat) : (s.setPoison l v).rdN k w = s.rdN k w := rfl
@[simp] theorem State.modCore_quire (s : State) (n : Nat) (f : Core → Core) (k : Nat) : (s.modCore n f).quire k = s.quire k := rfl
@[simp] theorem State.modCore_link (s : State) (n : Nat) (f : Core → Core) (k : Nat) : (s.modCore n f).link k = s.link k := rfl
@[simp] theorem State.modCore_box (s : State) (n : Nat) (f : Core → Core) (k : Nat) : (s.modCore n f).box k = s.box k := rfl
@[simp] theorem State.modCore_part (s : State) (n : Nat) (f : Core → Core) (k : Nat) : (s.modCore n f).part k = s.part k := rfl
@[simp] theorem State.modCore_ctx (s : State) (n : Nat) (f : Core → Core) (k : Nat) : (s.modCore n f).ctx k = s.ctx k := rfl
@[simp] theorem State.modCore_group (s : State) (n : Nat) (f : Core → Core) (k : Nat) : (s.modCore n f).group k = s.group k := rfl
@[simp] theorem State.modCore_branch (s : State) (n : Nat) (f : Core → Core) (k : Nat) : (s.modCore n f).branch k = s.branch k := rfl
@[simp] theorem State.modCore_page (s : State) (n : Nat) (f : Core → Core) (k : Nat) : (s.modCore n f).page k = s.page k := rfl
@[simp] theorem State.modCore_frec (s : State) (n : Nat) (f : Core → Core) (k : Nat) : (s.modCore n f).frec k = s.frec k := rfl
@[simp] theorem State.modCore_stack (s : State) (n : Nat) (f : Core → Core) (k : Nat) : (s.modCore n f).stack k = s.stack k := rfl
@[simp] theorem State.modCore_rget (s : State) (n : Nat) (f : Core → Core) (k : Nat) : (s.modCore n f).rget k = s.rget k := rfl
@[simp] theorem State.modCore_rnat (s : State) (n : Nat) (f : Core → Core) (k : Nat) : (s.modCore n f).rnat k = s.rnat k := rfl
@[simp] theorem State.modCore_rbit (s : State) (n : Nat) (f : Core → Core) (k i : Nat) : (s.modCore n f).rbit k i = s.rbit k i := rfl
@[simp] theorem State.modCore_rfld (s : State) (n : Nat) (f : Core → Core) (k i w : Nat) : (s.modCore n f).rfld k i w = s.rfld k i w := rfl
@[simp] theorem State.modCore_rd (s : State) (n : Nat) (f : Core → Core) (k w : Nat) : (s.modCore n f).rd k w = s.rd k w := rfl
@[simp] theorem State.modCore_rdN (s : State) (n : Nat) (f : Core → Core) (k w : Nat) : (s.modCore n f).rdN k w = s.rdN k w := rfl
@[simp] theorem State.modQuire_core (s : State) (n : Nat) (f : Quire → Quire) (k : Nat) : (s.modQuire n f).core k = s.core k := rfl
@[simp] theorem State.modQuire_link (s : State) (n : Nat) (f : Quire → Quire) (k : Nat) : (s.modQuire n f).link k = s.link k := rfl
@[simp] theorem State.modQuire_box (s : State) (n : Nat) (f : Quire → Quire) (k : Nat) : (s.modQuire n f).box k = s.box k := rfl
@[simp] theorem State.modQuire_part (s : State) (n : Nat) (f : Quire → Quire) (k : Nat) : (s.modQuire n f).part k = s.part k := rfl
@[simp] theorem State.modQuire_ctx (s : State) (n : Nat) (f : Quire → Quire) (k : Nat) : (s.modQuire n f).ctx k = s.ctx k := rfl
@[simp] theorem State.modQuire_group (s : State) (n : Nat) (f : Quire → Quire) (k : Nat) : (s.modQuire n f).group k = s.group k := rfl
@[simp] theorem State.modQuire_branch (s : State) (n : Nat) (f : Quire → Quire) (k : Nat) : (s.modQuire n f).branch k = s.branch k := rfl
@[simp] theorem State.modQuire_page (s : State) (n : Nat) (f : Quire → Quire) (k : Nat) : (s.modQuire n f).page k = s.page k := rfl
@[simp] theorem State.modQuire_frec (s : State) (n : Nat) (f : Quire → Quire) (k : Nat) : (s.modQuire n f).frec k = s.frec k := rfl
@[simp] theorem State.modQuire_stack (s : State) (n : Nat) (f : Quire → Quire) (k : Nat) : (s.modQuire n f).stack k = s.stack k := rfl
@[simp] theorem State.modQuire_rget (s : State) (n : Nat) (f : Quire → Quire) (k : Nat) : (s.modQuire n f).rget k = s.rget k := rfl
@[simp] theorem State.modQuire_rnat (s : State) (n : Nat) (f : Quire → Quire) (k : Nat) : (s.modQuire n f).rnat k = s.rnat k := rfl
@[simp] theorem State.modQuire_rbit (s : State) (n : Nat) (f : Quire → Quire) (k i : Nat) : (s.modQuire n f).rbit k i = s.rbit k i := rfl
@[simp] theorem State.modQuire_rfld (s : State) (n : Nat) (f : Quire → Quire) (k i w : Nat) : (s.modQuire n f).rfld k i w = s.rfld k i w := rfl
@[simp] theorem State.modQuire_rd (s : State) (n : Nat) (f : Quire → Quire) (k w : Nat) : (s.modQuire n f).rd k w = s.rd k w := rfl
@[simp] theorem State.modQuire_rdN (s : State) (n : Nat) (f : Quire → Quire) (k w : Nat) : (s.modQuire n f).rdN k w = s.rdN k w := rfl
@[simp] theorem State.modLink_core (s : State) (n : Nat) (f : Link → Link) (k : Nat) : (s.modLink n f).core k = s.core k := rfl
@[simp] theorem State.modLink_quire (s : State) (n : Nat) (f : Link → Link) (k : Nat) : (s.modLink n f).quire k = s.quire k := rfl
@[simp] theorem State.modLink_box (s : State) (n : Nat) (f : Link → Link) (k : Nat) : (s.modLink n f).box k = s.box k := rfl
@[simp] theorem State.modLink_part (s : State) (n : Nat) (f : Link → Link) (k : Nat) : (s.modLink n f).part k = s.part k := rfl
@[simp] theorem State.modLink_ctx (s : State) (n : Nat) (f : Link → Link) (k : Nat) : (s.modLink n f).ctx k = s.ctx k := rfl
@[simp] theorem State.modLink_group (s : State) (n : Nat) (f : Link → Link) (k : Nat) : (s.modLink n f).group k = s.group k := rfl
@[simp] theorem State.modLink_branch (s : State) (n : Nat) (f : Link → Link) (k : Nat) : (s.modLink n f).branch k = s.branch k := rfl
@[simp] theorem State.modLink_page (s : State) (n : Nat) (f : Link → Link) (k : Nat) : (s.modLink n f).page k = s.page k := rfl
@[simp] theorem State.modLink_frec (s : State) (n : Nat) (f : Link → Link) (k : Nat) : (s.modLink n f).frec k = s.frec k := rfl
@[simp] theorem State.modLink_stack (s : State) (n : Nat) (f : Link → Link) (k : Nat) : (s.modLink n f).stack k = s.stack k := rfl
@[simp] theorem State.modLink_rget (s : State) (n : Nat) (f : Link → Link) (k : Nat) : (s.modLink n f).rget k = s.rget k := rfl
@[simp] theorem State.modLink_rnat (s : State) (n : Nat) (f : Link → Link) (k : Nat) : (s.modLink n f).rnat k = s.rnat k := rfl
@[simp] theorem State.modLink_rbit (s : State) (n : Nat) (f : Link → Link) (k i : Nat) : (s.modLink n f).rbit k i = s.rbit k i := rfl
@[simp] theorem State.modLink_rfld (s : State) (n : Nat) (f : Link → Link) (k i w : Nat) : (s.modLink n f).rfld k i w = s.rfld k i w := rfl
@[simp] theorem State.modLink_rd (s : State) (n : Nat) (f : Link → Link) (k w : Nat) : (s.modLink n f).rd k w = s.rd k w := rfl
@[simp] theorem State.modLink_rdN (s : State) (n : Nat) (f : Link → Link) (k w : Nat) : (s.modLink n f).rdN k w = s.rdN k w := rfl
@[simp] theorem State.modBox_core (s : State) (n : Nat) (f : Mailbox → Mailbox) (k : Nat) : (s.modBox n f).core k = s.core k := rfl
@[simp] theorem State.modBox_quire (s : State) (n : Nat) (f : Mailbox → Mailbox) (k : Nat) : (s.modBox n f).quire k = s.quire k := rfl
@[simp] theorem State.modBox_link (s : State) (n : Nat) (f : Mailbox → Mailbox) (k : Nat) : (s.modBox n f).link k = s.link k := rfl
@[simp] theorem State.modBox_part (s : State) (n : Nat) (f : Mailbox → Mailbox) (k : Nat) : (s.modBox n f).part k = s.part k := rfl
@[simp] theorem State.modBox_ctx (s : State) (n : Nat) (f : Mailbox → Mailbox) (k : Nat) : (s.modBox n f).ctx k = s.ctx k := rfl
@[simp] theorem State.modBox_group (s : State) (n : Nat) (f : Mailbox → Mailbox) (k : Nat) : (s.modBox n f).group k = s.group k := rfl
@[simp] theorem State.modBox_branch (s : State) (n : Nat) (f : Mailbox → Mailbox) (k : Nat) : (s.modBox n f).branch k = s.branch k := rfl
@[simp] theorem State.modBox_page (s : State) (n : Nat) (f : Mailbox → Mailbox) (k : Nat) : (s.modBox n f).page k = s.page k := rfl
@[simp] theorem State.modBox_frec (s : State) (n : Nat) (f : Mailbox → Mailbox) (k : Nat) : (s.modBox n f).frec k = s.frec k := rfl
@[simp] theorem State.modBox_stack (s : State) (n : Nat) (f : Mailbox → Mailbox) (k : Nat) : (s.modBox n f).stack k = s.stack k := rfl
@[simp] theorem State.modBox_rget (s : State) (n : Nat) (f : Mailbox → Mailbox) (k : Nat) : (s.modBox n f).rget k = s.rget k := rfl
@[simp] theorem State.modBox_rnat (s : State) (n : Nat) (f : Mailbox → Mailbox) (k : Nat) : (s.modBox n f).rnat k = s.rnat k := rfl
@[simp] theorem State.modBox_rbit (s : State) (n : Nat) (f : Mailbox → Mailbox) (k i : Nat) : (s.modBox n f).rbit k i = s.rbit k i := rfl
@[simp] theorem State.modBox_rfld (s : State) (n : Nat) (f : Mailbox → Mailbox) (k i w : Nat) : (s.modBox n f).rfld k i w = s.rfld k i w := rfl
@[simp] theorem State.modBox_rd (s : State) (n : Nat) (f : Mailbox → Mailbox) (k w : Nat) : (s.modBox n f).rd k w = s.rd k w := rfl
@[simp] theorem State.modBox_rdN (s : State) (n : Nat) (f : Mailbox → Mailbox) (k w : Nat) : (s.modBox n f).rdN k w = s.rdN k w := rfl
@[simp] theorem State.modPart_core (s : State) (n : Nat) (f : Part → Part) (k : Nat) : (s.modPart n f).core k = s.core k := rfl
@[simp] theorem State.modPart_quire (s : State) (n : Nat) (f : Part → Part) (k : Nat) : (s.modPart n f).quire k = s.quire k := rfl
@[simp] theorem State.modPart_link (s : State) (n : Nat) (f : Part → Part) (k : Nat) : (s.modPart n f).link k = s.link k := rfl
@[simp] theorem State.modPart_box (s : State) (n : Nat) (f : Part → Part) (k : Nat) : (s.modPart n f).box k = s.box k := rfl
@[simp] theorem State.modPart_ctx (s : State) (n : Nat) (f : Part → Part) (k : Nat) : (s.modPart n f).ctx k = s.ctx k := rfl
@[simp] theorem State.modPart_group (s : State) (n : Nat) (f : Part → Part) (k : Nat) : (s.modPart n f).group k = s.group k := rfl
@[simp] theorem State.modPart_branch (s : State) (n : Nat) (f : Part → Part) (k : Nat) : (s.modPart n f).branch k = s.branch k := rfl
@[simp] theorem State.modPart_page (s : State) (n : Nat) (f : Part → Part) (k : Nat) : (s.modPart n f).page k = s.page k := rfl
@[simp] theorem State.modPart_frec (s : State) (n : Nat) (f : Part → Part) (k : Nat) : (s.modPart n f).frec k = s.frec k := rfl
@[simp] theorem State.modPart_stack (s : State) (n : Nat) (f : Part → Part) (k : Nat) : (s.modPart n f).stack k = s.stack k := rfl
@[simp] theorem State.modPart_rget (s : State) (n : Nat) (f : Part → Part) (k : Nat) : (s.modPart n f).rget k = s.rget k := rfl
@[simp] theorem State.modPart_rnat (s : State) (n : Nat) (f : Part → Part) (k : Nat) : (s.modPart n f).rnat k = s.rnat k := rfl
@[simp] theorem State.modPart_rbit (s : State) (n : Nat) (f : Part → Part) (k i : Nat) : (s.modPart n f).rbit k i = s.rbit k i := rfl
@[simp] theorem State.modPart_rfld (s : State) (n : Nat) (f : Part → Part) (k i w : Nat) : (s.modPart n f).rfld k i w = s.rfld k i w := rfl
@[simp] theorem State.modPart_rd (s : State) (n : Nat) (f : Part → Part) (k w : Nat) : (s.modPart n f).rd k w = s.rd k w := rfl
@[simp] theorem State.modPart_rdN (s : State) (n : Nat) (f : Part → Part) (k w : Nat) : (s.modPart n f).rdN k w = s.rdN k w := rfl
@[simp] theorem State.modCtx_core (s : State) (n : Nat) (f : Ctx → Ctx) (k : Nat) : (s.modCtx n f).core k = s.core k := rfl
@[simp] theorem State.modCtx_quire (s : State) (n : Nat) (f : Ctx → Ctx) (k : Nat) : (s.modCtx n f).quire k = s.quire k := rfl
@[simp] theorem State.modCtx_link (s : State) (n : Nat) (f : Ctx → Ctx) (k : Nat) : (s.modCtx n f).link k = s.link k := rfl
@[simp] theorem State.modCtx_box (s : State) (n : Nat) (f : Ctx → Ctx) (k : Nat) : (s.modCtx n f).box k = s.box k := rfl
@[simp] theorem State.modCtx_part (s : State) (n : Nat) (f : Ctx → Ctx) (k : Nat) : (s.modCtx n f).part k = s.part k := rfl
@[simp] theorem State.modCtx_group (s : State) (n : Nat) (f : Ctx → Ctx) (k : Nat) : (s.modCtx n f).group k = s.group k := rfl
@[simp] theorem State.modCtx_branch (s : State) (n : Nat) (f : Ctx → Ctx) (k : Nat) : (s.modCtx n f).branch k = s.branch k := rfl
@[simp] theorem State.modCtx_page (s : State) (n : Nat) (f : Ctx → Ctx) (k : Nat) : (s.modCtx n f).page k = s.page k := rfl
@[simp] theorem State.modCtx_frec (s : State) (n : Nat) (f : Ctx → Ctx) (k : Nat) : (s.modCtx n f).frec k = s.frec k := rfl
@[simp] theorem State.modCtx_stack (s : State) (n : Nat) (f : Ctx → Ctx) (k : Nat) : (s.modCtx n f).stack k = s.stack k := rfl
@[simp] theorem State.modCtx_rget (s : State) (n : Nat) (f : Ctx → Ctx) (k : Nat) : (s.modCtx n f).rget k = s.rget k := rfl
@[simp] theorem State.modCtx_rnat (s : State) (n : Nat) (f : Ctx → Ctx) (k : Nat) : (s.modCtx n f).rnat k = s.rnat k := rfl
@[simp] theorem State.modCtx_rbit (s : State) (n : Nat) (f : Ctx → Ctx) (k i : Nat) : (s.modCtx n f).rbit k i = s.rbit k i := rfl
@[simp] theorem State.modCtx_rfld (s : State) (n : Nat) (f : Ctx → Ctx) (k i w : Nat) : (s.modCtx n f).rfld k i w = s.rfld k i w := rfl
@[simp] theorem State.modCtx_rd (s : State) (n : Nat) (f : Ctx → Ctx) (k w : Nat) : (s.modCtx n f).rd k w = s.rd k w := rfl
@[simp] theorem State.modCtx_rdN (s : State) (n : Nat) (f : Ctx → Ctx) (k w : Nat) : (s.modCtx n f).rdN k w = s.rdN k w := rfl
@[simp] theorem State.modGroup_core (s : State) (n : Nat) (f : Group → Group) (k : Nat) : (s.modGroup n f).core k = s.core k := rfl
@[simp] theorem State.modGroup_quire (s : State) (n : Nat) (f : Group → Group) (k : Nat) : (s.modGroup n f).quire k = s.quire k := rfl
@[simp] theorem State.modGroup_link (s : State) (n : Nat) (f : Group → Group) (k : Nat) : (s.modGroup n f).link k = s.link k := rfl
@[simp] theorem State.modGroup_box (s : State) (n : Nat) (f : Group → Group) (k : Nat) : (s.modGroup n f).box k = s.box k := rfl
@[simp] theorem State.modGroup_part (s : State) (n : Nat) (f : Group → Group) (k : Nat) : (s.modGroup n f).part k = s.part k := rfl
@[simp] theorem State.modGroup_ctx (s : State) (n : Nat) (f : Group → Group) (k : Nat) : (s.modGroup n f).ctx k = s.ctx k := rfl
@[simp] theorem State.modGroup_branch (s : State) (n : Nat) (f : Group → Group) (k : Nat) : (s.modGroup n f).branch k = s.branch k := rfl
@[simp] theorem State.modGroup_page (s : State) (n : Nat) (f : Group → Group) (k : Nat) : (s.modGroup n f).page k = s.page k := rfl
@[simp] theorem State.modGroup_frec (s : State) (n : Nat) (f : Group → Group) (k : Nat) : (s.modGroup n f).frec k = s.frec k := rfl
@[simp] theorem State.modGroup_stack (s : State) (n : Nat) (f : Group → Group) (k : Nat) : (s.modGroup n f).stack k = s.stack k := rfl
@[simp] theorem State.modGroup_rget (s : State) (n : Nat) (f : Group → Group) (k : Nat) : (s.modGroup n f).rget k = s.rget k := rfl
@[simp] theorem State.modGroup_rnat (s : State) (n : Nat) (f : Group → Group) (k : Nat) : (s.modGroup n f).rnat k = s.rnat k := rfl
@[simp] theorem State.modGroup_rbit (s : State) (n : Nat) (f : Group → Group) (k i : Nat) : (s.modGroup n f).rbit k i = s.rbit k i := rfl
@[simp] theorem State.modGroup_rfld (s : State) (n : Nat) (f : Group → Group) (k i w : Nat) : (s.modGroup n f).rfld k i w = s.rfld k i w := rfl
@[simp] theorem State.modGroup_rd (s : State) (n : Nat) (f : Group → Group) (k w : Nat) : (s.modGroup n f).rd k w = s.rd k w := rfl
@[simp] theorem State.modGroup_rdN (s : State) (n : Nat) (f : Group → Group) (k w : Nat) : (s.modGroup n f).rdN k w = s.rdN k w := rfl
@[simp] theorem State.modBranch_core (s : State) (n : Nat) (f : Branch → Branch) (k : Nat) : (s.modBranch n f).core k = s.core k := rfl
@[simp] theorem State.modBranch_quire (s : State) (n : Nat) (f : Branch → Branch) (k : Nat) : (s.modBranch n f).quire k = s.quire k := rfl
@[simp] theorem State.modBranch_link (s : State) (n : Nat) (f : Branch → Branch) (k : Nat) : (s.modBranch n f).link k = s.link k := rfl
@[simp] theorem State.modBranch_box (s : State) (n : Nat) (f : Branch → Branch) (k : Nat) : (s.modBranch n f).box k = s.box k := rfl
@[simp] theorem State.modBranch_part (s : State) (n : Nat) (f : Branch → Branch) (k : Nat) : (s.modBranch n f).part k = s.part k := rfl
@[simp] theorem State.modBranch_ctx (s : State) (n : Nat) (f : Branch → Branch) (k : Nat) : (s.modBranch n f).ctx k = s.ctx k := rfl
@[simp] theorem State.modBranch_group (s : State) (n : Nat) (f : Branch → Branch) (k : Nat) : (s.modBranch n f).group k = s.group k := rfl
@[simp] theorem State.modBranch_page (s : State) (n : Nat) (f : Branch → Branch) (k : Nat) : (s.modBranch n f).page k = s.page k := rfl
@[simp] theorem State.modBranch_frec (s : State) (n : Nat) (f : Branch → Branch) (k : Nat) : (s.modBranch n f).frec k = s.frec k := rfl
@[simp] theorem State.modBranch_stack (s : State) (n : Nat) (f : Branch → Branch) (k : Nat) : (s.modBranch n f).stack k = s.stack k := rfl
@[simp] theorem State.modBranch_rget (s : State) (n : Nat) (f : Branch → Branch) (k : Nat) : (s.modBranch n f).rget k = s.rget k := rfl
@[simp] theorem State.modBranch_rnat (s : State) (n : Nat) (f : Branch → Branch) (k : Nat) : (s.modBranch n f).rnat k = s.rnat k := rfl
@[simp] theorem State.modBranch_rbit (s : State) (n : Nat) (f : Branch → Branch) (k i : Nat) : (s.modBranch n f).rbit k i = s.rbit k i := rfl
@[simp] theorem State.modBranch_rfld (s : State) (n : Nat) (f : Branch → Branch) (k i w : Nat) : (s.modBranch n f).rfld k i w = s.rfld k i w := rfl
@[simp] theorem State.modBranch_rd (s : State) (n : Nat) (f : Branch → Branch) (k w : Nat) : (s.modBranch n f).rd k w = s.rd k w := rfl
@[simp] theorem State.modBranch_rdN (s : State) (n : Nat) (f : Branch → Branch) (k w : Nat) : (s.modBranch n f).rdN k w = s.rdN k w := rfl
@[simp] theorem State.modPage_core (s : State) (n : Nat) (f : VatEnt → VatEnt) (k : Nat) : (s.modPage n f).core k = s.core k := rfl
@[simp] theorem State.modPage_quire (s : State) (n : Nat) (f : VatEnt → VatEnt) (k : Nat) : (s.modPage n f).quire k = s.quire k := rfl
@[simp] theorem State.modPage_link (s : State) (n : Nat) (f : VatEnt → VatEnt) (k : Nat) : (s.modPage n f).link k = s.link k := rfl
@[simp] theorem State.modPage_box (s : State) (n : Nat) (f : VatEnt → VatEnt) (k : Nat) : (s.modPage n f).box k = s.box k := rfl
@[simp] theorem State.modPage_part (s : State) (n : Nat) (f : VatEnt → VatEnt) (k : Nat) : (s.modPage n f).part k = s.part k := rfl
@[simp] theorem State.modPage_ctx (s : State) (n : Nat) (f : VatEnt → VatEnt) (k : Nat) : (s.modPage n f).ctx k = s.ctx k := rfl
@[simp] theorem State.modPage_group (s : State) (n : Nat) (f : VatEnt → VatEnt) (k : Nat) : (s.modPage n f).group k = s.group k := rfl
@[simp] theorem State.modPage_branch (s : State) (n : Nat) (f : VatEnt → VatEnt) (k : Nat) : (s.modPage n f).branch k = s.branch k := rfl
@[simp] theorem State.modPage_frec (s : State) (n : Nat) (f : VatEnt → VatEnt) (k : Nat) : (s.modPage n f).frec k = s.frec k := rfl
@[simp] theorem State.modPage_stack (s : State) (n : Nat) (f : VatEnt → VatEnt) (k : Nat) : (s.modPage n f).stack k = s.stack k := rfl
@[simp] theorem State.modPage_rget (s : State) (n : Nat) (f : VatEnt → VatEnt) (k : Nat) : (s.modPage n f).rget k = s.rget k := rfl
@[simp] theorem State.modPage_rnat (s : State) (n : Nat) (f : VatEnt → VatEnt) (k : Nat) : (s.modPage n f).rnat k = s.rnat k := rfl
@[simp] theorem State.modPage_rbit (s : State) (n : Nat) (f : VatEnt → VatEnt) (k i : Nat) : (s.modPage n f).rbit k i = s.rbit k i := rfl
@[simp] theorem State.modPage_rfld (s : State) (n : Nat) (f : VatEnt → VatEnt) (k i w : Nat) : (s.modPage n f).rfld k i w = s.rfld k i w := rfl
@[simp] theorem State.modPage_rd (s : State) (n : Nat) (f : VatEnt → VatEnt) (k w : Nat) : (s.modPage n f).rd k w = s.rd k w := rfl
@[simp] theorem State.modPage_rdN (s : State) (n : Nat) (f : VatEnt → VatEnt) (k w : Nat) : (s.modPage n f).rdN k w = s.rdN k w := rfl
@[simp] theorem State.modFrec_core (s : State) (n : Nat) (f : FrameRec → FrameRec) (k : Nat) : (s.modFrec n f).core k = s.core k := rfl
@[simp] theorem State.modFrec_quire (s : State) (n : Nat) (f : FrameRec → FrameRec) (k : Nat) : (s.modFrec n f).quire k = s.quire k := rfl
@[simp] theorem State.modFrec_link (s : State) (n : Nat) (f : FrameRec → FrameRec) (k : Nat) : (s.modFrec n f).link k = s.link k := rfl
@[simp] theorem State.modFrec_box (s : State) (n : Nat) (f : FrameRec → FrameRec) (k : Nat) : (s.modFrec n f).box k = s.box k := rfl
@[simp] theorem State.modFrec_part (s : State) (n : Nat) (f : FrameRec → FrameRec) (k : Nat) : (s.modFrec n f).part k = s.part k := rfl
@[simp] theorem State.modFrec_ctx (s : State) (n : Nat) (f : FrameRec → FrameRec) (k : Nat) : (s.modFrec n f).ctx k = s.ctx k := rfl
@[simp] theorem State.modFrec_group (s : State) (n : Nat) (f : FrameRec → FrameRec) (k : Nat) : (s.modFrec n f).group k = s.group k := rfl
@[simp] theorem State.modFrec_branch (s : State) (n : Nat) (f : FrameRec → FrameRec) (k : Nat) : (s.modFrec n f).branch k = s.branch k := rfl
@[simp] theorem State.modFrec_page (s : State) (n : Nat) (f : FrameRec → FrameRec) (k : Nat) : (s.modFrec n f).page k = s.page k := rfl
@[simp] theorem State.modFrec_stack (s : State) (n : Nat) (f : FrameRec → FrameRec) (k : Nat) : (s.modFrec n f).stack k = s.stack k := rfl
@[simp] theorem State.modFrec_rget (s : State) (n : Nat) (f : FrameRec → FrameRec) (k : Nat) : (s.modFrec n f).rget k = s.rget k := rfl
@[simp] theorem State.modFrec_rnat (s : State) (n : Nat) (f : FrameRec → FrameRec) (k : Nat) : (s.modFrec n f).rnat k = s.rnat k := rfl
@[simp] theorem State.modFrec_rbit (s : State) (n : Nat) (f : FrameRec → FrameRec) (k i : Nat) : (s.modFrec n f).rbit k i = s.rbit k i := rfl
@[simp] theorem State.modFrec_rfld (s : State) (n : Nat) (f : FrameRec → FrameRec) (k i w : Nat) : (s.modFrec n f).rfld k i w = s.rfld k i w := rfl
@[simp] theorem State.modFrec_rd (s : State) (n : Nat) (f : FrameRec → FrameRec) (k w : Nat) : (s.modFrec n f).rd k w = s.rd k w := rfl
@[simp] theorem State.modFrec_rdN (s : State) (n : Nat) (f : FrameRec → FrameRec) (k w : Nat) : (s.modFrec n f).rdN k w = s.rdN k w := rfl
@[simp] theorem State.modStack_core (s : State) (n : Nat) (f : Stack → Stack) (k : Nat) : (s.modStack n f).core k = s.core k := rfl
@[simp] theorem State.modStack_quire (s : State) (n : Nat) (f : Stack → Stack) (k : Nat) : (s.modStack n f).quire k = s.quire k := rfl
@[simp] theorem State.modStack_link (s : State) (n : Nat) (f : Stack → Stack) (k : Nat) : (s.modStack n f).link k = s.link k := rfl
@[simp] theorem State.modStack_box (s : State) (n : Nat) (f : Stack → Stack) (k : Nat) : (s.modStack n f).box k = s.box k := rfl
@[simp] theorem State.modStack_part (s : State) (n : Nat) (f : Stack → Stack) (k : Nat) : (s.modStack n f).part k = s.part k := rfl
@[simp] theorem State.modStack_ctx (s : State) (n : Nat) (f : Stack → Stack) (k : Nat) : (s.modStack n f).ctx k = s.ctx k := rfl
@[simp] theorem State.modStack_group (s : State) (n : Nat) (f : Stack → Stack) (k : Nat) : (s.modStack n f).group k = s.group k := rfl
@[simp] theorem State.modStack_branch (s : State) (n : Nat) (f : Stack → Stack) (k : Nat) : (s.modStack n f).branch k = s.branch k := rfl
@[simp] theorem State.modStack_page (s : State) (n : Nat) (f : Stack → Stack) (k : Nat) : (s.modStack n f).page k = s.page k := rfl
@[simp] theorem State.modStack_frec (s : State) (n : Nat) (f : Stack → Stack) (k : Nat) : (s.modStack n f).frec k = s.frec k := rfl
@[simp] theorem State.modStack_rget (s : State) (n : Nat) (f : Stack → Stack) (k : Nat) : (s.modStack n f).rget k = s.rget k := rfl
@[simp] theorem State.modStack_rnat (s : State) (n : Nat) (f : Stack → Stack) (k : Nat) : (s.modStack n f).rnat k = s.rnat k := rfl
@[simp] theorem State.modStack_rbit (s : State) (n : Nat) (f : Stack → Stack) (k i : Nat) : (s.modStack n f).rbit k i = s.rbit k i := rfl
@[simp] theorem State.modStack_rfld (s : State) (n : Nat) (f : Stack → Stack) (k i w : Nat) : (s.modStack n f).rfld k i w = s.rfld k i w := rfl
@[simp] theorem State.modStack_rd (s : State) (n : Nat) (f : Stack → Stack) (k w : Nat) : (s.modStack n f).rd k w = s.rd k w := rfl
@[simp] theorem State.modStack_rdN (s : State) (n : Nat) (f : Stack → Stack) (k w : Nat) : (s.modStack n f).rdN k w = s.rdN k w := rfl

/-! The unit that changes -/

@[simp] theorem State.modCore_core_same (s : State) (n : Nat) (f : Core → Core) : (s.modCore n f).core n = f (s.core n) :=
  SMap.get_mod_same _ _ _
theorem State.modCore_core_ne (s : State) (n : Nat) (f : Core → Core) {k : Nat} (h : k ≠ n) : (s.modCore n f).core k = s.core k :=
  SMap.get_mod_ne h _ _
theorem State.modCore_core (s : State) (n : Nat) (f : Core → Core) (k : Nat) :
    (s.modCore n f).core k = if k = n then f (s.core n) else s.core k := by
  split
  · subst k; exact SMap.get_mod_same _ _ _
  · exact SMap.get_mod_ne ‹_› _ _
@[simp] theorem State.modQuire_quire_same (s : State) (n : Nat) (f : Quire → Quire) : (s.modQuire n f).quire n = f (s.quire n) :=
  SMap.get_mod_same _ _ _
theorem State.modQuire_quire_ne (s : State) (n : Nat) (f : Quire → Quire) {k : Nat} (h : k ≠ n) : (s.modQuire n f).quire k = s.quire k :=
  SMap.get_mod_ne h _ _
theorem State.modQuire_quire (s : State) (n : Nat) (f : Quire → Quire) (k : Nat) :
    (s.modQuire n f).quire k = if k = n then f (s.quire n) else s.quire k := by
  split
  · subst k; exact SMap.get_mod_same _ _ _
  · exact SMap.get_mod_ne ‹_› _ _
@[simp] theorem State.modLink_link_same (s : State) (n : Nat) (f : Link → Link) : (s.modLink n f).link n = f (s.link n) :=
  SMap.get_mod_same _ _ _
theorem State.modLink_link_ne (s : State) (n : Nat) (f : Link → Link) {k : Nat} (h : k ≠ n) : (s.modLink n f).link k = s.link k :=
  SMap.get_mod_ne h _ _
theorem State.modLink_link (s : State) (n : Nat) (f : Link → Link) (k : Nat) :
    (s.modLink n f).link k = if k = n then f (s.link n) else s.link k := by
  split
  · subst k; exact SMap.get_mod_same _ _ _
  · exact SMap.get_mod_ne ‹_› _ _
@[simp] theorem State.modBox_box_same (s : State) (n : Nat) (f : Mailbox → Mailbox) : (s.modBox n f).box n = f (s.box n) :=
  SMap.get_mod_same _ _ _
theorem State.modBox_box_ne (s : State) (n : Nat) (f : Mailbox → Mailbox) {k : Nat} (h : k ≠ n) : (s.modBox n f).box k = s.box k :=
  SMap.get_mod_ne h _ _
theorem State.modBox_box (s : State) (n : Nat) (f : Mailbox → Mailbox) (k : Nat) :
    (s.modBox n f).box k = if k = n then f (s.box n) else s.box k := by
  split
  · subst k; exact SMap.get_mod_same _ _ _
  · exact SMap.get_mod_ne ‹_› _ _
@[simp] theorem State.modPart_part_same (s : State) (n : Nat) (f : Part → Part) : (s.modPart n f).part n = f (s.part n) :=
  SMap.get_mod_same _ _ _
theorem State.modPart_part_ne (s : State) (n : Nat) (f : Part → Part) {k : Nat} (h : k ≠ n) : (s.modPart n f).part k = s.part k :=
  SMap.get_mod_ne h _ _
theorem State.modPart_part (s : State) (n : Nat) (f : Part → Part) (k : Nat) :
    (s.modPart n f).part k = if k = n then f (s.part n) else s.part k := by
  split
  · subst k; exact SMap.get_mod_same _ _ _
  · exact SMap.get_mod_ne ‹_› _ _
@[simp] theorem State.modCtx_ctx_same (s : State) (n : Nat) (f : Ctx → Ctx) : (s.modCtx n f).ctx n = f (s.ctx n) :=
  SMap.get_mod_same _ _ _
theorem State.modCtx_ctx_ne (s : State) (n : Nat) (f : Ctx → Ctx) {k : Nat} (h : k ≠ n) : (s.modCtx n f).ctx k = s.ctx k :=
  SMap.get_mod_ne h _ _
theorem State.modCtx_ctx (s : State) (n : Nat) (f : Ctx → Ctx) (k : Nat) :
    (s.modCtx n f).ctx k = if k = n then f (s.ctx n) else s.ctx k := by
  split
  · subst k; exact SMap.get_mod_same _ _ _
  · exact SMap.get_mod_ne ‹_› _ _
@[simp] theorem State.modGroup_group_same (s : State) (n : Nat) (f : Group → Group) : (s.modGroup n f).group n = f (s.group n) :=
  SMap.get_mod_same _ _ _
theorem State.modGroup_group_ne (s : State) (n : Nat) (f : Group → Group) {k : Nat} (h : k ≠ n) : (s.modGroup n f).group k = s.group k :=
  SMap.get_mod_ne h _ _
theorem State.modGroup_group (s : State) (n : Nat) (f : Group → Group) (k : Nat) :
    (s.modGroup n f).group k = if k = n then f (s.group n) else s.group k := by
  split
  · subst k; exact SMap.get_mod_same _ _ _
  · exact SMap.get_mod_ne ‹_› _ _
@[simp] theorem State.modBranch_branch_same (s : State) (n : Nat) (f : Branch → Branch) : (s.modBranch n f).branch n = f (s.branch n) :=
  SMap.get_mod_same _ _ _
theorem State.modBranch_branch_ne (s : State) (n : Nat) (f : Branch → Branch) {k : Nat} (h : k ≠ n) : (s.modBranch n f).branch k = s.branch k :=
  SMap.get_mod_ne h _ _
theorem State.modBranch_branch (s : State) (n : Nat) (f : Branch → Branch) (k : Nat) :
    (s.modBranch n f).branch k = if k = n then f (s.branch n) else s.branch k := by
  split
  · subst k; exact SMap.get_mod_same _ _ _
  · exact SMap.get_mod_ne ‹_› _ _
@[simp] theorem State.modPage_page_same (s : State) (n : Nat) (f : VatEnt → VatEnt) : (s.modPage n f).page n = f (s.page n) :=
  SMap.get_mod_same _ _ _
theorem State.modPage_page_ne (s : State) (n : Nat) (f : VatEnt → VatEnt) {k : Nat} (h : k ≠ n) : (s.modPage n f).page k = s.page k :=
  SMap.get_mod_ne h _ _
theorem State.modPage_page (s : State) (n : Nat) (f : VatEnt → VatEnt) (k : Nat) :
    (s.modPage n f).page k = if k = n then f (s.page n) else s.page k := by
  split
  · subst k; exact SMap.get_mod_same _ _ _
  · exact SMap.get_mod_ne ‹_› _ _
@[simp] theorem State.modFrec_frec_same (s : State) (n : Nat) (f : FrameRec → FrameRec) : (s.modFrec n f).frec n = f (s.frec n) :=
  SMap.get_mod_same _ _ _
theorem State.modFrec_frec_ne (s : State) (n : Nat) (f : FrameRec → FrameRec) {k : Nat} (h : k ≠ n) : (s.modFrec n f).frec k = s.frec k :=
  SMap.get_mod_ne h _ _
theorem State.modFrec_frec (s : State) (n : Nat) (f : FrameRec → FrameRec) (k : Nat) :
    (s.modFrec n f).frec k = if k = n then f (s.frec n) else s.frec k := by
  split
  · subst k; exact SMap.get_mod_same _ _ _
  · exact SMap.get_mod_ne ‹_› _ _
@[simp] theorem State.modStack_stack_same (s : State) (n : Nat) (f : Stack → Stack) : (s.modStack n f).stack n = f (s.stack n) :=
  SMap.get_mod_same _ _ _
theorem State.modStack_stack_ne (s : State) (n : Nat) (f : Stack → Stack) {k : Nat} (h : k ≠ n) : (s.modStack n f).stack k = s.stack k :=
  SMap.get_mod_ne h _ _
theorem State.modStack_stack (s : State) (n : Nat) (f : Stack → Stack) (k : Nat) :
    (s.modStack n f).stack k = if k = n then f (s.stack n) else s.stack k := by
  split
  · subst k; exact SMap.get_mod_same _ _ _
  · exact SMap.get_mod_ne ‹_› _ _

/-! Registers: what is stored is read, and no other register changes -/

@[simp] theorem State.rget_rset_same (s : State) (a : Nat) (v : Word32) : (s.rset a v).rget a = v := by
  simp only [State.rget, State.rset, SMap.get_set_same, BitVec.xor_assoc, BitVec.xor_self, BitVec.xor_zero]

theorem State.rget_rset_ne (s : State) {a k : Nat} (h : k ≠ a) (v : Word32) : (s.rset a v).rget k = s.rget k := by
  simp [State.rget, State.rset, SMap.get_set_ne h]

theorem State.rget_rset (s : State) (a k : Nat) (v : Word32) : (s.rset a v).rget k = if k = a then v else s.rget k := by
  split
  · subst k; exact State.rget_rset_same _ _ _
  · exact State.rget_rset_ne _ ‹_› _

@[simp] theorem State.rget_ror_same (s : State) (a b : Nat) : (s.ror a b).rget a = s.rget a ||| BitVec.ofNat 32 b :=
  State.rget_rset_same _ _ _

theorem State.rget_ror_ne (s : State) {a k : Nat} (h : k ≠ a) (b : Nat) : (s.ror a b).rget k = s.rget k :=
  State.rget_rset_ne _ h _

@[simp] theorem State.rget_rclr_same (s : State) (a b : Nat) : (s.rclr a b).rget a = s.rget a &&& ~~~(BitVec.ofNat 32 b) :=
  State.rget_rset_same _ _ _

theorem State.rget_rclr_ne (s : State) {a k : Nat} (h : k ≠ a) (b : Nat) : (s.rclr a b).rget k = s.rget k :=
  State.rget_rset_ne _ h _

@[simp] theorem State.rget_radd_same (s : State) (a n : Nat) : (s.radd a n).rget a = s.rget a + BitVec.ofNat 32 n :=
  State.rget_rset_same _ _ _

theorem State.rget_radd_ne (s : State) {a k : Nat} (h : k ≠ a) (n : Nat) : (s.radd a n).rget k = s.rget k :=
  State.rget_rset_ne _ h _

theorem State.rget_rsetFld_ne (s : State) {a k : Nat} (h : k ≠ a) (l n v : Nat) : (s.rsetFld a l n v).rget k = s.rget k :=
  State.rget_rset_ne _ h _

theorem State.rget_rput_ne (s : State) {a k : Nat} (h : k ≠ a) (i : Nat) (b : Bool) : (s.rput a i b).rget k = s.rget k :=
  State.rget_rset_ne _ h _

end Sys2Proof.Machine
end

