-- ==== Sys2Proof/Laws/Memory.lean ====
section
/-! SUPPORT. The laws of memory: a byte read after a write, and the canonical form that every operation on memory, poison,
tags and registers keeps. -/

namespace Sys2Proof.Machine

/-! Reading after writing -/

/-- A byte outside the bytes written reads as before. -/
theorem memWrite_out (bs : List Byte) : ∀ (m : SMap Byte) (a k : Nat), (k < a ∨ a + bs.length ≤ k) →
    (memWrite m a bs).get k = m.get k := by
  induction bs with
  | nil => intro m a k _; rfl
  | cons b r ih =>
    intro m a k h
    simp only [List.length_cons] at h
    have hk : k < a + 1 ∨ a + 1 + r.length ≤ k := by omega
    rw [memWrite, ih _ _ _ hk, SMap.get_set_ne (by omega)]

/-- A byte that was written reads as written. -/
theorem memWrite_in (bs : List Byte) : ∀ (m : SMap Byte) (a i : Nat), i < bs.length →
    (memWrite m a bs).get (a + i) = bs.getD i 0 := by
  induction bs with
  | nil => intro m a i h; cases h
  | cons b r ih =>
    intro m a i h
    cases i with
    | zero => rw [memWrite, memWrite_out _ _ _ _ (by omega)]; simp
    | succ j =>
      rw [memWrite, show a + (j + 1) = a + 1 + j by omega, ih _ _ _ (by simpa using h)]
      rfl

theorem State.wr_get_out (s : State) (a : Nat) (bs : List Byte) {k : Nat} (h : k < a ∨ a + bs.length ≤ k) :
    (s.wr a bs).mem.get k = s.mem.get k := memWrite_out _ _ _ _ h

theorem State.wr_get_in (s : State) (a : Nat) (bs : List Byte) {i : Nat} (h : i < bs.length) :
    (s.wr a bs).mem.get (a + i) = bs.getD i 0 := memWrite_in _ _ _ _ h

/-- The bytes written are the bytes read. -/
@[simp] theorem State.rd_wr_same (s : State) (a : Nat) (bs : List Byte) : (s.wr a bs).rd a bs.length = bs := by
  apply List.ext_getElem
  · simp [State.rd]
  · intro i h1 h2
    simp only [State.rd, List.getElem_map, List.getElem_range]
    rw [State.wr_get_in s a bs h2]
    simp [List.getD_eq_getElem?_getD, List.getElem?_eq_getElem h2]

/-- Bytes apart from the bytes written read as before. -/
theorem State.rd_wr_apart (s : State) (a : Nat) (bs : List Byte) {b n : Nat} (h : b + n ≤ a ∨ a + bs.length ≤ b) :
    (s.wr a bs).rd b n = s.rd b n := by
  simp only [State.rd, List.map_inj_left, List.mem_range]
  intro i hi
  exact State.wr_get_out s a bs (by omega)

theorem State.rdN_wr_apart (s : State) (a : Nat) (bs : List Byte) {b n : Nat} (h : b + n ≤ a ∨ a + bs.length ≤ b) :
    (s.wr a bs).rdN b n = s.rdN b n := by rw [State.rdN, State.rd_wr_apart s a bs h, State.rdN]

/-! The canonical form -/

theorem memWrite_wf (bs : List Byte) : ∀ (m : SMap Byte) (a : Nat), m.wf = true → (memWrite m a bs).wf = true := by
  induction bs with
  | nil => intro m a h; exact h
  | cons b r ih => intro m a h; exact ih _ _ (SMap.wf_set m a b h)

/-- The four sparse maps, one by one. -/
theorem State.memWf_iff (s : State) : s.memWf = true ↔
    s.mem.wf = true ∧ s.poison.wf = true ∧ s.rect.wf = true ∧ s.regs.wf = true := by
  simp [State.memWf, and_assoc]

/-- A change that leaves the four maps alone keeps their form. -/
theorem State.memWf_of_same {s t : State} (h : s.memWf = true) (hm : t.mem = s.mem) (hp : t.poison = s.poison)
    (hr : t.rect = s.rect) (hg : t.regs = s.regs) : t.memWf = true := by
  simpa [State.memWf, hm, hp, hr, hg] using h

theorem State.memWf_wr (s : State) (a : Nat) (bs : List Byte) (h : s.memWf = true) : (s.wr a bs).memWf = true := by
  rw [State.memWf_iff] at h ⊢
  exact ⟨memWrite_wf _ _ _ h.1, h.2⟩

theorem State.memWf_wrN (s : State) (a n v : Nat) (h : s.memWf = true) : (s.wrN a n v).memWf = true :=
  State.memWf_wr s a _ h

theorem State.memWf_zero (s : State) (a n : Nat) (h : s.memWf = true) : (s.zero a n).memWf = true := by
  rw [State.memWf_iff] at h ⊢
  exact ⟨SMap.wf_clear _ _ _ h.1, h.2⟩

theorem State.memWf_setPoison (s : State) (l v : Nat) (h : s.memWf = true) : (s.setPoison l v).memWf = true := by
  rw [State.memWf_iff] at h ⊢
  exact ⟨h.1, SMap.wf_set _ _ _ h.2.1, h.2.2⟩

theorem State.memWf_rset (s : State) (a : Nat) (v : Word32) (h : s.memWf = true) : (s.rset a v).memWf = true := by
  rw [State.memWf_iff] at h ⊢
  exact ⟨h.1, h.2.1, h.2.2.1, SMap.wf_set _ _ _ h.2.2.2⟩

theorem State.memWf_ror (s : State) (a b : Nat) (h : s.memWf = true) : (s.ror a b).memWf = true :=
  State.memWf_rset s a _ h

theorem State.memWf_rclr (s : State) (a b : Nat) (h : s.memWf = true) : (s.rclr a b).memWf = true :=
  State.memWf_rset s a _ h

theorem State.memWf_radd (s : State) (a n : Nat) (h : s.memWf = true) : (s.radd a n).memWf = true :=
  State.memWf_rset s a _ h

theorem State.memWf_rsetFld (s : State) (a l n v : Nat) (h : s.memWf = true) : (s.rsetFld a l n v).memWf = true :=
  State.memWf_rset s a _ h

theorem State.memWf_rput (s : State) (a i : Nat) (b : Bool) (h : s.memWf = true) : (s.rput a i b).memWf = true :=
  State.memWf_rset s a _ h

/-- A fold of operations that keep the form keeps it. -/
theorem State.memWf_foldl {β : Type} (f : State → β → State) (hf : ∀ s b, s.memWf = true → (f s b).memWf = true) :
    ∀ (l : List β) (s : State), s.memWf = true → (l.foldl f s).memWf = true
  | [], _, h => h
  | b :: r, s, h => State.memWf_foldl f hf r (f s b) (hf s b h)

end Sys2Proof.Machine
end

