-- ==== Sys2Proof/Laws/Ops.lean ====
section
/-! SUPPORT. What the shared operations can do, said once: answers, notices and error entries touch only memory,
registers, mailboxes, the ring, context records, the Couch link's bookkeeping and its queue of packets; how a mailbox
command and a descriptor start. -/

namespace Sys2Proof.Machine

/-- Between two states only memory, registers, mailboxes, the ring, context records and what the Couch link sends differ,
and the canonical form stands. -/
def OnlyAnswers (s t : State) : Prop :=
  t.pending = s.pending ∧ t.now = s.now ∧ t.fresh = s.fresh ∧ t.poison = s.poison ∧ t.rect = s.rect ∧
  SameDevice s t ∧ t.cores = s.cores ∧ t.quires = s.quires ∧ t.saved = s.saved ∧ t.claims = s.claims ∧
  t.strFresh = s.strFresh ∧ t.roll = s.roll ∧ t.vat = s.vat ∧ t.cal = s.cal ∧ t.arm.parts = s.arm.parts ∧
  t.arm.creates = s.arm.creates ∧ t.arm.refuse = s.arm.refuse ∧ t.out.chn = s.out.chn ∧ t.out.ctrl = s.out.ctrl ∧
  t.couch.dir = s.couch.dir ∧ (s.memWf = true → t.memWf = true)

theorem OnlyAnswers.refl (s : State) : OnlyAnswers s s := by simp [OnlyAnswers, SameDevice]

theorem OnlyAnswers.trans {s t u : State} (h : OnlyAnswers s t) (k : OnlyAnswers t u) : OnlyAnswers s u := by
  simp only [OnlyAnswers, SameDevice] at h k ⊢
  simp_all

theorem onlyAnswers_rset (s : State) (a : Nat) (v : Word32) : OnlyAnswers s (s.rset a v) :=
  ⟨rfl, rfl, rfl, rfl, rfl, ⟨rfl, rfl, rfl, rfl, rfl, rfl, rfl⟩, rfl, rfl, rfl, rfl, rfl, rfl, rfl, rfl, rfl, rfl, rfl, rfl, rfl,
    rfl, s.memWf_rset a v⟩

theorem onlyAnswers_wr (s : State) (a : Nat) (bs : List Byte) : OnlyAnswers s (s.wr a bs) :=
  ⟨rfl, rfl, rfl, rfl, rfl, ⟨rfl, rfl, rfl, rfl, rfl, rfl, rfl⟩, rfl, rfl, rfl, rfl, rfl, rfl, rfl, rfl, rfl, rfl, rfl, rfl, rfl,
    rfl, s.memWf_wr a bs⟩

theorem onlyAnswers_modBox (s : State) (m : Nat) (f : Mailbox → Mailbox) : OnlyAnswers s (s.modBox m f) :=
  ⟨rfl, rfl, rfl, rfl, rfl, ⟨rfl, rfl, rfl, rfl, rfl, rfl, rfl⟩, rfl, rfl, rfl, rfl, rfl, rfl, rfl, rfl, rfl, rfl, rfl, rfl, rfl,
    rfl, id⟩

theorem onlyAnswers_modCtx (s : State) (x : Nat) (f : Ctx → Ctx) : OnlyAnswers s (s.modCtx x f) :=
  ⟨rfl, rfl, rfl, rfl, rfl, ⟨rfl, rfl, rfl, rfl, rfl, rfl, rfl⟩, rfl, rfl, rfl, rfl, rfl, rfl, rfl, rfl, rfl, rfl, rfl, rfl, rfl,
    rfl, id⟩

theorem onlyAnswers_sendCch (s : State) (p : CchPkt) : OnlyAnswers s (sendCch s p) :=
  ⟨rfl, rfl, rfl, rfl, rfl, ⟨rfl, rfl, rfl, rfl, rfl, rfl, rfl⟩, rfl, rfl, rfl, rfl, rfl, rfl, rfl, rfl, rfl, rfl, rfl, rfl, rfl,
    rfl, id⟩

theorem onlyAnswers_requestCch (s : State) (p : CchPkt) (u : CchUse) : OnlyAnswers s (requestCch s p u) :=
  ⟨rfl, rfl, rfl, rfl, rfl, ⟨rfl, rfl, rfl, rfl, rfl, rfl, rfl⟩, rfl, rfl, rfl, rfl, rfl, rfl, rfl, rfl, rfl, rfl, rfl, rfl, rfl,
    rfl, id⟩

theorem onlyAnswers_dropCached (s : State) (a n : Nat) : OnlyAnswers s (dropCached s a n) :=
  ⟨rfl, rfl, rfl, rfl, rfl, ⟨rfl, rfl, rfl, rfl, rfl, rfl, rfl⟩, rfl, rfl, rfl, rfl, rfl, rfl, rfl, rfl, rfl, rfl, rfl, rfl, rfl,
    rfl, id⟩

/-- A snoop goes out unless one for the line already waits. -/
theorem onlyAnswers_sendSnoop (s : State) (line : Nat) (inv : Bool) : OnlyAnswers s (sendSnoop s line inv) := by
  unfold sendSnoop
  split
  · exact .refl s
  · exact ⟨rfl, rfl, rfl, rfl, rfl, ⟨rfl, rfl, rfl, rfl, rfl, rfl, rfl⟩, rfl, rfl, rfl, rfl, rfl, rfl, rfl, rfl, rfl, rfl, rfl, rfl,
      rfl, rfl, s.memWf_radd _ _⟩

/-- A notify write reaches companion memory and goes out, or nothing but CCH_STATUS changes. -/
theorem onlyAnswers_notify (s : State) (m : Nat) : OnlyAnswers s (notify s m) := by
  unfold notify
  simp only
  split
  · exact .refl s
  split
  · exact .refl s
  split
  · exact onlyAnswers_rset _ _ _
  · exact (((onlyAnswers_dropCached s _ 4).trans (onlyAnswers_wr _ _ _)).trans (onlyAnswers_requestCch _ _ _)).trans
      (onlyAnswers_modBox _ _ _)

theorem onlyAnswers_flushOutbox : ∀ (n : Nat) (s : State) (m : Nat), OnlyAnswers s (flushOutbox n s m)
  | 0, s, _ => .refl s
  | n + 1, s, m => by
    unfold flushOutbox
    split
    · exact .refl s
    · simp only
      split
      · exact onlyAnswers_sendSnoop _ _ _
      · exact (((onlyAnswers_wr s _ _).trans (onlyAnswers_modBox _ _ _)).trans (onlyAnswers_notify _ _)).trans
          (onlyAnswers_flushOutbox n _ m)

theorem onlyAnswers_writeRsp (s : State) (m : Nat) (l : Line) : OnlyAnswers s (writeRsp s m l) :=
  (onlyAnswers_modBox s m _).trans (onlyAnswers_flushOutbox _ _ _)

theorem OnlyAnswers.rset {s u : State} (h : OnlyAnswers s u) (a : Nat) (v : Word32) : OnlyAnswers s (u.rset a v) :=
  h.trans (onlyAnswers_rset u a v)

theorem OnlyAnswers.ite {s u v : State} {c : Prop} [Decidable c] (h : OnlyAnswers s u) (k : OnlyAnswers s v) :
    OnlyAnswers s (if c then u else v) := by
  split
  · exact h
  · exact k

/-- The registers that a new error entry marks. -/
theorem onlyAnswers_marked (s u : State) (h : OnlyAnswers s u) (lost : Bool) (e : Event) :
    OnlyAnswers s (let s3 := if lost then u.ror Reg.plnErrStatus 1 else u
      let s4 := if e.interrupting then (s3.ror Reg.plnErrStatus 2).radd Reg.plnInterrupts 1 else s3
      let s5 := if e.retired then (s4.ror Reg.plnErrStatus 4).radd Reg.plnRetirements 1 else s4
      if e.cls = .transient then s5.radd Reg.plnTransients 1 else s5) := by
  simp only [State.ror, State.radd]
  repeat' first | exact h | apply OnlyAnswers.ite | apply OnlyAnswers.rset

/-- An event is folded into its last entry, or appended. -/
theorem onlyAnswers_ringPut (s : State) (e : Event) : OnlyAnswers s (ringPut s e).1 := by
  have arm : ∀ (r : SMap ErrEntry) (q : Nat), OnlyAnswers s { s with arm := { s.arm with ring := r, seq := q } } :=
    fun r q => ⟨rfl, rfl, rfl, rfl, rfl, ⟨rfl, rfl, rfl, rfl, rfl, rfl, rfl⟩, rfl, rfl, rfl, rfl, rfl, rfl, rfl, rfl, rfl, rfl,
      rfl, rfl, rfl, rfl, id⟩
  unfold ringPut
  simp only
  split
  · exact arm _ s.arm.seq
  · exact onlyAnswers_marked s _ (((arm _ _).rset _ _).rset _ _) _ e

/-- A notice is written, queued, or dropped with an entry in the ring. -/
theorem onlyAnswers_postNotice (s : State) (m : Nat) (l : Line) : OnlyAnswers s (postNotice s m l) := by
  unfold postNotice
  simp only
  split
  · exact (onlyAnswers_writeRsp s m l).trans (onlyAnswers_rset _ _ _)
  split
  · exact onlyAnswers_modBox _ _ _
  · exact (onlyAnswers_rset _ _ _).trans (onlyAnswers_ringPut _ _)

theorem onlyAnswers_ringAdd (s : State) (e : Event) : OnlyAnswers s (ringAdd s e) := by
  have h := onlyAnswers_ringPut s e
  unfold ringAdd
  split
  · rename_i s1 i hp
    rw [hp] at h
    split
    · exact h.trans (onlyAnswers_postNotice _ _ _)
    · exact h
  · rename_i s1 hp
    rw [hp] at h
    exact h

theorem onlyAnswers_stallNotice (s : State) (source x : Nat) (core : Option Nat) (arg : Nat) :
    OnlyAnswers s (stallNotice s source x core arg) := by
  unfold stallNotice
  simp only
  refine OnlyAnswers.trans ?_ (onlyAnswers_ringAdd _ _)
  split
  · exact onlyAnswers_postNotice _ _ _
  · exact (onlyAnswers_postNotice _ _ _).trans (onlyAnswers_modCtx _ _ _)

/-- The flags of an answer's status. -/
theorem onlyAnswers_answered (s u : State) (h : OnlyAnswers s u) (st : Nat) :
    OnlyAnswers s (let u1 := if st = stInvalid then u.ror Reg.plnArmStatus 2 else u
      if st = stDenied then u1.ror Reg.plnArmStatus 4 else u1) := by
  simp only [State.ror]
  repeat' first | exact h | apply OnlyAnswers.ite | apply OnlyAnswers.rset

/-- The last command of a revoked mailbox takes its grant back and answers the revoker. -/
theorem onlyAnswers_revoked (s : State) (m : Nat) : OnlyAnswers s (match (s.box m).revoking with
    | some (m0, sn0) =>
      if (s.box m).inProg.isEmpty then
        let s5 := finishRevoke s m
        match (s5.box m0).inProg.find? (·.sn == sn0) with
        | none => s5
        | some ip0 =>
          let s6 := s5.modBox m0 fun b => { b with inProg := b.inProg.filter (·.sn != sn0) }
          (writeRsp s6 m0 (rspLine ip0.entry { status := stOk })).radd Reg.plnCmdDone 1
      else s
    | none => s) := by
  split
  · split
    · simp only
      split
      · exact onlyAnswers_modBox _ _ _
      · exact OnlyAnswers.rset (((onlyAnswers_modBox s m _).trans (onlyAnswers_modBox _ _ _)).trans
          (onlyAnswers_writeRsp _ _ _)) _ _
    · exact .refl s
  · exact .refl s

/-- An answer takes its command out of those in progress; the last one of a revoked mailbox answers the revoker too. -/
theorem onlyAnswers_respond (s : State) (m sn : Nat) (a : Ans) : OnlyAnswers s (respond s m sn a) := by
  unfold respond
  split
  · exact .refl s
  · exact (onlyAnswers_answered s _ (OnlyAnswers.rset ((onlyAnswers_modBox s m _).trans (onlyAnswers_writeRsp _ _ _)) _ _)
      a.status).trans (onlyAnswers_revoked _ m)

/-! How a mailbox command starts -/

/-- A command that is not at its mailbox's head only asks for the head's line. -/
theorem onCommand_not_at_head {m op : Nat} {s : State} (h : atHead s m op = false) (body : Body) :
    onCommand m op body s = askHead s m := by simp [onCommand, h]

/-- A command that its mailbox refuses is answered and has no effect. -/
theorem onCommand_refused {m op : Nat} {s : State} {a : Ans} (h : atHead s m op = true)
    (hp : precheck s m (headEntry s m) = some a) (body : Body) :
    onCommand m op body s = serve (respond (startHead s m).1 m (startHead s m).2 a) m := by
  simp [onCommand, h, hp]

/-- A command that its mailbox takes acts by its own rules, and is answered now or later. -/
theorem onCommand_takes {m op : Nat} {s : State} (h : Takes s m op) (body : Body) :
    onCommand m op body s =
      let r := body (startHead s m).1 m (startHead s m).2 (headEntry s m)
      serve (match r.2 with | some a => respond r.1 m (startHead s m).2 a | none => r.1) m := by
  simp only [onCommand, h.1, h.2, Bool.not_true, Bool.false_eq_true, if_false]
  all_goals rfl

/-! How a descriptor issues -/

/-- A descriptor that is free to issue does what its body answers: it completes here or goes in flight, waits, or faults
its context. -/
theorem issue_ready {s : State} {c w cls op d : Nat} (h : Ready s c w cls op d) (body : State → Nat → Ran) :
    issue s c w cls op body =
      match body s d with
      | .fault code o => coreFault s c code o
      | .stop s1 code o => coreFault s1 c code o
      | .wait s1 => s1
      | .done s1 f =>
        match engineOf d with
        | none => pastHead s1 c w d
        | some e =>
          let id := (s1.core c).nextId
          let ent : InFlight := f { (default : InFlight) with
            id := id, eng := e, word := BitVec.ofNat 512 d, walker := w, cons := hCons d, prod := prodHere c d }
          pastHead (s1.modCore c fun x => { x with inflight := x.inflight ++ [ent], nextId := id + 1 }) c w d := by
  obtain ⟨⟨i, hi⟩, h1, h2, h3, h4, h5, h6, h7, h8⟩ := h
  have h7' : (if cls = 6 then Chk.ok else slotChk s c (hCons d) (prodHere c d)) = Chk.ok := by
    split
    · rfl
    · simp_all
  simp only [issue, hi, h1, h2, h3, h4, h5, h6, h7', h8, Bool.false_eq_true, Bool.not_true, if_false, not_true_eq_false,
    or_false, ne_eq]
  all_goals rfl

/-- A walker whose head is no descriptor of the class and operation leaves the state as it is. -/
theorem issue_other {s : State} {c w cls op i d : Nat} (h : headDesc s c w = some (i, some d))
    (hl : laterReady s c w = false) (hn : layerLanded s c w = true) (hk : classOk d = true)
    (ho : hClass d ≠ cls ∨ hOp d ≠ op) (body : State → Nat → Ran) : issue s c w cls op body = s := by
  simp [issue, h, hl, hn, hk, ho]

end Sys2Proof.Machine
end

