-- ==== Sys2Proof/Tests/Slice0.lean ====
section
/-! SUPPORT. The tests: operands that are refused, values worked out by hand, and for every statement a state and
operands that meet its hypotheses, clause by clause. -/

namespace Sys2Proof.Machine

/-- Place the bytes of `v` that are not zero, `n` of them from `a` on. -/
def State.put (s : State) (a n v : Nat) : State :=
  { s with mem := (List.range n).foldr (fun i m => if v / 256 ^ i % 256 = 0 then m else m.set (a + i) (BitVec.ofNat 8 (v / 256 ^ i))) s.mem }

end Sys2Proof.Machine

set_option Elab.async false

namespace Sys2Proof.Tests
open Sys2Proof.Machine

/-! Operands that no command can carry are refused, check by check -/

theorem test_wf_row : (Instr.retentionRestEnd 0 [⟨0, 0, 49152⟩]).wf = false := by decide
theorem test_wf_test_row : (Instr.memoryTestComplete 0 [⟨0, 0, 49152⟩]).wf = false := by decide
theorem test_wf_unit : (Instr.stackRead 0 167772160 .clean).wf = false ∧
  (Instr.stackRead 0 167772159 .clean).wf = true := by decide
theorem test_wf_write_length : (Instr.stackWrite 0 0 [] 0 .clean).wf = false := by decide
theorem test_wf_gather_block : (Instr.writeGatherFlush 0 20971520).wf = false := by decide
theorem test_wf_frame : (Instr.frameReceive 0 { (default : Frame) with ctrl := List.replicate 11 default }).wf = false := by decide
theorem test_wf_chain_packet :
    ([Instr.chnRd 0, .chnWr 0, .chnExpd 0, .chnRddata 0, .chnWrack 0, .chnNack 0].all fun f =>
      !(f { (default : ChnPkt) with data := List.replicate 4097 0 }).wf) = true := by decide +kernel
theorem test_wf_couch_packet :
    ([Instr.rdShared, .rdUncached, .couchWr, .wrPartial, .rdOwn, .evict, .snpInv, .snpData, .couchData, .couchAck,
      .couchNack, .snpRsp].all fun f => !(f { (default : CchPkt) with data := List.replicate 4097 0 }).wf) = true := by
  decide +kernel
theorem test_wf_key_message :
    ([Instr.cert 0, .keyInit 0, .keyResp 0].all fun f => !(f (List.replicate 8193 0)).wf) = true := by decide +kernel
theorem test_ill_formed_faults : exec (.writeGatherFlush 0 20971520) State.reset = .fault .illFormed := by rfl

/-! Values worked out by hand from the rules, and one published digest -/

/-- 1 + 2^-8 lies halfway between two BF16 numbers; the even one is 1 (R93). -/
theorem test_bf16_tie : (toFp bf16 false false false (.num false 257 (-8)) ⟨0, 0⟩).1 = 0x3F80 := by decide +kernel
/-- 1 + 3 * 2^-8 lies halfway between 0x3F81 and 0x3F82. -/
theorem test_bf16_tie_up : (toFp bf16 false false false (.num false 259 (-8)) ⟨0, 0⟩).1 = 0x3F82 := by decide +kernel
/-- 500 lies above 448, the largest E4M3 number, and saturates. -/
theorem test_e4m3_saturates : (toFp e4m3 false false false (.num false 500 0) ⟨0, 0⟩).1 = 0x7E := by decide +kernel
theorem test_e2m1_codes : (List.range 8).map (decodeFp e2m1) =
    [.num false 0 (-1), .num false 1 (-1), .num false 2 (-1), .num false 3 (-1), .num false 2 0, .num false 3 0,
      .num false 2 1, .num false 3 1] := by decide +kernel
/-- SHA3-256 of no bytes begins A7 FF C6 F8 (FIPS 202). -/
theorem test_sha3_empty : (digestBytes (sha3 [])).take 4 = [0xA7, 0xFF, 0xC6, 0xF8] := by decide +kernel
/-- The address map's regions at their edges (R73). -/
theorem test_regions : region 0x1DFFFFFFFFF = .stacked 23 ∧ region (csBase + 0x10F0000) = .control 0x10F0000 ∧
    region (spdAddr 4095 0x5FFFF) = .spd 4095 0x5FFFF ∧ region (spdAddr 4095 0x60000) = .unmapped := by decide +kernel
/-- A link that lost lane group 0 uses groups 1 and 2 (R401). -/
theorem test_groups : useGroups 0 0xE = 6 ∧ widthCode 6 = 2 := by decide +kernel
/-- A command waits at the front: the step runs it and leaves the rest. -/
theorem test_step_front : (match step { State.reset with pending := [.managerSilence, .heartbeatTick] } with
    | .next t => t.pending | _ => []) = [.heartbeatTick] := by decide +kernel
/-- A cycle of an idle block out of reset is one nanosecond. -/
theorem test_idle_tick : (match step { State.reset with mod := { ModSt.reset with inReset := false } } with | .next t => t.now | _ => 0) = 1 := by decide +kernel

/-! States and operands that meet the hypotheses of the statements -/

theorem all_below {n : Nat} {P : Nat → Prop} [DecidablePred P]
    (h : (List.range n).all (fun i => decide (P i)) = true) (i : Nat) (hi : i < n) : P i := by
  simpa using List.all_eq_true.mp h i (List.mem_range.mpr hi)

/-- Powered, the firmware running, the device context-ready; quires 0, 1 and 127 stand at their home sites. -/
def on : State :=
  { State.reset with
    mod := { ModSt.reset with auxOk := true, auxDv := 120, mainDv := 540, converters := true, inReset := false }
    pkg := { PkgSt.reset with mapped := true, backing := ⟨[(0, 1), (1, 1), (127, 1)]⟩ } }.rset Reg.plnReady 0xF

/-- Command `op` of context `x`, payload `p` from byte 16 on, alone at the head of mailbox `m`. -/
def cmd (m op x p : Nat) (s : State) : State :=
  (s.modBox m fun b => { b with covered := 1 }).put (csAddr (cmdOff m 0)) 64 (op + x * 2 ^ 48 + p * 2 ^ 128)

/-- Stacks trained, links down, the topology accepted, the pointing pass still to come. -/
def trained : State :=
  { on with
    stk := { on.stk with ctls := ⟨(List.range 24).map fun k => (k, { (default : Stack) with train := .done })⟩ }
    links := ⟨(List.range 32).map fun n => (n, { (default : Link) with st := .down })⟩
    wmk := { on.wmk with accDies := true, accLinks := BitVec.allOnes 32 } }.rset Reg.plnReady 3

/-- A frame of stack 0 holds a block coded under the retiring table slot 3; slot 0 is current. -/
def coded : State :=
  { on with cal := { on.cal with
    recs := on.cal.recs.set 0 { (default : FrameRec) with blocks := (⟨[]⟩ : SMap IndexEnt).set 5 { (default : IndexEnt) with code := .table, slot := 3 } }
    slots := (on.cal.slots.set 3 { (default : TableSlot) with st := .retiring }).set 0 { (default : TableSlot) with st := .current } } }.ror Reg.calCtrl 4

/-- Context 1 is active, may use every partition, and holds the frames 0 to 15. -/
def one (s : State) : State :=
  s.modCtx 1 fun X => { X with st := .active, par := { X.par with partitions := BitVec.allOnes 128 }, grants := [⟨0, 16, true, true⟩] }

/-- The die 0 has two Vat frames; page 5 of context 1 stands in the first and may be dropped. -/
def tight : State :=
  let s := ((on.rset (Reg.vatFrameBase 0) 64).rset (Reg.vatFrameCount 0) 2).rset (Reg.vatLow 0) 2
  ({ s with vat := { s.vat with bound := s.vat.bound.set 64 6, tick := 40000 } }.modPage 5 fun e =>
    { e with st := .live, owner := 1, srcValid := true, held := true, frame := 64 }).modCtx 1 fun X =>
      { X with st := .active, par := { X.par with rebuildEn := true } }

/-- Partition 3 rebuilds for partition 2, both of context 1; page 8 is dropped and comes from page 9. -/
def rebuilding : State :=
  let s := ((on.modPart 3 fun P => { P with st := .ready, program := some { (default : Program) with ctx := 1, stepPart := some 2 } }).modPart 2
    fun P => { P with st := .ready, program := some { (default : Program) with ctx := 1, isStep := true, rebuildPart := some 3, kvgeom := 4 } }).modCtx 1
      fun X => { X with st := .active, par := { X.par with rebuild := 3, rebuildEn := true } }
  { s with vat := { s.vat with queue := s.vat.queue.set 3 [8] } }.modPage 8 fun e =>
    { e with st := .dropped, owner := 1, layer := 4, srcPage := 9, held := true }

/-- The cores of quire 0 have ended their walk of work slot `k` of partition 5. -/
def ended (k : Nat) : State :=
  { on with cores := ⟨(List.range 32).map fun c => (c, { (default : Core) with part := 6, slot := k + 1, ended := true })⟩ }.modPart 5 fun P =>
    { P with st := .ready, quires := 1, works := P.works.set k { (default : Work) with st := .running, quires := 1, kind := if k = 16 then .step else .launch } }

/-- Partition 5 holds a step program, and a branch of its group 4095 stands READY. -/
def steps : State :=
  ((on.modPart 5 fun P => { P with st := .ready, quires := 1, program := some { (default : Program) with isStep := true, ctx := 1 } }).modBranch 262143
    fun b => { b with st := .ready, group := 4095, part := 5 }).modGroup 4095 fun g => { g with st := .running, part := 5, ctx := 1 }

/-- A launched task of context 1 that wants one quire. -/
def task : Work := { (default : Work) with ctx := 1, want := 1 }

/-- Partition 127 has quire 0, and the task waits in it. -/
def launched : State :=
  (on.modPart 127 fun P => { P with st := .ready, quires := 1, waiting := [task] }).modCtx 1 fun X =>
    { X with st := .active, par := { X.par with saveFirst := 32, saveFrames := 16 } }

/-- Core `c` runs the one descriptor `d`, outside nests, of work slot 0 of partition 127, for context 1. -/
def runs (c d : Nat) (s : State) : State :=
  ((s.modPart 127 fun P => { P with
      st := .ready, quires := BitVec.ofNat 128 (2 ^ (c / 32))
      works := P.works.set 0 { (default : Work) with st := .running, ctx := 1, quires := BitVec.ofNat 128 (2 ^ (c / 32)) } }).modCore c fun C =>
    { C with part := 128, slot := 1, ctx := 1 }).put (qsrAddr (c / 32) 0) 128 (2 ^ 64 + d * 2 ^ 512)

/-- The work of partition 127 in another state. -/
def workIn (st : WorkSt) (s : State) : State :=
  s.modPart 127 fun P => { P with works := P.works.mod 0 fun w => { w with st := st } }

/-- What DIAG_READ reads of the page map. -/
def diagEntry (s : State) (m x i : Nat) : List Byte :=
  if m == 0 || (s.page i).owner.toNat == x then vatBytes (s.page i) else List.replicate 16 0

theorem diag_pages (s : State) (m x t : Nat) (h : t = 4) : diagTarget s m x t = some (524288, 16, diagEntry s m x) := by
  subst h; rfl

theorem denied_box (s : State) (m : Nat) (e : Line) (h : servesWork s = true) (hm : m ≠ 0) (hg : (s.box m).grantee = 0) :
    precheck s m e = some denied := by
  simp [precheck, boxAnswer, h, hm, hg]

/-- A decode table image of version 7 at address 0x1000: symbol 0 has a code of one bit. -/
def tabled : State := on.put 0x1000 256 (7 + 272 * 2 ^ 32 + 2 ^ 512)

/-- Slot 0 of the error ring holds the event of number 3; the next is 5. -/
def logged : State :=
  { on with arm := { on.arm with seq := 5, ring := on.arm.ring.set 0 { (default : ErrEntry) with held := true, seq := 3 } } }

/-- A load block of partition 127 at 0x1000 names the image at 0x2000: one FENCE, and one empty live list. -/
def imaged : State :=
  (((one on).modPart 127 fun P => { P with st := .ready, quires := 1 }).put 0x1000 64 0x7f000000880000000000002000).put 0x2000 136
    0x60000000000000006000000000000000000000000000000000000000000000000000000000000000000000001000000000000000000000300000000010000000100000001444b4c31

/-- A group block at 0x1000 for the step program of partition 5, with its root program in partition 127 and its policy
at 0x4000; group 4095 of that partition runs. -/
def opened : State :=
  ((((((one on).modPart 5 fun P => { P with st := .ready, quires := 1, program := some { (default : Program) with isStep := true, ctx := 1, handle := 5 } }).modPart 127
    fun P => { P with st := .ready, quires := 2, program := some { (default : Program) with ctx := 1, handle := 127 } }).modGroup 4095
      fun g => { g with st := .running, part := 5, ctx := 1 }).put 0x1000 128 0x5000000000000000000000000000000000000000000000004000000000000000000000000000000000000000000000010001000000000000300000000001007f0005).put 0x4000 64 0x100000000)

/-- A stream table of 2^19 entries at 0x10000000, and in it stream 262144 with entry `v`. -/
def streams (v : Nat) : State :=
  ((((one on).rset Reg.strTableBaseLo 0x10000000).rset Reg.strTableCtrl 51)).put (0x10000000 + 32 * 262144) 32 v

def readyB (s : State) (c w cls op d : Nat) : Bool :=
  (match headDesc s c w with | some (_, some x) => x == d | _ => false) && !laterReady s c w && layerLanded s c w &&
    classOk d && hClass d == cls && hOp d == op && !reservedSet d &&
    (cls == 6 || slotChk s c (hCons d) (prodHere c d) == .ok) && hasRoom s c (engineOf d)

theorem ready_of {s : State} {c w cls op d : Nat} (h : readyB s c w cls op d = true) : Ready s c w cls op d := by
  simp only [readyB, Bool.and_eq_true, Bool.or_eq_true, beq_iff_eq, Bool.not_eq_true'] at h
  obtain ⟨⟨⟨⟨⟨⟨⟨⟨h1, h2⟩, h3⟩, h4⟩, h5⟩, h6⟩, h7⟩, h8⟩, h9⟩ := h
  refine ⟨?_, h2, h3, h4, h5, h6, h7, h8, h9⟩
  split at h1
  · rename_i i x hx
    exact ⟨i, by simpa [eq_of_beq h1] using hx⟩
  · cases h1

/-- Every core of quire 127 stands at a barrier of the quire. -/
def barred : State :=
  { runs 4095 0 on with cores := ⟨(List.range 32).map fun i =>
    (4064 + i, { (default : Core) with part := 128, slot := 1, ctx := 1, hold := .barrier false 0 })⟩ }

theorem none_walks {l : List Walker} {w : Nat} {P : Walker → Prop} (h : l = []) (W : Walker) (hW : l[w]? = some W) : P W := by
  subst h; cases hW

theorem none_due {o : Option Nat} {P : Nat → Prop} (h : o = none) (j : Nat) (hj : o = some j) : P j := by
  subst h; cases hj

/-- Core 0 stands before the nests of an image: `d` its one descriptor, `r` and `x` two nest records, `m` of them in
force, extents `e` and `f` at 0x1000 and 0x1010 of the quire store. -/
def nested (m r x e f : Nat) : State :=
  (((runs 0 0x2000006 on).put (qsrAddr 0 24) 2 m).put (qsrAddr 0 128) 128 (r + x * 2 ^ 512)).put (qsrAddr 0 0x1000) 32 (e + f * 2 ^ 128)

/-- Quire 127 runs an image of one layer, which is to be loaded for context 1 from 0x1000 to 0x2000. -/
def layered : State :=
  ((((one (runs 4095 0 on)).put (qsrAddr 127 26) 2 1).put (qsrAddr 127 23) 1 1).put (qsrAddr 127 128) 16 0x3ff0001000020000000000000001000).modQuire 127 fun Q =>
    { Q with started := 1, layerCtx := 1 }

/-- A delivery of two bytes to position 31 of quire 127, `far` from another core or for the multicast that its leader
fetched, and the MOVE that waits for it. -/
def arriving (far : Bool) : Delivery :=
  { remote := far, mask := 0x80000000, dst := 0x100, stride := 64, rowBytes := 2, data := [(7, 0), (8, 0)], prod := some 63,
    leader := 4095, desc := 3 }

def awaited (far : Bool) : State :=
  (on.modQuire 127 fun Q => { Q with deliveries := [arriving far] }).modCore 4095 fun C =>
    { C with inflight := [{ (default : InFlight) with id := 3, eng := .dmv, word := 0x80000000000000020000000100000000000000000000000000000100000000000000000000000000000000100000000000000005, wait := 1 }] }

/-- Core 4095 at a state descriptor that names stream 262144, whose entry is `v`. -/
def stateOn (d v : Nat) : State := (runs 4095 d (streams v)).put (spdAddr 4095 0x2000) 16 262144

/-- Core 4095 with a queued chunk on stream 262144, whose entry is `v`. -/
def claiming (v : Nat) : State :=
  (runs 4095 0 (streams v)).modCore 4095 fun C =>
    { C with inflight := [{ (default : InFlight) with eng := .sta, pending := true, strs := [262144], id := 3 }] }

/-- Core 4095 whose stream slot 1 holds stream 262144, whose entry is `v`. -/
def holding (v : Nat) : State :=
  (runs 4095 0 (streams v)).modCore 4095 fun C => { C with strSlots := C.strSlots.set 1 { (default : StrSlot) with stream := 262145 } }

/-- A state with a burned fuse and a written byte, its next command waiting, and the state after that command. -/
def waiting : State :=
  { (on.modLink 32 fun L => { L with st := .up }).put 0x1000 1 7 with nv := { on.nv with fwRevoked := 1, ownerRevoked := 1 }, pending := [.couchWr ({ (default : CchPkt) with space := true, tag := 65535, addr := 0x10F1FC0, len := 64, data := List.replicate 64 7 })] }
def answered : State := match step waiting with | .next t => t | _ => on

/-- The hypotheses of SuppliesComplete, clause by clause, are met. -/
theorem test_supplies_complete_met :
  (∃ (s : State) (v : BitVec 10), s.mod.auxOk = true ∧ s.mod.tripped = false ∧ s.mod.converters = false ∧ 470 ≤ v.toNat) ∧
  (∃ (s : State) (v : BitVec 10) (a : BitVec 10), s.mod.converters = true ∧
    (v.toNat < 460 ∨ 600 < v.toNat ∨ auxInRange a = false)) ∧
  (∃ (s : State) (a : BitVec 10), auxInRange a = true ∧ s.mod.auxOk = false) ∧
  (∃ (ns : BitVec 40), 1000000 ≤ ns.toNat) ∧
  (∃ (ns : BitVec 40), ns.toNat < 1000) ∧
  (∃ (s : State), s.mod.converters = true) :=
  ⟨⟨{ on with mod := { on.mod with converters := false } }, 470, by decide +kernel, by decide +kernel,
    by decide +kernel, by decide +kernel⟩,
    ⟨on, 459, 120, by decide +kernel, by decide +kernel⟩,
    ⟨State.reset, 114, by decide +kernel, by decide +kernel⟩,
    ⟨1000000, by decide +kernel⟩,
    ⟨999, by decide +kernel⟩,
    ⟨on, by decide +kernel⟩⟩

/-- The hypotheses of PowerAndCoolant, clause by clause, are met. -/
theorem test_power_and_coolant_met :
  (∃ (s : State), s.mod.converters = true) ∧
  (∃ (s : State), s.mod.auxOk = true) :=
  ⟨⟨on, by decide +kernel⟩,
    ⟨on, by decide +kernel⟩⟩

/-- The hypotheses of ManagementBus, clause by clause, are met. -/
theorem test_management_bus_met :
  (∃ (s : State), s.mod.auxOk = true) ∧
  (∃ (s : State) (i : BitVec 8), s.mod.auxOk = true ∧ 1 ≤ i.toNat ∧ i.toNat ≤ 9 ∧ sensorAvailable s i.toNat = true) ∧
  (∃ (s : State), s.mod.auxOk = true) :=
  ⟨⟨on, by decide +kernel⟩,
    ⟨on, 9, by decide +kernel, by decide +kernel, by decide +kernel, by decide +kernel⟩,
    ⟨on, by decide +kernel⟩⟩

/-- The hypotheses of BringUpComplete, clause by clause, are met. -/
theorem test_bring_up_complete_met :
  (∃ (s : State), s.mod.converters = true ∧ s.mod.tripped = false ∧ s.mod.inReset = true) ∧
  (∃ (s : State) (v : Word32), s.wmk.bootWindow = true ∧ bit v.toNat 31 = true ∧ bit v.toNat 23 = false ∧
    s.rbit Reg.plnReady 0 = false) ∧
  (∃ (s : State) (k : StackId), testsBegun s = true ∧ (s.stack k.val).train = .idle) ∧
  (∃ (s : State) (k : StackId) (n : Nat), (s.stack k.val).train = .testing (n + 1)) ∧
  (∃ (s : State) (k : StackId), (s.stack k.val).train = .testing 0) ∧
  (∃ (s : State), passDue s = true ∧ checksPass s = true) ∧
  (∃ (s : State) (c : CoreId), proofDue s c.val (c.val / 32) = true) ∧
  (∃ (s : State) (q : QuireId), proofDue s (4096 + q.val) q.val = true) ∧
  (∃ (s : State) (d : DieId) (side : BridgeSide), s.pkg.bridgeFailed.getLsbD (3 * d.val + sideBit side) = false) :=
  ⟨⟨{ on with mod := { on.mod with inReset := true } }, by decide +kernel, by decide +kernel, by decide +kernel⟩,
    ⟨{ State.reset with wmk := { WmkSt.reset with bootWindow := true } }, 0x80000000, by decide +kernel,
      by decide +kernel, by decide +kernel, by decide +kernel⟩,
    ⟨on.rsetFld Reg.plnBootPhase 0 4 4, 23, by decide +kernel, by decide +kernel⟩,
    ⟨on.modStack 0 fun S => { S with train := .testing 1 }, 0, 0, by decide +kernel⟩,
    ⟨on.modStack 23 fun S => { S with train := .testing 0 }, 23, by decide +kernel⟩,
    ⟨trained, by decide +kernel, by decide +kernel⟩,
    ⟨trained, 63, by decide +kernel⟩,
    ⟨trained, 1, by decide +kernel⟩,
    ⟨on, 0, .west, by decide +kernel⟩⟩

/-- The hypotheses of StackUnits, clause by clause, are met. -/
theorem test_stack_units_met :
  (∃ (s : State) (k : StackId) (u : BitVec 28), u.toNat < 167772160 ∧ bankBlocked s k.val u.toNat = false) ∧
  (∃ (s : State) (k : StackId) (u : BitVec 28) (data : List Byte), u.toNat < 167772160 ∧ data.length = 512 ∧
    bankBlocked s k.val u.toNat = false) ∧
  (∃ (b : BitVec 25), b.toNat < 20971520) :=
  ⟨⟨on, 23, 167772159, by decide +kernel, by decide +kernel⟩,
    ⟨on, 23, 167772159, List.replicate 512 7, by decide +kernel, by decide +kernel, by decide +kernel⟩,
    ⟨20971519, by decide +kernel⟩⟩

/-- The hypotheses of StackErrorsAndRepair, clause by clause, are met. -/
theorem test_stack_errors_and_repair_met :
  (∃ (s : State) (k : StackId) (pc : PcId), ((s.stack k.val).pcs.get pc.val).waiting = true) ∧
  (∃ (s : State) (k : StackId) (pc : PcId), ((s.stack k.val).pcs.get pc.val).due = true ∧
    ((s.stack k.val).pcs.get pc.val).st = .active ∧ (s.stack k.val).order.length < 2) ∧
  (∃ (s : State) (k : StackId) (pc : PcId), ((s.stack k.val).pcs.get pc.val).st = .evacuating ∧ allVacated s k.val = true) ∧
  (∃ (s : State) (k : StackId) (pc : PcId), ((s.stack k.val).pcs.get pc.val).st = .copying) ∧
  (∃ (s : State) (e : LogEnt) (r : List LogEnt), s.stk.logQ = e :: r ∧ s.nv.logLen + 8 ≤ 0x400000) :=
  ⟨⟨(on.modStack 23 fun S => { S with pcs := S.pcs.set 31 { (default : Pc) with waiting := true, reissues := 3 } }), 23,
    31, by decide +kernel⟩,
    ⟨(on.modStack 23 fun S => { S with pcs := S.pcs.set 31 { (default : Pc) with due := true } }), 23, 31,
      by decide +kernel, by decide +kernel, by decide +kernel⟩,
    ⟨(on.modStack 23 fun S => { S with pcs := S.pcs.set 31 { (default : Pc) with st := .evacuating } }), 23, 31,
      by decide +kernel, by decide +kernel⟩,
    ⟨(on.modStack 23 fun S => { S with pcs := S.pcs.set 31 { (default : Pc) with st := .copying } }), 23, 31,
      by decide +kernel⟩,
    ⟨{ on with stk := { on.stk with logQ := [⟨.remap, 23, 31, 63, 40000, 7⟩] }, nv := { on.nv with logLen := 0x3FFFF8 } }, ⟨.remap, 23, 31, 63, 40000, 7⟩, [], by decide +kernel, by decide +kernel⟩⟩

/-- The hypotheses of StackTemperature, clause by clause, are met. -/
theorem test_stack_temperature_met :
  (∃ (s : State) (k : StackId), (s.stack k.val).tempFails < 2) ∧
  (∃ (s : State) (k : StackId), 2 ≤ (s.stack k.val).tempFails) :=
  ⟨⟨on.modStack 23 fun S => { S with tempFails := 1 }, 23, by decide +kernel⟩,
    ⟨on.modStack 23 fun S => { S with tempFails := 2 }, 23, by decide +kernel⟩⟩

/-- The hypotheses of BankPower, clause by clause, are met. -/
theorem test_bank_power_met :
  (∃ (s : State) (b : BankRef), (getBank s b).st = .on) ∧
  (∃ (s : State) (b : BankRef), (getBank s b).st = .off ∧ (getBank s b).phase = false) ∧
  (∃ (s : State) (b : BankRef), (getBank s b).st = .draining ∧ pendingWrites s b = 0) ∧
  (∃ (s : State) (b : BankRef), (getBank s b).st = .off ∧ (getBank s b).phase = true) ∧
  (∃ (s : State) (b : BankRef), (getBank s b).st = .waking ∧ (getBank s b).phase = false) ∧
  (∃ (s : State) (b : BankRef), (getBank s b).st = .waking ∧ (getBank s b).phase = true) :=
  ⟨⟨on, .qsr 127 31, by decide +kernel⟩,
    ⟨(setBank on (.spd 4095 23) fun _ => { (default : Bank) with st := .off }), .spd 4095 23, by decide +kernel,
      by decide +kernel⟩,
    ⟨(setBank on (.spd 4095 23) fun _ => { (default : Bank) with st := .draining }), .spd 4095 23, by decide +kernel,
      by decide +kernel⟩,
    ⟨(setBank on (.spd 4095 23) fun _ => { (default : Bank) with st := .off, phase := true, upRecorded := true }),
      .spd 4095 23, by decide +kernel, by decide +kernel⟩,
    ⟨(setBank on (.spd 4095 23) fun _ => { (default : Bank) with st := .waking }), .spd 4095 23, by decide +kernel,
      by decide +kernel⟩,
    ⟨(setBank on (.spd 4095 23) fun _ => { (default : Bank) with st := .waking, phase := true }), .spd 4095 23,
      by decide +kernel, by decide +kernel⟩⟩

/-- The hypotheses of GatherAndLineTest, clause by clause, are met. -/
theorem test_gather_and_line_test_met :
  (∃ (s : State) (c : CoreId) (l : Fin 6144) (e : GatherEnt), gatherAt s c.val l.val = some e) ∧
  (∃ (s : State) (c : CoreId) (l : Fin 6144), testDue s (.spd c l) = true) ∧
  (∃ (s : State) (c : CoreId) (l : Fin 2048), testDue s (.sts c l) = true) ∧
  (∃ (s : State) (q : QuireId) (l : Fin 65536), testDue s (.qsr q l) = true) :=
  ⟨⟨on.modCore 4095 fun C => { C with gather := [{ line := 6143, mask := 0xF, data := 0x04030201, desc := 0, bad := 0 }] }, 4095, 6143, { line := 6143, mask := 0xF, data := 0x04030201, desc := 0, bad := 0 }, by decide +kernel⟩,
    ⟨on.modCore 4095 fun C => { C with toTest := [6143] }, 4095, 6143, by decide +kernel⟩,
    ⟨on.modCore 4095 fun C => { C with toTest := [0x107FF] }, 4095, 2047, by decide +kernel⟩,
    ⟨on.modQuire 127 fun Q => { Q with toTest := [65535] }, 127, 65535, by decide +kernel⟩⟩

/-- The hypotheses of CalenderTables, clause by clause, are met. -/
theorem test_calender_tables_met :
  (∃ (s : State) (k : Fin 4), (s.cal.slots.get k.val).st = .loading) ∧
  (∃ (s : State) (k : Fin 4), (s.cal.slots.get k.val).st = .retiring ∧ queuedOf s k.val = 0 ∧ s.cal.wait = none) ∧
  (∃ (s : State) (k : StackId) (f : Nat) (r : List Nat), s.cal.sealQ.get k.val = f :: r ∧ s.rbit Reg.calCtrl 1 = true) ∧
  (∃ (s : State) (k : StackId) (f : Nat) (old : Nat) (j : Nat), recodeFrame s k.val = some (f, old) ∧
    s.rbit Reg.calCtrl 2 = true ∧ currentSlot s = some j) :=
  ⟨⟨{ on with cal := { on.cal with slots := on.cal.slots.set 3 { (default : TableSlot) with st := .loading } } }, 3,
    by decide +kernel⟩,
    ⟨{ on with cal := { on.cal with slots := on.cal.slots.set 3 { (default : TableSlot) with st := .retiring } } }, 3,
      by decide +kernel, by decide +kernel, by decide +kernel⟩,
    ⟨{ on with cal := { on.cal with sealQ := on.cal.sealQ.set 23 [23 * 40960] } }.ror Reg.calCtrl 2, 23, 23 * 40960, [],
      by decide +kernel, by decide +kernel⟩,
    ⟨coded, 0, 0, 3, 0, by decide +kernel, by decide +kernel, by decide +kernel⟩⟩

/-- The hypotheses of VatCounts, clause by clause, are met. -/
theorem test_vat_counts_met :
  (∃ (s : State) (p : PageId), (s.page p.val).st ≠ .free ∧ 32768 < ageOf s (s.page p.val)) ∧
  (∃ (s : State) (p : PageId) (o : RefOp), firstRef s.vat.refq p.val = some o ∧ o.up = true) ∧
  (∃ (s : State) (p : PageId) (o : RefOp), firstRef s.vat.refq p.val = some o ∧ o.up = false ∧
    (s.page p.val).refcnt ≠ 0 ∧ (s.page p.val).held = true) :=
  ⟨⟨({ on with vat := { on.vat with tick := 32769 } }).modPage 524287 fun e => { e with st := .live }, 524287,
    by decide +kernel, by decide +kernel⟩,
    ⟨({ on with vat := { on.vat with refq := [⟨524287, true, 0⟩] } }).modPage 524287 fun e => { e with st := .live },
      524287, ⟨524287, true, 0⟩, by decide +kernel, by decide +kernel⟩,
    ⟨({ on with vat := { on.vat with refq := [⟨524287, false, 0⟩] } }).modPage 524287 fun e => { e with st := .live, held := true, refcnt := 1 }, 524287, ⟨524287, false, 0⟩, by decide +kernel, by decide +kernel, by decide +kernel, by decide +kernel⟩⟩

/-- The hypotheses of VatPages, clause by clause, are met. -/
theorem test_vat_pages_met :
  (∃ (s : State) (d : DieId) (i : Nat) (p : Nat), vatFree s d.val < s.rnat (Reg.vatLow d.val) ∧
    dropPasses s (fun o => decide (reserveOf s o < usedBy s o)) (handTurn s d.val) 17 32768 = some (i, p)) ∧
  (∃ (s : State) (p : PageId), (s.page p.val).st = .exporting ∧ vatPending s p.val = false ∧
    VatEnt.count (s.page p.val) ≠ 0) ∧
  (∃ (s : State) (p : PageId), (s.page p.val).st = .importing ∧ (s.page p.val).bad = false ∧
    vatPending s p.val = false ∧ VatEnt.count (s.page p.val) ≠ 0) ∧
  (∃ (s : State) (p : PageId), (s.page p.val).st = .moving ∧ VatEnt.count (s.page p.val) ≠ 0) :=
  ⟨⟨tight, 0, 0, 5, by decide +kernel, by decide +kernel⟩,
    ⟨(on.modPage 524287 fun e => { e with st := .exporting, pin := true, other := 7 }), 524287, by decide +kernel,
      by decide +kernel, by decide +kernel⟩,
    ⟨(on.modPage 524287 fun e => { e with st := .importing, pin := true }), 524287, by decide +kernel,
      by decide +kernel, by decide +kernel, by decide +kernel⟩,
    ⟨(on.modPage 524287 fun e => { e with st := .moving, pin := true, other := 7 }), 524287, by decide +kernel,
      by decide +kernel⟩⟩

/-- The hypotheses of Rebuilds, clause by clause, are met. -/
theorem test_rebuilds_met :
  (∃ (s : State) (p : PartId) (d : Nat) (q : Nat) (rest : List Nat), s.vat.active.get p.val = none ∧
    s.vat.queue.get p.val = d :: rest ∧ (s.page d).st = .dropped ∧ rebuildBarred s p.val d = false ∧
    ((s.page d).srcPage.toNat :: lowerPages s d).find? (fun q => !((s.page q).st = .live)) = some q ∧
    (s.page q).st = .dropped) ∧
  (∃ (s : State) (p : PartId) (d : Nat) (rest : List Nat), s.vat.active.get p.val = none ∧
    s.vat.queue.get p.val = d :: rest ∧ (s.page d).st = .dropped ∧ rebuildBarred s p.val d = false ∧ (∀ q,
    q ∈ (s.page d).srcPage.toNat :: lowerPages s d → (s.page q).st = .live)) ∧
  (∃ (s : State) (p : PartId) (r : Rebuild), s.vat.active.get p.val = some r ∧ r.walked = true ∧
    (s.page r.scratch).st = .live ∧ VatEnt.count (s.page r.page) ≠ 0 ∧ r.page ≠ r.scratch) ∧
  (∃ (s : State) (p : PageId), (s.page p.val).st = .importing ∧ (s.page p.val).bad = true ∧ vatPending s p.val = false ∧
    (s.page p.val).waiters = []) :=
  ⟨⟨rebuilding.modPage 9 fun e => { e with st := .dropped }, 3, 8, 9, [], by decide +kernel, by decide +kernel,
    by decide +kernel, by decide +kernel, by decide +kernel, by decide +kernel⟩,
    ⟨rebuilding.modPage 9 fun e => { e with st := .live }, 3, 8, [], by decide +kernel, by decide +kernel,
      by decide +kernel, by decide +kernel, by decide +kernel⟩,
    ⟨({ on with vat := { on.vat with active := on.vat.active.set 3 (some ⟨8, 7, 10, true⟩) } }.modPage 8 fun e => { e with st := .rebuilding, held := true }).modPage 10 fun e => { e with st := .live, pin := true, frame := 3 }, 3, ⟨8, 7, 10, true⟩, by decide +kernel, by decide +kernel, by decide +kernel, by decide +kernel, by decide +kernel⟩,
    ⟨(on.modPage 524287 fun e => { e with st := .importing, bad := true, other := 7 }), 524287, by decide +kernel,
      by decide +kernel, by decide +kernel, by decide +kernel⟩⟩

/-- The hypotheses of Rollouts, clause by clause, are met. -/
theorem test_rollouts_met :
  (∃ (s : State) (p : PartId), ((s.part p.val).works.get 16).busy = true ∧ allEnded s ((s.part p.val).works.get 16) = true) ∧
  (∃ (s : State) (g : GroupId), (s.part (s.group g.val).part).boundaries.head? = some g.val ∧
    (s.group g.val).st = .running) ∧
  (∃ (s : State) (g : GroupId), (s.group g.val).st = .forming ∧ (s.group g.val).formed = true ∧ (s.group g.val).status ≠ 0) ∧
  (∃ (s : State) (b : BranchId), (s.branch b.val).st = .forking ∧ (s.branch b.val).need = []) ∧
  (∃ (s : State) (g : GroupId), (s.group g.val).st = .ending ∧
    (members s g.val).any (fun b => (s.branch b).st = .rostered) = false ∧ rootRuns s g.val = false) ∧
  (∃ (s : State) (b : BranchId), (s.branch b.val).st = .releasing ∧ s.vat.refq.any (·.branch == b.val + 1) = false ∧
    (s.branch b.val).closed = true ∧ rollTearing s (s.branch b.val).part = false) ∧
  (∃ (s : State) (p : PartId) (g : Program), (s.part p.val).program = some g ∧ mayClose s p.val = true ∧
    ((readyOrder s p.val ((s.part p.val).step + 1).toNat).foldl (admitBranch p.val g.ctx (min 8192 (partImg s p.val 20 2)) (skippedGroups s (min 8192 (partImg s p.val 20 2)) (readyOrder s p.val ((s.part p.val).step + 1).toNat) 4096 [])) { s := s, admitted := [], lost := [], wait := false }).wait = false) ∧
  (∃ (s : State) (g : GroupId), 1024 ≤ (s.group g.val).skips) ∧
  (∃ (s : State) (b : BranchId), 1024 ≤ (s.branch b.val).skips) :=
  ⟨⟨ended 16, 5, by decide +kernel, by decide +kernel⟩,
    ⟨steps.modPart 5 fun P => { P with boundaries := [4095] }, 4095, by decide +kernel, by decide +kernel⟩,
    ⟨on.modGroup 4095 fun g => { g with st := .forming, formed := true, status := 1 }, 4095, by decide +kernel,
      by decide +kernel, by decide +kernel⟩,
    ⟨on.modBranch 262143 fun b => { b with st := .forking }, 262143, by decide +kernel, by decide +kernel⟩,
    ⟨on.modGroup 4095 fun g => { g with st := .ending }, 4095, by decide +kernel, by decide +kernel, by decide +kernel⟩,
    ⟨on.modBranch 262143 fun b => { b with st := .releasing, closed := true }, 262143, by decide +kernel,
      by decide +kernel, by decide +kernel, by decide +kernel⟩,
    ⟨steps, 5, { (default : Program) with isStep := true, ctx := 1 }, by decide +kernel, by decide +kernel,
      by decide +kernel⟩,
    ⟨on.modGroup 4095 fun g => { g with skips := 1024 }, 4095, by decide +kernel⟩,
    ⟨on.modBranch 262143 fun b => { b with skips := 1024 }, 262143, by decide +kernel⟩⟩

/-- The hypotheses of Scheduling, clause by clause, are met. -/
theorem test_scheduling_met :
  (∃ (s : State) (p : PartId) (w : Work) (w1 : Work) (k : Nat) (qs : List Nat), (s.part p.val).st = .ready ∧
    s.wmk.entropy = .healthy ∧ ([2, 1,
    0].filterMap (headOf (s.part p.val))).findSome? (fun w => (startWith s p.val w).map fun k => (w, k)) = some (w, k,
    qs, w1) ∧ w.kind = .launch) ∧
  (∃ (s : State) (p : PartId) (k : Fin 17), k.val ≠ 16 ∧ ((s.part p.val).works.get k.val).busy = true ∧
    allEnded s ((s.part p.val).works.get k.val) = true) ∧
  (∃ (s : State) (p : PartId), (s.part p.val).table ≠ []) ∧
  (∃ (s : State) (c : CoreId), (s.core c.val).part ≠ 0 ∧ (workOf s c.val).st = .preempting ∧
    (s.core c.val).preempt = true ∧ (s.core c.val).spilled = false ∧ atCheapPoint s c.val = true ∧
    (s.core c.val).strSlots.cells = []) ∧
  (∃ (s : State) (p : PartId) (k : Fin 17), ((s.part p.val).works.get k.val).st = .preempting ∧
    (coresOf ((s.part p.val).works.get k.val).quires).all (fun c => (s.core c).spilled) = true) ∧
  (∃ (s : State) (p : PartId) (k : Fin 17), mayResume s p.val k.val = true ∧ (∀ c,
    c ∈ coresOf ((s.part p.val).works.get k.val).quires → (s.saved.get ((p.val * 17 + k.val) * 4096 + c)).mma.active.src = 0 ∧ (s.saved.get ((p.val * 17 + k.val) * 4096 + c)).mma.shadow.src = 0)) ∧
  (∃ (s : State) (c : CoreId), (s.core c.val).part ≠ 0 ∧ (s.core c.val).ended = false ∧ (workOf s c.val).busy = true ∧
    (s.ctx (s.core c.val).ctx).par.stallAction = false) :=
  ⟨⟨launched, 127, task, { task with saveAt := 32, saveFrames := 1 }, 0, [0], by decide +kernel, by decide +kernel,
    by decide +kernel, by decide +kernel⟩,
    ⟨ended 15, 5, 15, by decide +kernel, by decide +kernel, by decide +kernel⟩,
    ⟨on.modPart 127 fun P => { P with table := [(12000, 0), (24000, 1)], slot := 1 }, 127, by decide +kernel⟩,
    ⟨(workIn .preempting (runs 4095 0 on)).modCore 4095 fun C => { C with preempt := true }, 4095, by decide +kernel,
      by decide +kernel, by decide +kernel, by decide +kernel, by decide +kernel, by decide +kernel⟩,
    ⟨workIn .preempting ({ ended 15 with cores := ⟨(List.range 32).map fun c => (c, { (default : Core) with spilled := true })⟩ }.modPart 127 fun P => { P with works := P.works.set 0 { (default : Work) with quires := 1 } }), 127, 0, by decide +kernel, by decide +kernel⟩,
    ⟨workIn .preempted (runs 31 0 on), 127, 0, by decide +kernel, by decide +kernel⟩,
    ⟨runs 4095 0 on, 4095, by decide +kernel, by decide +kernel, by decide +kernel, by decide +kernel⟩⟩

/-- The hypotheses of PartitionsComplete, clause by clause, are met. -/
theorem test_partitions_complete_met :
  (∃ (s : State) (p : PartId), (s.part p.val).st = .resetting ∧
    (s.part p.val).tearing.any (fun x => (s.ctx x).st = .tearing) = false) ∧
  (∃ (s : State) (p : PartId), (s.part p.val).st = .destroying ∧ (s.part p.val).recorded = none) :=
  ⟨⟨on.modPart 127 fun P => { P with st := .resetting, tearing := [1] }, 127, by decide +kernel, by decide +kernel⟩,
    ⟨on.modPart 127 fun P => { P with st := .destroying, destroyers := [] }, 127, by decide +kernel, by decide +kernel⟩⟩

/-- The hypotheses of MailboxRefusals, clause by clause, are met. -/
theorem test_mailbox_refusals_met :
  (∃ (c : Nat × (BoxId → Instr)), c ∈ boxCommands ∧ ∃ (m : BoxId) (s : State) (a : Ans), atHead s m.val c.1 = true ∧
    precheck s m.val (headEntry s m.val) = some a) ∧
  (∃ (c : Nat × (BoxId → Instr)), c ∈ boxCommands ∧ ∃ (m : BoxId) (s : State), atHead s m.val c.1 = false) :=
  ⟨⟨(0x0001, .info), List.Mem.head _, 255, cmd 255 0x0001 0 0 on, denied, by decide +kernel,
    denied_box _ _ _ (by decide +kernel) (by decide +kernel) (by decide +kernel)⟩,
    ⟨(0x0001, .info), List.Mem.head _, 255, cmd 255 0x0002 0 0 on, by decide +kernel⟩⟩

/-- The hypotheses of SystemCommands, clause by clause, are met. -/
theorem test_system_commands_met :
  (∃ (m : BoxId) (s : State), Takes s m.val 0x0001) ∧
  (∃ (m : BoxId) (s : State) (u : Nat) (b : Nat) (r : BankRef), Takes s m.val 0x0004 ∧
    let e := headEntry s m.val
    let first := eField e 16 12
    let count := eField e 18 9
    let quireOf (u : Nat) : Nat := if bit (lineN e 20 1) 0 then u else u / 32
    let ref (u b : Nat) : Option BankRef := if bit (lineN e 20 1) 0 then qsrRef u b else spdRef u b
    1 ≤ count ∧ count ≤ 256 ∧ first + count ≤ (if bit (lineN e 20 1) 0 then 128 else 4096) ∧
      (bit (lineN e 20 1) 0 = false → eField e 24 32 < 2 ^ 24) ∧ (∀ u,
      first ≤ u → u < first + count → ownQuire s m.val (eContext e) (quireOf u) = true) ∧ first ≤ u ∧
      u < first + count ∧ isBacked s (quireOf u) = true ∧ (∀ b' r',
      bit (eField e 24 32) b' = true → b' < 32 → ref u b' = some r' → (getBank s r').retired = false) ∧
      bit (eField e 24 32) b = true ∧ b < 32 ∧ ref u b = some r) ∧
  (∃ (m : BoxId) (s : State) (k : Nat), Takes s m.val 0x0005 ∧
    let a := eField (headEntry s m.val) 24 64
    Reads s 0 a 256 64 ∧ tableImageOk (s.rdN a 256) = true ∧ s.cal.wait = none ∧ (∀ j,
      j < 4 → (s.cal.slots.get j).st ≠ .free → (s.cal.slots.get j).version.toNat % 256 ≠ s.rdN a 1) ∧ k < 4 ∧
      (s.cal.slots.get k).st = .free ∧ (∀ j, j < k → (s.cal.slots.get j).st ≠ .free)) ∧
  (∃ (m : BoxId) (s : State) (k : Nat), Takes s m.val 0x0006 ∧ currentSlot s = some k) ∧
  (∃ (m : BoxId) (s : State), Takes s m.val 0x0C01) ∧
  (∃ (m : BoxId) (s : State), Takes s m.val 0x0C02) :=
  ⟨⟨255, (cmd 255 0x0001 1 0 (one on)).modBox 255 fun b => { b with grantee := 1 }, by unfold Takes; decide +kernel⟩,
    ⟨0, cmd 0 0x0004 0 0x800000000000000002001f on, 32, 23, .spd 32 23, by unfold Takes; decide +kernel,
      by decide +kernel, by decide +kernel, by decide +kernel, by decide +kernel, fun _ _ _ => rfl, by decide +kernel,
      by decide +kernel, by decide +kernel, fun _ r _ _ _ => by cases r <;> rfl, by decide +kernel, by decide +kernel,
      by decide +kernel⟩,
    ⟨0, cmd 0 0x0005 0 0x10000000000000000000 tabled, 0, by unfold Takes; decide +kernel,
      by unfold Reads; decide +kernel, by decide +kernel, by decide +kernel, all_below (by decide +kernel),
      by decide +kernel, by decide +kernel, all_below (by decide +kernel)⟩,
    ⟨0, cmd 0 0x0006 0 0 { on with cal := { on.cal with slots := on.cal.slots.set 3 { (default : TableSlot) with st := .current } } }, 3, by unfold Takes; decide +kernel, by decide +kernel⟩,
    ⟨0, cmd 0 0x0C01 0 0xfa00009000000786e0f on, by unfold Takes; decide +kernel⟩,
    ⟨0, cmd 0 0x0C02 0 0 on, by unfold Takes; decide +kernel⟩⟩

/-- The hypotheses of ReportingCommands, clause by clause, are met. -/
theorem test_reporting_commands_met :
  (∃ (m : BoxId) (s : State), Takes s m.val 0x0901 ∧ bit (lineN (headEntry s m.val) 16 1) 0 = true ∧
    1 ≤ eField (headEntry s m.val) 24 16 ∧ eField (headEntry s m.val) 24 16 ≤ 1024) ∧
  (∃ (s : State) (c : Nat × ErrEntry), Takes s 0 0x0901 ∧
    let e := headEntry s 0
    bit (lineN e 16 1) 0 = false ∧ 1 ≤ eField e 24 16 ∧ eField e 24 16 ≤ 1024 ∧
      c ∈ ringFrom s (eField e 20 32) (eField e 24 16)) ∧
  (∃ (m : BoxId) (s : State), Takes s m.val 0x0902 ∧ bit (lineN (headEntry s m.val) 16 1) 0 = true) ∧
  (∃ (m : BoxId) (s : State), Takes s m.val 0x0D01 ∧ bit (lineN (headEntry s m.val) 20 1) 0 = false) ∧
  (∃ (m : BoxId) (s : State) (n : Nat), Takes s m.val 0x0D02 ∧
    let e := headEntry s m.val
    n < 32 ∧ bit (eField e 16 32) n = true) ∧
  (∃ (m : BoxId) (s : State), Takes s m.val 0x0D03 ∧
    let e := headEntry s m.val
    s.rnat Reg.plnTopoChecks ≠ 0 ∧ s.chain.mgrValid = true ∧ eField e 16 14 = managerId s ∧
      eField e 18 16 = s.chain.epoch.toNat ∧ (∀ n, n < 32 → bit (eField e 24 32) n = true → (s.link n).st ≠ .down)) ∧
  (∃ (m : BoxId) (s : State) (k : Nat), Takes s m.val 0x0D04 ∧ bitsOf 24 (eField (headEntry s m.val) 16 24) = [k] ∧
    (stackBytes_ s m.val (eContext (headEntry s m.val)) k).length ≤ 0x10000) ∧
  (∃ (m : BoxId) (s : State) (n : Nat) (size : Nat) (entry : Nat → List Byte), Takes s m.val 0x0E01 ∧
    let e := headEntry s m.val
    diagTarget s m.val (eContext e) (eField e 16 4) = some (n, size, entry)) :=
  ⟨⟨0, cmd 0 0x0901 1 0x10000000000000001 (one on), by unfold Takes; decide +kernel, by decide +kernel,
    by decide +kernel, by decide +kernel⟩,
    ⟨cmd 0 0x0901 0 0x10000000300000000 logged, (0, { (default : ErrEntry) with held := true, seq := 3 }),
      by unfold Takes; decide +kernel, by decide +kernel, by decide +kernel, by decide +kernel, by decide +kernel⟩,
    ⟨0, cmd 0 0x0902 1 0x1 (one on), by unfold Takes; decide +kernel, by decide +kernel⟩,
    ⟨0, cmd 0 0x0D01 0 0x80000001 on, by unfold Takes; decide +kernel, by decide +kernel⟩,
    ⟨0, cmd 0 0x0D02 0 0x180000000 on, 31, by unfold Takes; decide +kernel, by decide +kernel, by decide +kernel⟩,
    ⟨0, cmd 0 0x0D03 0 0x1800000000000000000000000 ({ on with chain := { on.chain with mgrValid := true } }.rset Reg.plnTopoChecks 1), by unfold Takes; decide +kernel, by decide +kernel, by decide +kernel, by decide +kernel, by decide +kernel, all_below (by decide +kernel)⟩,
    ⟨0, cmd 0 0x0D04 0 0x800000 on, 23, by unfold Takes; decide +kernel, by decide +kernel, by decide +kernel⟩,
    ⟨0, (cmd 0 0x0E01 0 0x90007ffff00000004 on), 524288, 16,
      diagEntry (cmd 0 0x0E01 0 0x90007ffff00000004 on) 0 (eContext (headEntry (cmd 0 0x0E01 0 0x90007ffff00000004 on) 0)), by unfold Takes; decide +kernel, diag_pages _ _ _ _ (by decide +kernel)⟩⟩

/-- The hypotheses of PartitionCommands, clause by clause, are met. -/
theorem test_partition_commands_met :
  (∃ (s : State), Takes s 0 0x0101 ∧
    let p := eField (headEntry s 0) 16 7
    let qs := BitVec.ofNat 128 (eField (headEntry s 0) 24 128)
    qs ≠ 0 ∧ (∀ q, q < 128 → qs.getLsbD q = true → isBacked s q = true ∧ s.pkg.impaired.getLsbD q = false) ∧
      (s.part p).st = .free ∧ (s.part p).recorded = none ∧ (∀ c, c ∈ s.arm.parts.cells → c.2.recorded = none ∧
      (c.1 ≠ p → c.2.quires &&& qs = 0))) ∧
  (∃ (s : State), Takes s 0 0x0102 ∧
    let p := eField (headEntry s 0) 16 7
    (s.part p).st = .ready ∧ (s.part p).program = none ∧ (s.part p).table = [] ∧ partNamed s p = false) ∧
  (∃ (s : State), Takes s 0 0x0103 ∧
    let e := headEntry s 0
    let x := eContext e
    let v := s.rdN (eField e 16 64) 64
    x ≠ 0 ∧ Reads s x (eField e 16 64) 64 64 ∧ reservedBit [(0, 128), (128, 8), (136, 3), (144, 8), (160, 32), (192,
      64), (256, 20), (288, 11)] v 512 = none ∧ (∀ p,
      p < 128 → (ctxParams v).partitions.getLsbD p = true → (s.part p).st = .ready) ∧
      ((ctxParams v).rebuildEn = true → (ctxParams v).partitions.getLsbD (ctxParams v).rebuild.toNat = true) ∧
      1 ≤ (ctxParams v).saveFrames.toNat ∧ (ctxParams v).saveFrames.toNat ≤ 1024 ∧
      runAllowed s (ctxParams v).saveFirst.toNat (ctxParams v).saveFrames.toNat = true ∧
      runTaken s x (ctxParams v).saveFirst.toNat (ctxParams v).saveFrames.toNat = false ∧ (s.ctx x).st = .free ∧
      (s.ctx x).recorded = none ∧ (s.arm.creates.any (·.ctx == x)) = false ∧ s.wmk.entropy = .healthy) ∧
  (∃ (s : State), Takes s 0 0x0104) :=
  ⟨⟨cmd 0 0x0101 0 0x3000000000000007f on, by unfold Takes; decide +kernel, by decide +kernel,
    all_below (by decide +kernel), by decide +kernel, by decide +kernel, by decide +kernel⟩,
    ⟨cmd 0 0x0102 0 0x7f (on.modPart 127 fun P => { P with st := .ready }), by unfold Takes; decide +kernel,
      by decide +kernel, by decide +kernel, by decide +kernel, by decide +kernel⟩,
    ⟨cmd 0 0x0103 1 0x800000001000 (((on.rset Reg.cchCompFrames 8).put 0x800000001020 4 8).put 0x800000001024 2 4),
      by unfold Takes; decide +kernel, by decide +kernel, by unfold Reads; decide +kernel, by decide +kernel,
      all_below (by decide +kernel), by decide +kernel, by decide +kernel, by decide +kernel, by decide +kernel,
      by decide +kernel, by decide +kernel, by decide +kernel, by decide +kernel, by decide +kernel⟩,
    ⟨cmd 0 0x0104 1 0 (one on), by unfold Takes; decide +kernel⟩⟩

/-- The hypotheses of GrantsAndPrograms, clause by clause, are met. -/
theorem test_grants_and_programs_met :
  (∃ (s : State), Takes s 0 0x0105 ∧
    let b := eField (headEntry s 0) 16 8
    b ≠ 0 ∧ (s.box b).grantee = 0) ∧
  (∃ (s : State), Takes s 0 0x0106 ∧
    let b := eField (headEntry s 0) 16 8
    b ≠ 0 ∧ (s.box b).grantee ≠ 0 ∧ (s.box b).revoking = none) ∧
  (∃ (s : State), Takes s 0 0x0107 ∧
    let e := headEntry s 0
    let x := eContext e
    let first := eField e 16 20
    let n := eField e 20 20
    n ≠ 0 ∧ bit (lineN e 24 1) 2 = false ∧ runAllowed s first n = true ∧ runTaken s x first n = false ∧
      (s.ctx x).grants.length < 64) ∧
  (∃ (s : State), Takes s 0 0x0107 ∧
    let e := headEntry s 0
    let x := eContext e
    let first := eField e 16 20
    let n := eField e 20 20
    n ≠ 0 ∧ bit (lineN e 24 1) 2 = true ∧ runAllowed s first n = true ∧ runTaken s x first n = false ∧
      ((s.ctx x).grants.flatMap (cutGrant first n)).length ≤ 64 ∧ accessesOf s x = []) ∧
  (∃ (m : BoxId) (s : State), Takes s m.val 0x0201 ∧
    let e := headEntry s m.val
    let x := eContext e
    let v := s.rdN (eField e 16 64) 64
    let p := bField v 12 7
    let im := memImg s (bField v 0 48)
    let len := bField v 8 21
    Reads s x (eField e 16 64) 64 64 ∧ reservedBit loadFields v 512 = none ∧ ownPart s m.val x p = true ∧ 64 ≤ len ∧
      len ≤ 1048576 ∧ (s.part p).st = .ready ∧ (s.ctx x).par.partitions.getLsbD p = true ∧ (s.part p).program = none ∧
      Reads s x (bField v 0 48) len 1 ∧ imStep im = false ∧ imageBrk s x im len = none ∧ taskBlk v = none ∧
      spaceOk im len = true) ∧
  (∃ (m : BoxId) (s : State) (g : Program), Takes s m.val 0x0202 ∧
    let h := eField (headEntry s m.val) 16 16
    let p := h % 128
    ownPart s m.val (eContext (headEntry s m.val)) p = true ∧ (s.part p).program = some g ∧ g.handle.toNat = h ∧
      g.stepPart = none ∧ g.rebuildPart = none ∧ (∀ c, c ∈ s.roll.groups.cells → c.2.st ≠ .free → c.2.part ≠ p) ∧
      (s.part p).works.cells = [] ∧ (s.part p).waiting = [] ∧ (s.part p).st = .ready) :=
  ⟨⟨cmd 0 0x0105 1 0xff (one on), by unfold Takes; decide +kernel, by decide +kernel, by decide +kernel⟩,
    ⟨cmd 0 0x0106 0 0xff (on.modBox 255 fun b => { b with grantee := 1 }), by unfold Takes; decide +kernel,
      by decide +kernel, by decide +kernel, by decide +kernel⟩,
    ⟨cmd 0 0x0107 1 0x30000000200000040 (one on), by unfold Takes; decide +kernel, by decide +kernel, by decide +kernel,
      by decide +kernel, by decide +kernel, by decide +kernel⟩,
    ⟨cmd 0 0x0107 1 0x70000000200000040 ((one on).modCtx 1 fun X => { X with grants := X.grants ++ [⟨64, 2, true, true⟩] }), by unfold Takes; decide +kernel, by decide +kernel, by decide +kernel, by decide +kernel, by decide +kernel, by decide +kernel, by decide +kernel⟩,
    ⟨0, cmd 0 0x0201 1 0x1000 imaged, by unfold Takes; decide +kernel, by unfold Reads; decide +kernel,
      by decide +kernel, by decide +kernel, by decide +kernel, by decide +kernel, by decide +kernel, by decide +kernel,
      by decide +kernel, by unfold Reads; decide +kernel, by decide +kernel, by decide +kernel, by decide +kernel,
      by decide +kernel⟩,
    ⟨0, cmd 0 0x0202 1 127 ((one on).modPart 127 fun P => { P with st := .ready, quires := 1, program := some { (default : Program) with handle := 127, ctx := 1 } }), { (default : Program) with handle := 127, ctx := 1 }, by unfold Takes; decide +kernel, by decide +kernel, by decide +kernel, by decide +kernel, by decide +kernel, by decide +kernel, by decide +kernel, by decide +kernel, by decide +kernel, by decide +kernel⟩⟩

/-- The hypotheses of GroupCommands, clause by clause, are met. -/
theorem test_group_commands_met :
  (∃ (m : BoxId) (s : State) (rp : Nat), Takes s m.val 0x0301 ∧
    let e := headEntry s m.val
    let x := eContext e
    let v := s.rdN (eField e 16 64) 128
    let p := bField v 0 7
    Reads s x (eField e 16 64) 128 64 ∧ reservedBit groupFields v 1024 = none ∧ ownPart s m.val x p = true ∧
      foreignStream s m.val x (bField v 20 24) = false ∧ (s.part p).st ≠ .resetting ∧ groupBrk s x v = none ∧
      Reads s x (bField v 40 48) 64 64 ∧ policyOk (BitVec.ofNat 512 (s.rdN (bField v 40 48) 64)) = true ∧
      groupFits s (bField v 4 17) = true ∧ rootTarget s x p (bField v 2 16) = some rp) ∧
  (∃ (m : BoxId) (s : State), Takes s m.val 0x0302 ∧
    let x := eContext (headEntry s m.val)
    let g := eField (headEntry s m.val) 16 12
    ownGroup s m.val x g = true ∧ (s.group g).st ≠ .free ∧ (s.group g).ctx = x) ∧
  (∃ (m : BoxId) (s : State), Takes s m.val 0x0303 ∧
    let e := headEntry s m.val
    let x := eContext e
    let g := eField e 16 12
    let n := eField e 18 16
    ownGroup s m.val x g = true ∧ (s.group g).st ≠ .free ∧ (s.group g).st ≠ .ending ∧ (s.group g).ctx = x ∧ 1 ≤ n ∧
      n ≤ 256 ∧ areaWritable s x (eField e 24 64) (8 * n) 1 = true ∧ Reads s x (eField e 24 64) (8 * n) 1) ∧
  (∃ (m : BoxId) (s : State), Takes s m.val 0x0304 ∧
    let e := headEntry s m.val
    let x := eContext e
    let g := eField e 16 12
    ownGroup s m.val x g = true ∧ (s.group g).st ≠ .free ∧ (s.group g).ctx = x ∧ Reads s x (eField e 24 64) 64 64 ∧
      policyOk (BitVec.ofNat 512 (s.rdN (eField e 24 64) 64)) = true) ∧
  (∃ (s : State), Takes s 0 0x0501 ∧
    let n := eField (headEntry s 0) 16 20
    n ≤ 524288 ∧ (n : Int) ≤ headroom s) ∧
  (∃ (s : State), Takes s 0 0x0502 ∧
    let x := eContext (headEntry s 0)
    let n := eField (headEntry s 0) 16 20
    n ≤ (s.ctx x).reserve.toNat) ∧
  (∃ (m : BoxId) (s : State), Takes s m.val 0x0503) :=
  ⟨⟨0, cmd 0 0x0301 1 0x1000 opened, 127, by unfold Takes; decide +kernel, by unfold Reads; decide +kernel,
    by decide +kernel, by decide +kernel, by decide +kernel, by decide +kernel, by decide +kernel,
    by unfold Reads; decide +kernel, by decide +kernel, by decide +kernel, by decide +kernel⟩,
    ⟨0, cmd 0 0x0302 1 4095 opened, by unfold Takes; decide +kernel, by decide +kernel, by decide +kernel,
      by decide +kernel⟩,
    ⟨0, cmd 0 0x0303 1 0x10000000000000020fff opened, by unfold Takes; decide +kernel, by decide +kernel,
      by decide +kernel, by decide +kernel, by decide +kernel, by decide +kernel, by decide +kernel, by decide +kernel,
      by unfold Reads; decide +kernel⟩,
    ⟨0, cmd 0 0x0304 1 0x40000000000000000fff opened, by unfold Takes; decide +kernel, by decide +kernel,
      by decide +kernel, by decide +kernel, by unfold Reads; decide +kernel, by decide +kernel⟩,
    ⟨cmd 0 0x0501 1 1 ((one on).rset (Reg.vatFrameCount 0) 1), by unfold Takes; decide +kernel, by decide +kernel,
      by decide +kernel⟩,
    ⟨cmd 0 0x0502 1 7 ((one on).modCtx 1 fun X => { X with reserve := 7 }), by unfold Takes; decide +kernel,
      by decide +kernel⟩,
    ⟨255, (cmd 255 0x0503 1 0 (one on)).modBox 255 fun b => { b with grantee := 1 }, by unfold Takes; decide +kernel⟩⟩

/-- The hypotheses of StreamCommands, clause by clause, are met. -/
theorem test_stream_commands_met :
  (∃ (m : BoxId) (s : State), Takes s m.val 0x0401 ∧
    let e := headEntry s m.val
    let x := eContext e
    let id := eField e 16 24
    let cg := eField e 20 5
    let rows := eField e 21 4
    let home := eField e 24 64
    firstOpen ≤ id ∧ id < strCount s ∧ eState (strGet s id) = 0 ∧ cgOk cg = true ∧ rowsOk cg rows = true ∧
      homeOk s x home (imageLen cg rows) = true ∧ strBase s + 32 * strCount s ≤ stackedTop ∧
      (home + imageLen cg rows ≤ strBase s ∨ strBase s + 32 * strCount s ≤ home)) ∧
  (∃ (m : BoxId) (s : State), Takes s m.val 0x0402 ∧
    let e := headEntry s m.val
    let x := eContext e
    let n := eField e 16 16
    let ids := if n = 1 then [eField e 20 24] else (List.range n).map fun i => s.rdN (eField e 24 64 + 4 * i) 4 % 2 ^ 24
    1 ≤ n ∧ n ≤ 256 ∧ (n ≠ 1 → Reads s x (eField e 24 64) (4 * n) 1) ∧ ids.Nodup ∧
      strBase s + 32 * strCount s ≤ stackedTop ∧ (∀ id, id ∈ ids → firstOpen ≤ id ∧ id < strCount s ∧
      streamHeld s x id = true ∧ eQueued (strGet s id) = 0)) ∧
  (∃ (m : BoxId) (s : State), Takes s m.val 0x0403 ∧
    let e := headEntry s m.val
    let x := eContext e
    let n := eField e 16 16
    let ids := if n = 1 then [eField e 20 24] else (List.range n).map fun i => s.rdN (eField e 24 64 + 4 * i) 4 % 2 ^ 24
    1 ≤ n ∧ n ≤ 256 ∧ (n ≠ 1 → Reads s x (eField e 24 64) (4 * n) 1) ∧ strBase s + 32 * strCount s ≤ stackedTop ∧ (∀ c,
      c ∈ s.arm.boxes.cells → c.2.inProg = []) ∧ (∀ id, id ∈ ids → firstOpen ≤ id ∧ id < strCount s ∧
      streamHeld s x id = true ∧ eState (strGet s id) = 3 ∧ eDirty (strGet s id) = false ∧ eQueued (strGet s id) = 0 ∧
      chunkRunning s id = false)) ∧
  (∃ (m : BoxId) (s : State), Takes s m.val 0x0404 ∧
    let e := headEntry s m.val
    let x := eContext e
    let id := eField e 20 24
    let len := imageLen (eCg (strGet s id)) (eRows (strGet s id))
    eField e 16 16 = 1 ∧ firstOpen ≤ id ∧ id < strCount s ∧ streamHeld s x id = true ∧ eState (strGet s id) = 3 ∧
      eDirty (strGet s id) = true ∧ strBase s + 32 * strCount s ≤ stackedTop ∧ eHome (strGet s id) + len ≤ stackedTop ∧
      (eHome (strGet s id) + len ≤ strBase s ∨ strBase s + 32 * strCount s ≤ eHome (strGet s id)) ∧ (∀ c,
      c ∈ s.arm.boxes.cells → c.2.inProg = [])) ∧
  (∃ (m : BoxId) (s : State), Takes s m.val 0x0405 ∧
    let e := headEntry s m.val
    let x := eContext e
    let id := eField e 16 24
    let dest := eField e 24 64
    let len := imageLen (eCg (strGet s id)) (eRows (strGet s id))
    firstOpen ≤ id ∧ id < strCount s ∧ streamHeld s x id = true ∧
      (eState (strGet s id) = 1 ∨ eState (strGet s id) = 3) ∧ eQueued (strGet s id) = 0 ∧
      areaWritable s x dest len 1 = true ∧ dest + len ≤ stackedTop ∧ bit (lineN e 20 1) 0 = false) ∧
  (∃ (m : BoxId) (s : State), Takes s m.val 0x0406 ∧
    let e := headEntry s m.val
    let x := eContext e
    let id := eField e 16 24
    let src := eField e 24 64
    let home := eField e 32 64
    let h := s.rdN src 64
    let len := imageLen (bField h 4 5) (bField h 5 4)
    firstOpen ≤ id ∧ id < strCount s ∧ eState (strGet s id) = 0 ∧ Reads s x src 64 1 ∧ headOk h = true ∧
      homeOk s x home len = true ∧ Reads s x src len 1 ∧ strBase s + 32 * strCount s ≤ stackedTop ∧
      (home + len ≤ strBase s ∨ strBase s + 32 * strCount s ≤ home)) :=
  ⟨⟨0, cmd 0 0x0401 1 0x10000003010100040000 (streams 0), by unfold Takes; decide +kernel, by decide +kernel,
    by decide +kernel, by decide +kernel, by decide +kernel, by decide +kernel, by decide +kernel, by decide +kernel,
    by decide +kernel⟩,
    ⟨0, cmd 0 0x0402 1 0x4000000000001 (streams 0x10000000000000210011), by unfold Takes; decide +kernel,
      by decide +kernel, by decide +kernel, fun h => (h (by decide +kernel)).elim, by decide +kernel, by decide +kernel,
      by decide +kernel⟩,
    ⟨0, cmd 0 0x0403 1 0x4000000000001 (streams 0x100000001fff00210013), by unfold Takes; decide +kernel,
      by decide +kernel, by decide +kernel, fun h => (h (by decide +kernel)).elim, by decide +kernel, by decide +kernel,
      by decide +kernel⟩,
    ⟨0, cmd 0 0x0404 1 0x4000000000001 (streams 0x100000001fff0021001b), by unfold Takes; decide +kernel,
      by decide +kernel, by decide +kernel, by decide +kernel, by decide +kernel, by decide +kernel, by decide +kernel,
      by decide +kernel, by decide +kernel, by decide +kernel, by decide +kernel⟩,
    ⟨0, cmd 0 0x0405 1 0x20000000000000040000 (streams 0x10000000000000210011), by unfold Takes; decide +kernel,
      by decide +kernel, by decide +kernel, by decide +kernel, by decide +kernel, by decide +kernel, by decide +kernel,
      by decide +kernel, by decide +kernel⟩,
    ⟨0, cmd 0 0x0406 1 0x100000000000000020000000000000040000 ((streams 0).put 0x2000 64 0x10100040000),
      by unfold Takes; decide +kernel, by decide +kernel, by decide +kernel, by decide +kernel,
      by unfold Reads; decide +kernel, by decide +kernel, by decide +kernel, by unfold Reads; decide +kernel,
      by decide +kernel, by decide +kernel⟩⟩

/-- The hypotheses of SchedulingCommands, clause by clause, are met. -/
theorem test_scheduling_commands_met :
  (∃ (s : State), Takes s 0 0x0601 ∧
    let e := headEntry s 0
    let p := eField e 16 7
    let n := eField e 18 9
    let a := eField e 24 64
    let vs := (List.range n).map fun i => s.rdN (a + 8 * i) 8
    (s.part p).st = .ready ∧ 1 ≤ n ∧ n ≤ 256 ∧ Reads s 0 a (8 * n) 1 ∧ vs.all (slotOk s p) = true) ∧
  (∃ (s : State), Takes s 0 0x0602 ∧
    let p := eField (headEntry s 0) 16 7
    (s.part p).st ≠ .free) ∧
  (∃ (s : State) (k : Nat), Takes s 0 0x0701 ∧
    let p := eField (headEntry s 0) 16 7
    let x := eContext (headEntry s 0)
    ((s.part p).works.get k).st = .running ∧ ((s.part p).works.get k).ctx = x) ∧
  (∃ (s : State) (k : Nat), Takes s 0 0x0702 ∧
    let p := eField (headEntry s 0) 16 7
    let x := eContext (headEntry s 0)
    (k, (s.part p).works.get k) ∈ (s.part p).works.cells ∧ ((s.part p).works.get k).ctx = x ∧
      ((s.part p).works.get k).held = true) ∧
  (∃ (s : State), Takes s 0 0x0801) :=
  ⟨⟨cmd 0 0x0601 0 0x1000000000000002007f ((one (on.modPart 127 fun P => { P with st := .ready })).put 0x1000 16 0x5dc00000000100002ee0), by unfold Takes; decide +kernel, by decide +kernel, by decide +kernel, by decide +kernel, by unfold Reads; decide +kernel, by decide +kernel⟩,
    ⟨cmd 0 0x0602 0 127 (on.modPart 127 fun P => { P with st := .ready, table := [(12000, 0)], slot := 1 }),
      by unfold Takes; decide +kernel, by decide +kernel⟩,
    ⟨cmd 0 0x0701 1 127 (one (runs 31 0 on)), 0, by unfold Takes; decide +kernel, by decide +kernel, by decide +kernel⟩,
    ⟨cmd 0 0x0702 1 127 (one (on.modPart 127 fun P => { P with st := .ready, works := P.works.set 15 { (default : Work) with st := .preempted, ctx := 1, held := true } })), 15, by unfold Takes; decide +kernel, by decide +kernel, by decide +kernel, by decide +kernel⟩,
    ⟨cmd 0 0x0801 0 127 (on.modPart 127 fun P => { P with st := .ready, quires := 3 }), by unfold Takes; decide +kernel⟩⟩

/-- The hypotheses of SecurityCommands, clause by clause, are met. -/
theorem test_security_commands_met :
  (∃ (m : BoxId) (s : State), Takes s m.val 0x0A01 ∧ s.wmk.entropy = .healthy) ∧
  (∃ (m : BoxId) (s : State), Takes s m.val 0x0A01 ∧ s.wmk.entropy = .restarting) ∧
  (∃ (m : BoxId) (s : State), Takes s m.val 0x0A01 ∧ s.wmk.entropy = .failed) ∧
  (∃ (m : BoxId) (s : State), Takes s m.val 0x0A02 ∧
    let i := eField (headEntry s m.val) 16 2
    (i ≠ 0 ∨ s.wmk.certBad = false)) ∧
  (∃ (s : State), Takes s 0 0x0B01 ∧
    let n := eField (headEntry s 0) 16 23
    let a := eField (headEntry s 0) 24 64
    n ≠ 0 ∧ Reads s 0 a n 1) ∧
  (∃ (s : State), Takes s 0 0x0B02 ∧
    let e := headEntry s 0
    eExpert e = true ∧ bit (lineN e 16 1) 0 = false ∧ eField e 17 4 = 0) ∧
  (∃ (s : State), Takes s 0 0x0B03 ∧
    let e := headEntry s 0
    let n := eField e 20 20
    n ≠ 0 ∧ Reads s 0 (eField e 24 64) n 1) ∧
  (∃ (s : State), Takes s 0 0x0003 ∧
    let mode := eField (headEntry s 0) 16 4
    let rest := s.wmk.overlays.filter (·.mode.toNat != mode)
    let offs := ((s.wmk.overlays.filter (·.mode.toNat == mode)).flatMap (·.entries)).map (·.1)
    entriesIdle s (revertEntries s s.wmk.overlays rest offs) = true) ∧
  (∃ (s : State), Takes s 0 0x0002 ∧
    let e := headEntry s 0
    bit (lineN e 17 1) 0 = false) :=
  ⟨⟨0, cmd 0 0x0A01 0 0 on, by unfold Takes; decide +kernel, by decide +kernel⟩,
    ⟨0, cmd 0 0x0A01 0 0 { on with wmk := { on.wmk with entropy := .restarting } }, by unfold Takes; decide +kernel,
      by decide +kernel⟩,
    ⟨0, cmd 0 0x0A01 0 0 { on with wmk := { on.wmk with entropy := .failed } }, by unfold Takes; decide +kernel,
      by decide +kernel⟩,
    ⟨0, cmd 0 0x0A02 0 3 on, by unfold Takes; decide +kernel, by decide +kernel⟩,
    ⟨cmd 0 0x0B01 0 0x10000000000000000040 (on.put 0x1000 64 0x77), by unfold Takes; decide +kernel, by decide +kernel,
      by unfold Reads; decide +kernel⟩,
    ⟨cmd 0 0x0B02 0 0x6 on |>.put (csAddr (cmdOff 0 0) + 4) 1 1, by unfold Takes; decide +kernel, by decide +kernel,
      by decide +kernel, by decide +kernel⟩,
    ⟨cmd 0 0x0B03 0 0x10000000004000000001 (on.put 0x1000 64 0x77), by unfold Takes; decide +kernel, by decide +kernel,
      by unfold Reads; decide +kernel⟩,
    ⟨cmd 0 0x0003 0 2 { on with wmk := { on.wmk with overlays := [⟨2, 0, []⟩] } }, by unfold Takes; decide +kernel,
      by decide +kernel⟩,
    ⟨cmd 0 0x0002 0 2 on, by unfold Takes; decide +kernel, by decide +kernel⟩⟩

/-- The hypotheses of EntropyAndKeys, clause by clause, are met. -/
theorem test_entropy_and_keys_met :
  (∃ (s : State), s.wmk.entropy = .healthy) ∧
  (∃ (s : State), s.wmk.entropy = .restarting) ∧
  (∃ (s : State), s.wmk.entropy ≠ .healthy) ∧
  (∃ (s : State) (n : ChainId), keyRunning (s.link n.val) = true) ∧
  (∃ (s : State) (n : ChainId), (s.link n.val).st = .held ∧ (s.link n.val).key = .failed ∧ (s.link n.val).enc = true ∧
    (s.link n.val).encDiffers = false) ∧
  (∃ (s : State) (n : ChainId) (msg : List Byte), msg.length ≤ 8192 ∧ (s.link n.val).st = .held ∧
    (s.link n.val).key = .certWait) ∧
  (∃ (s : State) (n : ChainId) (msg : List Byte), msg.length ≤ 8192 ∧ (s.link n.val).st = .held ∧
    (s.link n.val).key = .initWait) ∧
  (∃ (s : State) (n : ChainId) (msg : List Byte), msg.length ≤ 8192 ∧ (s.link n.val).st = .held ∧
    (s.link n.val).key = .respWait) :=
  ⟨⟨on, by decide +kernel⟩,
    ⟨{ on with wmk := { on.wmk with entropy := .restarting } }, by decide +kernel⟩,
    ⟨{ on with wmk := { on.wmk with entropy := .failed } }, by decide +kernel⟩,
    ⟨on.modLink 31 fun L => { L with st := .held, key := .initWait }, 31, by decide +kernel⟩,
    ⟨on.modLink 31 fun L => { L with st := .held, key := .failed, enc := true }, 31, by decide +kernel,
      by decide +kernel, by decide +kernel, by decide +kernel⟩,
    ⟨on.modLink 31 fun L => { L with st := .held, key := .certWait }, 31, [0], by decide +kernel, by decide +kernel,
      by decide +kernel⟩,
    ⟨on.modLink 31 fun L => { L with st := .held, key := .initWait }, 31, [0], by decide +kernel, by decide +kernel,
      by decide +kernel⟩,
    ⟨on.modLink 31 fun L => { L with st := .held, key := .respWait }, 31, [0], by decide +kernel, by decide +kernel,
      by decide +kernel⟩⟩

/-- The hypotheses of HostAccess, clause by clause, are met. -/
theorem test_host_access_met :
  (∃ (m : BoxId) (v : Word32) (s : State), ctlServes s doorbellBase = true ∧
    s.couch.dir.get ((0x102000 + 0x10000 * m.val) / 64) = 0 ∧
    (s.box m.val).covered.toNat < (v.toNat % 64 + 64 - (s.box m.val).cmdRead.toNat) % 64 ∧
    (s.rbit Reg.plnReady 0 = false ∨ (headReadable s m.val = true ∧ (payload (headOp s m.val) false).isSome = true))) ∧
  (∃ (m : BoxId) (v : Word32) (s : State), ctlServes s doorbellBase = true ∧
    (v.toNat % 64 + 64 - (s.box m.val).cmdRead.toNat) % 64 < (s.box m.val).covered.toNat) ∧
  (∃ (m : BoxId) (s : State), ctlServes s doorbellBase = true ∧ (s.box m.val).outbox = [] ∧ (s.box m.val).covered = 0) ∧
  (∃ (off : BitVec 26) (r : RegRow) (s : State), s.mod.inReset = false ∧ ctlServes s off.toNat = true ∧
    off.toNat % 4 = 0 ∧ off.toNat < 0x100000 ∧ off.toNat ≠ Reg.plnBootCtrl ∧ regRow off.toNat = some r ∧ r.acc = .w1c) ∧
  (∃ (off : BitVec 26) (r : RegRow) (s : State), s.mod.inReset = false ∧ ctlServes s off.toNat = true ∧
    off.toNat % 4 = 0 ∧ off.toNat < 0x100000 ∧ off.toNat ≠ Reg.plnBootCtrl ∧ regRow off.toNat = some r ∧ r.acc = .ro) ∧
  (∃ (s : State), s.mod.inReset = false ∧ bootPhase s ≠ 8 ∧ s.rbit Reg.plnReady 1 = true) ∧
  (∃ (m : BoxId) (s : State) (l : Line) (r : List Line), (s.box m.val).notices = l :: r ∧
    (s.box m.val).roomForNotice = true ∧ (s.box m.val).outbox = [] ∧
    s.couch.dir.get (rspOff m.val (s.box m.val).rspWrite.toNat / 64) = 0) ∧
  (∃ (a : BitVec 64) (s : State), s.rbit Reg.plnReady 1 = true ∧ (match region a.toNat with | .stacked _ => anyGone s a.toNat 64 = false ∧ mayReach s (fld (s.rdN a.toNat 48) 16 12) a.toNat 64 true true = true | .companion o => o + 64 ≤ compLimit s | _ => False) ∧ a.toNat % 64 = 0 ∧ a.toNat < 2 ^ 48 ∧ areaPoisoned s a.toNat 48 = false ∧ launchStatus s (s.rdN a.toNat 48) = none) ∧
  (∃ (a : BitVec 64) (s : State), s.rbit Reg.plnReady 1 = true ∧ (a.toNat % 64 ≠ 0 ∨ 2 ^ 48 ≤ a.toNat)) ∧
  (∃ (x : CtxId) (s : State), (s.ctx x.val).st = .tearing ∧ streamsWriting s x.val = false ∧
    (s.ctx x.val).recorded = none ∧ (∀ c, c ∈ s.vat.map.cells → c.2.owner.toNat ≠ x.val) ∧ x.val ≠ 0) :=
  ⟨⟨255, 1, (cmd 255 0x0001 0 0 on).modBox 255 fun b => { b with covered := 0 }, by decide +kernel, by decide +kernel,
    by decide +kernel, by decide +kernel⟩,
    ⟨255, 1, on.modBox 255 fun b => { b with covered := 2 }, by decide +kernel, by decide +kernel⟩,
    ⟨255, on, by decide +kernel, by decide +kernel, by decide +kernel⟩,
    ⟨827404, ⟨827404, 0, 1, .w1c, 255, 0, .none⟩, on, by decide +kernel, by decide +kernel, by decide +kernel,
      by decide +kernel, by decide +kernel, by decide +kernel, by decide +kernel⟩,
    ⟨8, ⟨8, 0, 1, .ro, 0, 0, .none⟩, on, by decide +kernel, by decide +kernel, by decide +kernel, by decide +kernel,
      by decide +kernel, by decide +kernel, by decide +kernel⟩,
    ⟨on, by decide +kernel, by decide +kernel, by decide +kernel⟩,
    ⟨255, on.modBox 255 fun b => { b with notices := [7] }, 7, [], by decide +kernel, by decide +kernel,
      by decide +kernel, by decide +kernel⟩,
    ⟨0x1000, ((((one on).modCtx 1 fun X => { X with par := { X.par with saveFirst := 32, saveFrames := 16 } }).modPart 127 fun P => { P with st := .ready, quires := 1, program := some { (default : Program) with handle := 127, ctx := 1 } }).put 0x1000 48 0x1007F), by decide +kernel, ⟨by decide +kernel, by decide +kernel⟩, by decide +kernel, by decide +kernel, by decide +kernel, by decide +kernel⟩,
    ⟨0x1020, on, by decide +kernel, by decide +kernel⟩,
    ⟨1, on.modCtx 1 fun X => { X with st := .tearing, byFault := true }, by decide +kernel, by decide +kernel,
      by decide +kernel, by decide +kernel, by decide +kernel⟩⟩

/-- The hypotheses of VectorElements, clause by clause, are met. -/
theorem test_vector_elements_met :
  ∃ (p : Nat × (CoreId → WalkerId → Upset → Instr)) (c : CoreId) (w : WalkerId) (e : Upset) (s : State) (d : Nat),
    p ∈ vecElementwise ∧ Ready s c.val w.val 2 p.1 d ∧ VecPasses (upset s e) e c.val d :=
  ⟨(0x07, .fma), 4095, 0, .clean,
    runs 4095 0x400000003f800000000000000000000000000800000004000000020000000100000000000001000100000000000000070000000000000002 on, 0x400000003f800000000000000000000000000800000004000000020000000100000000000001000100000000000000070000000000000002, by simp [vecElementwise], ready_of (by decide +kernel), by unfold VecPasses; decide +kernel⟩

/-- The hypotheses of VectorReductions, clause by clause, are met. -/
theorem test_vector_reductions_met :
  (∃ (p : Nat × (CoreId → WalkerId → Upset → Instr)) (c : CoreId) (w : WalkerId) (e : Upset) (s : State) (d : Nat),
    p ∈ vecReductions ∧ Ready s c.val w.val 2 p.1 d ∧ VecPasses (upset s e) e c.val d) ∧
  (∃ (c : CoreId) (w : WalkerId) (e : Upset) (s : State) (d : Nat), Ready s c.val w.val 2 0x24 d ∧
    VecPasses (upset s e) e c.val d) :=
  ⟨⟨(0x20, .rsum), 4095, 0, .clean,
    runs 4095 0x400000003f800000000000000000000000000800000004000000020000000100000000000001000100000000000000200000000000000002 on, 0x400000003f800000000000000000000000000800000004000000020000000100000000000001000100000000000000200000000000000002, by simp [vecReductions], ready_of (by decide +kernel), by unfold VecPasses; decide +kernel⟩,
    ⟨4095, 0, .clean, runs 4095 0x400000003f800000000000000000000000000800000004000000020000000100000000000001000112000000000000240000000000000002 on, 0x400000003f800000000000000000000000000800000004000000020000000100000000000001000112000000000000240000000000000002, ready_of (by decide +kernel), by unfold VecPasses; decide +kernel⟩⟩

/-- The hypotheses of VectorRows, clause by clause, are met. -/
theorem test_vector_rows_met :
  (∃ (p : Nat × (CoreId → WalkerId → Upset → Instr)) (c : CoreId) (w : WalkerId) (e : Upset) (s : State) (d : Nat),
    p ∈ vecRowOps ∧ Ready s c.val w.val 2 p.1 d ∧ VecPasses (upset s e) e c.val d) ∧
  (∃ (c : CoreId) (w : WalkerId) (e : Upset) (s : State) (d : Nat), Ready s c.val w.val 2 0x30 d ∧
    VecPasses (upset s e) e c.val d) :=
  ⟨⟨(0x29, .layernorm), 4095, 0, .clean,
    runs 4095 0x400000003f800000000000000000000000000800000004000000020000000100000000000001000100000000000000290000000000000002 on, 0x400000003f800000000000000000000000000800000004000000020000000100000000000001000100000000000000290000000000000002, by simp [vecRowOps], ready_of (by decide +kernel), by unfold VecPasses; decide +kernel⟩,
    ⟨4095, 0, .clean, runs 4095 0x9000000000000000000010001000000000000000000000000000004000000020000000100000000000001000100000000000000300000000000000002 on, 0x9000000000000000000010001000000000000000000000000000004000000020000000100000000000001000100000000000000300000000000000002, ready_of (by decide +kernel), by unfold VecPasses; decide +kernel⟩⟩

/-- The hypotheses of Sampling, clause by clause, are met. -/
theorem test_sampling_met :
  ∃ (c : CoreId) (w : WalkerId) (e : Upset) (s : State) (d : Nat), Ready s c.val w.val 2 0x38 d ∧
    VecPasses (upset s e) e c.val d :=
  ⟨4095, 0, .clean, runs 4095 0x400000003f800000000000000000000000000800000004000000020000000100000000000001000112000000000000380000000000000002 on, 0x400000003f800000000000000000000000000800000004000000020000000100000000000001000112000000000000380000000000000002, ready_of (by decide +kernel), by unfold VecPasses; decide +kernel⟩

/-- The hypotheses of VectorRefusals, clause by clause, are met. -/
theorem test_vector_refusals_met :
  (∃ (p : Nat × (CoreId → WalkerId → Upset → Instr)) (c : CoreId) (w : WalkerId) (s : State) (d : Nat), p ∈ vecAll ∧
    Ready s c.val w.val 2 p.1 d ∧ vNoop d = true) ∧
  (∃ (p : Nat × (CoreId → WalkerId → Upset → Instr)) (c : CoreId) (w : WalkerId) (s : State) (d : Nat), p ∈ vecAll ∧
    Ready s c.val w.val 2 p.1 d ∧
    let bad := codesReserved (vArith d) ((vFormats d).map (·.1)) || decide (p.1 = 0x38 ∧ vMode d = 3)
    vNoop d = false ∧ bad = true) ∧
  (∃ (p : Nat × (CoreId → WalkerId → Upset → Instr)) (c : CoreId) (w : WalkerId) (s : State) (d : Nat), p ∈ vecAll ∧
    Ready s c.val w.val 2 p.1 d ∧
    let bad := codesReserved (vArith d) ((vFormats d).map (·.1)) || decide (p.1 = 0x38 ∧ vMode d = 3)
    vNoop d = false ∧ bad = false ∧ vFormatWrong d = true) ∧
  (∃ (p : Nat × (CoreId → WalkerId → Upset → Instr)) (c : CoreId) (w : WalkerId) (e : Upset) (s : State) (d : Nat),
    p ∈ vecAll ∧ Ready s c.val w.val 2 p.1 d ∧
    let u := upset s e
    let k := ctlFor u c.val (vArith d)
    let bad := codesReserved (vArith d) ((vFormats d).map (·.1)) || decide (p.1 = 0x38 ∧ vMode d = 3)
    vNoop d = false ∧ bad = false ∧ vFormatWrong d = false ∧ vParamWrong u c.val k d = true) ∧
  (∃ (p : Nat × (CoreId → WalkerId → Upset → Instr)) (c : CoreId) (w : WalkerId) (e : Upset) (s : State) (d : Nat),
    p ∈ vecAll ∧ Ready s c.val w.val 2 p.1 d ∧
    let u := upset s e
    let k := ctlFor u c.val (vArith d)
    let bad := codesReserved (vArith d) ((vFormats d).map (·.1)) || decide (p.1 = 0x38 ∧ vMode d = 3)
    p.1 = 0x30 ∧ vNoop d = false ∧ bad = false ∧ vFormatWrong d = false ∧ vParamWrong u c.val k d = false ∧
      intoWeights u c.val d = true) :=
  ⟨⟨(0x01, .add), 4095, 0, runs 4095 0x10000000000000002 on, 0x10000000000000002, by simp [vecAll, vecElementwise],
    ready_of (by decide +kernel), by decide +kernel⟩,
    ⟨(0x01, .add), 4095, 0,
      runs 4095 0x400000003f800000000000000000000000000800000004000000020000000100000000000001000100000000000200010000000000000002 on, 0x400000003f800000000000000000000000000800000004000000020000000100000000000001000100000000000200010000000000000002, by simp [vecAll, vecElementwise], ready_of (by decide +kernel), by decide +kernel, by decide +kernel⟩,
    ⟨(0x01, .add), 4095, 0,
      runs 4095 0x400000003f800000000000000000000000000800000004000000020000000100000000000001000100000018000000010000000000000002 on, 0x400000003f800000000000000000000000000800000004000000020000000100000000000001000100000018000000010000000000000002, by simp [vecAll, vecElementwise], ready_of (by decide +kernel), by decide +kernel, by decide +kernel, by decide +kernel⟩,
    ⟨(0x13, .clamp), 4095, 0, .clean,
      runs 4095 0x4000000040400000000000000000000000000800000004000000020000000100000000000001000100000000000000130000000000000002 on, 0x4000000040400000000000000000000000000800000004000000020000000100000000000001000100000000000000130000000000000002, by simp [vecAll, vecElementwise], ready_of (by decide +kernel), by decide +kernel, by decide +kernel, by decide +kernel, by decide +kernel⟩,
    ⟨(0x30, .conv), 4095, 0, .clean,
      (runs 4095 0x8009000000000000000000010001000000000000000000000000000001000000020000000100000000000001000100000000000000300000000000000002 on).rset (Reg.spdCtrl 4095) 1, 0x8009000000000000000000010001000000000000000000000000000001000000020000000100000000000001000100000000000000300000000000000002, by simp [vecAll, vecElementwise, vecReductions, vecRowOps], ready_of (by decide +kernel), by decide +kernel, by decide +kernel, by decide +kernel, by decide +kernel, by decide +kernel, by decide +kernel⟩⟩

/-- The hypotheses of SlotDescriptors, clause by clause, are met. -/
theorem test_slot_descriptors_met :
  (∃ (c : CoreId) (w : WalkerId) (s : State) (d : Nat),
    let k := ySlot d
    Ready s c.val w.val 6 0 d ∧ synHeader d = true ∧ yBase d + yLines d ≤ 6144 ∧ yLines d ≠ 0 ∧ yReaders d ≠ 0 ∧
      ((s.core c.val).slots.get k).full = false ∧ stalledOn s c.val w.val k = false) ∧
  (∃ (c : CoreId) (w : WalkerId) (s : State) (d : Nat),
    let k := ySlot d
    Ready s c.val w.val 6 1 d ∧ synHeader d = true ∧ ((s.core c.val).slots.get k).full = false ∧
      stalledOn s c.val w.val k = false) ∧
  (∃ (c : CoreId) (w : WalkerId) (s : State) (d : Nat),
    let k := ySlot d
    Ready s c.val w.val 6 0 d ∧ synHeader d = true ∧
      (6144 < yBase d + yLines d ∨ yLines d = 0 ∨ yReaders d = 0 ∨ ((s.core c.val).slots.get k).full = true ∨ stalledOn s c.val w.val k = true)) ∧
  (∃ (c : CoreId) (w : WalkerId) (s : State) (d : Nat),
    let k := ySlot d
    Ready s c.val w.val 6 1 d ∧ synHeader d = true ∧ ((s.core c.val).slots.get k).full = true) ∧
  (∃ (c : CoreId) (w : WalkerId) (s : State) (d : Nat), Ready s c.val w.val 6 0 d ∧ synHeader d = false) :=
  ⟨⟨4095, 0, runs 4095 0x3c0817c000003f000000000000000006 on, 0x3c0817c000003f000000000000000006,
    ready_of (by decide +kernel), by decide +kernel, by decide +kernel, by decide +kernel, by decide +kernel,
    by decide +kernel, by decide +kernel⟩,
    ⟨4095, 0, runs 4095 0x3f010000000000000006 on, 0x3f010000000000000006, ready_of (by decide +kernel),
      by decide +kernel, by decide +kernel, by decide +kernel⟩,
    ⟨4095, 0, runs 4095 0x3c0817c100003f000000000000000006 on, 0x3c0817c100003f000000000000000006,
      ready_of (by decide +kernel), by decide +kernel, by decide +kernel⟩,
    ⟨4095, 0, (runs 4095 0x3f010000000000000006 on).modCore 4095 fun C => { C with slots := C.slots.set 63 { (default : Slot) with full := true, defined := true } }, 0x3f010000000000000006, ready_of (by decide +kernel), by decide +kernel, by decide +kernel⟩,
    ⟨4095, 0, runs 4095 0x3c08000000003f000000000000000106 on, 0x3c08000000003f000000000000000106,
      ready_of (by decide +kernel), by decide +kernel⟩⟩

/-- The hypotheses of CounterDescriptors, clause by clause, are met. -/
theorem test_counter_descriptors_met :
  (∃ (c : CoreId) (w : WalkerId) (s : State) (d : Nat), Ready s c.val w.val 6 2 d ∧ synHeader d = true) ∧
  (∃ (c : CoreId) (w : WalkerId) (s : State) (d : Nat), Ready s c.val w.val 6 3 d ∧ synHeader d = true ∧
    yResult d % 4 = 0 ∧ spdChk s c.val (yResult d) 4 = .ok) ∧
  (∃ (c : CoreId) (w : WalkerId) (s : State) (d : Nat), Ready s c.val w.val 6 3 d ∧ synHeader d = true ∧ yResult d % 4 ≠ 0) ∧
  (∃ (c : CoreId) (w : WalkerId) (s : State) (d : Nat), Ready s c.val w.val 6 4 d ∧ synHeader d = true) ∧
  (∃ (c : CoreId) (w : WalkerId) (s : State) (d : Nat), Ready s c.val w.val 6 6 d ∧ synHeader d = true ∧
    (s.core c.val).inflight = []) ∧
  (∃ (c : CoreId) (w : WalkerId) (s : State) (d : Nat), Ready s c.val w.val 6 6 d ∧ synHeader d = true ∧
    (s.core c.val).inflight ≠ []) ∧
  (∃ (c : CoreId) (w : WalkerId) (s : State),
    let q := c.val / 32
    ∃ (n : Nat) (v : Nat) (onDone : Bool), holdOf (s.core c.val) w.val = .waitGe n onDone v ∧
    let x := (s.quire q).ctrs.get n
    v ≤ (if onDone then x.done else x.value).toNat) ∧
  (∃ (c : CoreId) (w : WalkerId) (s : State),
    let q := c.val / 32
    ∃ (n : Nat) (v : Nat) (onDone : Bool), holdOf (s.core c.val) w.val = .waitGe n onDone v ∧
    let x := (s.quire q).ctrs.get n
    (if onDone then x.done else x.value).toNat < v) :=
  ⟨⟨4095, 0, runs 4095 0x700000000000f00020000000000000006 on, 0x700000000000f00020000000000000006,
    ready_of (by decide +kernel), by decide +kernel⟩,
    ⟨4095, 0, runs 4095 0x5fffcffffffff00000000000f00030000000000000006 on,
      0x5fffcffffffff00000000000f00030000000000000006, ready_of (by decide +kernel), by decide +kernel,
      by decide +kernel, by decide +kernel⟩,
    ⟨4095, 0, runs 4095 0x5fffe0000000100000000000f00030000000000000006 on,
      0x5fffe0000000100000000000f00030000000000000006, ready_of (by decide +kernel), by decide +kernel, by decide +kernel⟩,
    ⟨4095, 0, runs 4095 0x100000000000f00040000000000000006 on, 0x100000000000f00040000000000000006,
      ready_of (by decide +kernel), by decide +kernel⟩,
    ⟨4095, 0, runs 4095 0x60000000000000006 on, 0x60000000000000006, ready_of (by decide +kernel), by decide +kernel,
      by decide +kernel⟩,
    ⟨4095, 0, (runs 4095 0x60000000000000006 on).modCore 4095 fun C => { C with inflight := [{ (default : InFlight) with eng := .vec }] }, 0x60000000000000006, ready_of (by decide +kernel), by decide +kernel, by decide +kernel⟩,
    ⟨4095, 0, (runs 4095 0 on).modCore 4095 fun C => { C with hold := .waitGe 15 false 0 }, 15, 0, false,
      by decide +kernel, by decide +kernel⟩,
    ⟨4095, 0, (runs 4095 0 on).modCore 4095 fun C => { C with hold := .waitGe 15 true 1 }, 15, 1, true,
      by decide +kernel, by decide +kernel⟩⟩

/-- The hypotheses of Barriers, clause by clause, are met. -/
theorem test_barriers_met :
  (∃ (c : CoreId) (w : WalkerId) (s : State) (d : _), Ready s c.val w.val 6 5 d ∧ synHeader d = true ∧ yCores d ≠ 3) ∧
  (∃ (c : CoreId) (w : WalkerId) (s : State) (d : _), Ready s c.val w.val 6 5 d ∧ synHeader d = true ∧ yCores d = 3) ∧
  (∃ (c : CoreId) (w : WalkerId) (s : State) (p : Bool) (k : Nat), holdOf (s.core c.val) w.val = .barrier p k ∧
    let who := barrierCores s c.val p k
    (∀ x, x ∈ who → (barrierAt s x p).isSome = true)) ∧
  (∃ (c : CoreId) (w : WalkerId) (s : State) (p : Bool) (k : Nat), holdOf (s.core c.val) w.val = .barrier p k ∧
    let who := barrierCores s c.val p k
    (∃ x, x ∈ who ∧ barrierAt s x p = none)) :=
  ⟨⟨4095, 0, runs 4095 0x5000000000000000000000000000000050000000000000006 on,
    0x5000000000000000000000000000000050000000000000006, ready_of (by decide +kernel), by decide +kernel, by decide +kernel⟩,
    ⟨4095, 0, runs 4095 0x6000000000000000000000000000000050000000000000006 on,
      0x6000000000000000000000000000000050000000000000006, ready_of (by decide +kernel), by decide +kernel,
      by decide +kernel⟩,
    ⟨4095, 0, barred, false, 0, by decide +kernel, by decide +kernel⟩,
    ⟨4095, 0, (runs 4095 0 on).modCore 4095 fun C => { C with hold := .barrier false 0 }, false, 0, by decide +kernel,
      ⟨4064, by decide +kernel, by decide +kernel⟩⟩⟩

/-- The hypotheses of NestEntries, clause by clause, are met. -/
theorem test_nest_entries_met :
  (∃ (c : CoreId) (s : State) (k : Nat), walking s c.val = true ∧ (s.core c.val).walkers = [] ∧
    (s.core c.val).hold = .none ∧ stopped (s.core c.val) 0 = false ∧
    ((s.core c.val).replay = [] ∨ (s.core c.val).preempt = true) ∧ nestAt (coreImg s c.val) (s.core c.val).pos = some k ∧
    let im := coreImg s c.val
    let set := selectCores (workOf s c.val).quires (nCores (imNest im k))
    c.val ∉ set) ∧
  (∃ (c : CoreId) (s : State) (k : Nat), walking s c.val = true ∧ (s.core c.val).walkers = [] ∧
    (s.core c.val).hold = .none ∧ stopped (s.core c.val) 0 = false ∧
    ((s.core c.val).replay = [] ∨ (s.core c.val).preempt = true) ∧ nestAt (coreImg s c.val) (s.core c.val).pos = some k ∧
    let im := coreImg s c.val
    let set := selectCores (workOf s c.val).quires (nCores (imNest im k))
    c.val ∈ set ∧ nestNoop (imNest im k) (nestExtents s c.val (imNest im k)) = true) ∧
  (∃ (c : CoreId) (s : State) (k : Nat), walking s c.val = true ∧ (s.core c.val).walkers = [] ∧
    (s.core c.val).hold = .none ∧ stopped (s.core c.val) 0 = false ∧
    ((s.core c.val).replay = [] ∨ (s.core c.val).preempt = true) ∧ nestAt (coreImg s c.val) (s.core c.val).pos = some k ∧
    let im := coreImg s c.val
    let chain := chainFrom im 4 k
    let set := selectCores (workOf s c.val).quires (nCores (imNest im k))
    let counts := chain.map fun j => nestItems (imNest im j) (nestExtents s c.val (imNest im j))
    c.val ∈ set ∧ nestNoop (imNest im k) (nestExtents s c.val (imNest im k)) = false ∧ (∃ n, n ∈ counts ∧
      n ≠ counts.getD 0 0)) ∧
  (∃ (c : CoreId) (s : State) (k : Nat), walking s c.val = true ∧ (s.core c.val).walkers = [] ∧
    (s.core c.val).hold = .none ∧ stopped (s.core c.val) 0 = false ∧
    ((s.core c.val).replay = [] ∨ (s.core c.val).preempt = true) ∧ nestAt (coreImg s c.val) (s.core c.val).pos = some k ∧
    let im := coreImg s c.val
    let chain := chainFrom im 4 k
    let set := selectCores (workOf s c.val).quires (nCores (imNest im k))
    let counts := chain.map fun j => nestItems (imNest im j) (nestExtents s c.val (imNest im j))
    ∃ (rank : _), firstIdx (· == c.val) set = some rank ∧
      nestNoop (imNest im k) (nestExtents s c.val (imNest im k)) = false ∧ (∀ n, n ∈ counts → n = counts.getD 0 0) ∧
      (∃ j, j ∈ chain ∧ (nSplit (imNest im j) = 2 ∨ takenItems im j (nestExtents s c.val (imNest im j)) (firstItems im (imNest im j) (nestItems (imNest im j) (nestExtents s c.val (imNest im j))) rank set.length) ≠ []))) ∧
  (∃ (c : CoreId) (w : WalkerId) (s : State) (W : Walker) (lvl : Nat) (tl : Tile) (rest : List Visit),
    (s.core c.val).walkers[w.val]? = some W ∧ walking s c.val = true ∧ W.issue = [] ∧ W.hold = .none ∧
    stopped (s.core c.val) w.val = false ∧
    let im := coreImg s c.val
    let V := nextItem im W
    V.stack = .enter lvl tl :: rest ∧ beyondPlan (imNest im V.nest) tl = true) ∧
  (∃ (c : CoreId) (w : WalkerId) (s : State) (W : Walker) (lvl : Nat) (tl : Tile) (rest : List Visit),
    (s.core c.val).walkers[w.val]? = some W ∧ walking s c.val = true ∧ W.issue = [] ∧ W.hold = .none ∧
    stopped (s.core c.val) w.val = false ∧
    let im := coreImg s c.val
    let V := nextItem im W
    V.stack = .enter lvl tl :: rest ∧ beyondPlan (imNest im V.nest) tl = false) :=
  ⟨⟨0, nested 1 0x10000000ffff000100000001000100010001000100010001000100010001000100010000000100000001000000010000000400e4e4e43ff00008 0x0 0x1000000010000000100000004 0x1000000010000000100000004, 0, by decide +kernel, by decide +kernel, by decide +kernel, by decide +kernel, by decide +kernel, by decide +kernel, by decide +kernel⟩,
    ⟨0, nested 1 0x10000000ffff000100000001000100010001000100010001000100010001000100010000000100000001000000010000000400e4e4e43ff00000 0x0 0x1000000010000000100000000 0x1000000010000000100000004, 0, by decide +kernel, by decide +kernel, by decide +kernel, by decide +kernel, by decide +kernel, by decide +kernel, by decide +kernel, by decide +kernel⟩,
    ⟨0, nested 2 0x10000000ffff000100000001000100010001000100010001000100010001000100010000000100000001000000010000000400e4e4e43ff00010 0x10100000ffff000000000001000100010001000100010001000100010001000100010000000100000001000000010000000400e4e4e43ff00000 0x1000000010000000100000004 0x1000000010000000100000002, 0, by decide +kernel, by decide +kernel, by decide +kernel, by decide +kernel, by decide +kernel, by decide +kernel, by decide +kernel, by decide +kernel, ⟨2, by decide +kernel, by decide +kernel⟩⟩,
    ⟨0, nested 1 0x10000000ffff000100000001000100010001000100010001000100010001000100010000000100000001000000010000000400e4e4e43ff00000 0x0 0x1000000010000000100000004 0x1000000010000000100000004, 0, by decide +kernel, by decide +kernel, by decide +kernel, by decide +kernel, by decide +kernel, by decide +kernel, 0, by decide +kernel, by decide +kernel, by decide +kernel, ⟨0, by decide +kernel, by decide +kernel⟩⟩,
    ⟨0, 0, (nested 1 0x10000000ffff000100000001000100010001000100010001000100010001000100010000000100000001000000010000000400e4e4e43ff00000 0x0 0x1000000010000000100000004 0x1000000010000000100000004).modCore 0 fun C => { C with walkers := [{ (default : Walker) with nest := 0, ext := [4, 1, 1, 1], item := some 3, drained := true, stack := [.enter 1 ⟨[4, 0, 0, 0], [1, 1, 1, 1]⟩] }] }, { (default : Walker) with nest := 0, ext := [4, 1, 1, 1], item := some 3, drained := true, stack := [.enter 1 ⟨[4, 0, 0, 0], [1, 1, 1, 1]⟩] }, 1, ⟨[4, 0, 0, 0], [1, 1, 1, 1]⟩, [], by decide +kernel, by decide +kernel, by decide +kernel, by decide +kernel, by decide +kernel, by decide +kernel, by decide +kernel⟩,
    ⟨0, 0, (nested 1 0x10000000ffff000100000001000100010001000100010001000100010001000100010000000100000001000000010000000400e4e4e43ff00000 0x0 0x1000000010000000100000004 0x1000000010000000100000004).modCore 0 fun C => { C with walkers := [{ (default : Walker) with nest := 0, ext := [4, 1, 1, 1], item := some 3, drained := true, stack := [.enter 1 ⟨[3, 0, 0, 0], [1, 1, 1, 1]⟩] }] }, { (default : Walker) with nest := 0, ext := [4, 1, 1, 1], item := some 3, drained := true, stack := [.enter 1 ⟨[3, 0, 0, 0], [1, 1, 1, 1]⟩] }, 1, ⟨[3, 0, 0, 0], [1, 1, 1, 1]⟩, [], by decide +kernel, by decide +kernel, by decide +kernel, by decide +kernel, by decide +kernel, by decide +kernel, by decide +kernel⟩⟩

/-- The hypotheses of DrawnItems, clause by clause, are met. -/
theorem test_drawn_items_met :
  (∃ (c : CoreId) (s : State) (W : Walker) (l : List Walker), (s.core c.val).walkers = W :: l ∧ walking s c.val = true ∧
    nSplit (imNest (coreImg s c.val) W.nest) = 2 ∧ mayDraw s c.val W = true ∧ stopped (s.core c.val) 0 = false ∧ (∀ V,
    V ∈ (s.core c.val).walkers → V.items.length + (if V.item.isSome then 1 else 0) ≤ 1)) ∧
  (∃ (c : CoreId) (s : State) (o : OpenItem), (s.core c.val).openItems.find? (fun o => o.walked && o.left == 0) = some o) ∧
  (∃ (c : CoreId) (s : State), (s.core c.val).openItems.find? (fun o => o.walked && o.left == 0) = none) ∧
  (∃ (q : QuireId) (s : State) (j : _), nextLayer s q.val = some j ∧ layerDue s q.val j = true ∧ quireRunners s q.val ≠ []) ∧
  (∃ (q : QuireId) (s : State), (∀ j, nextLayer s q.val = some j → layerDue s q.val j = false)) ∧
  (∃ (q : QuireId) (j : Fin 1024) (s : State) (k : Nat),
    (s.quire q.val).issued.find? (fun k => k % max (imLayers (qImg s q.val)) 1 == j.val && !(s.quire q.val).landed.contains k) = some k ∧
    let v := imLayer (qImg s q.val) j.val
    let x := (s.quire q.val).layerCtx
    memReadChk s x (lSrc v) (lBytes v) = .ok ∧ qsrChk s q.val (lDst v) (lBytes v) = .ok) ∧
  (∃ (q : QuireId) (j : Fin 1024) (s : State) (k : Nat),
    (s.quire q.val).issued.find? (fun k => k % max (imLayers (qImg s q.val)) 1 == j.val && !(s.quire q.val).landed.contains k) = some k ∧
    let v := imLayer (qImg s q.val) j.val
    let x := (s.quire q.val).layerCtx
    ∃ (code : _) (o : _), memReadChk s x (lSrc v) (lBytes v) = .fault code o) :=
  ⟨⟨0, (nested 1 0x10000000ffff000100000001000100010001000100010001000100010001000100010000000100000001000000010000000400e4e4e43fff0002 0x0 0x1000000010000000100000004 0x1000000010000000100000004).modCore 0 fun C => { C with walkers := [{ (default : Walker) with nest := 0, ext := [4, 1, 1, 1] }] }, { (default : Walker) with nest := 0, ext := [4, 1, 1, 1] }, [], by decide +kernel, by decide +kernel, by decide +kernel, by decide +kernel, by decide +kernel, by decide +kernel⟩,
    ⟨0, (runs 0 0 on).modCore 0 fun C => { C with openItems := [{ nest := 0, item := 3, epoch := 0, counter := 15, left := 0, walked := true }] }, { nest := 0, item := 3, epoch := 0, counter := 15, left := 0, walked := true }, by decide +kernel⟩,
    ⟨4095, on, by decide +kernel⟩,
    ⟨127, layered, 0, by decide +kernel, by decide +kernel, by decide +kernel⟩,
    ⟨127, on, none_due (by decide +kernel)⟩,
    ⟨127, 0, layered.modQuire 127 fun Q => { Q with issued := [0] }, 0, by decide +kernel, by decide +kernel,
      by decide +kernel⟩,
    ⟨127, 0, (layered.modQuire 127 fun Q => { Q with issued := [0] }).modCtx 1 fun X => { X with grants := [] }, 0,
      by decide +kernel, Fc.addrFenced, 0, by decide +kernel⟩⟩

/-- The hypotheses of Completions, clause by clause, are met. -/
theorem test_completions_met :
  (∃ (c : CoreId) (eng : Engine) (s : State) (d : InFlight), (s.core c.val).inflight.find? (·.eng = eng) = some d ∧
    (d.wait ≠ 0 ∨ d.pending = true)) ∧
  (∃ (c : CoreId) (eng : Engine) (s : State) (d : InFlight), (s.core c.val).inflight.find? (·.eng = eng) = some d ∧
    d.wait = 0 ∧ d.pending = false) ∧
  (∃ (c : CoreId) (eng : Engine) (s : State), (s.core c.val).inflight.find? (·.eng = eng) = none) :=
  ⟨⟨4095, .dmv, (on).modCore 4095 fun C => { C with inflight := [{ (default : InFlight) with id := 3, eng := .dmv, pending := true }] }, { (default : InFlight) with id := 3, eng := .dmv, pending := true }, by decide +kernel, by decide +kernel⟩,
    ⟨4095, .dmv, (on).modCore 4095 fun C => { C with inflight := [{ (default : InFlight) with id := 3, eng := .dmv, prod := some 63, cons := some 0 }] }, { (default : InFlight) with id := 3, eng := .dmv, prod := some 63, cons := some 0 }, by decide +kernel, by decide +kernel, by decide +kernel⟩,
    ⟨4095, .dmv, on, by decide +kernel⟩⟩

/-- The hypotheses of StallNotices, clause by clause, are met. -/
theorem test_stall_notices_met :
  (∃ (c : CoreId) (w : WalkerId) (s : State) (i : Nat) (d : Nat), headDesc s c.val w.val = some (i, some d) ∧
    hClass d ≠ 6 ∧ slotChk s c.val (hCons d) (prodHere c.val d) = .stall ∧
    ((s.core c.val).walkers = [] → (s.core c.val).noticed = false) ∧ (∀ W,
    (s.core c.val).walkers[w.val]? = some W → W.noticed = false)) ∧
  (∃ (c : CoreId) (w : WalkerId) (s : State), holdOf (s.core c.val) w.val ≠ .none ∧
    ((s.core c.val).walkers = [] → (s.core c.val).noticed = false) ∧ (∀ W,
    (s.core c.val).walkers[w.val]? = some W → W.noticed = false)) ∧
  (∃ (c : CoreId) (w : WalkerId) (s : State), holdOf (s.core c.val) w.val = .none) :=
  ⟨⟨4095, 0, (runs 4095 0x400000003f800000000000000000000000000800000004000000020000000100000000000001000100000000000000010000000000007f02 on).modCore 4095 fun C => { C with slots := C.slots.set 63 { (default : Slot) with defined := true } }, 0, 0x400000003f800000000000000000000000000800000004000000020000000100000000000001000100000000000000010000000000007f02, by decide +kernel, by decide +kernel, by decide +kernel, by decide +kernel, none_walks (by decide +kernel)⟩,
    ⟨4095, 0, (runs 4095 0 on).modCore 4095 fun C => { C with hold := .waitGe 15 false 1 }, by decide +kernel,
      by decide +kernel, none_walks (by decide +kernel)⟩,
    ⟨4095, 0, on, by decide +kernel⟩⟩

/-- The hypotheses of Deliveries, clause by clause, are met. -/
theorem test_deliveries_met :
  (∃ (q : QuireId) (s : State) (i : Nat) (v : Delivery),
    firstIdx (fun v : Delivery => !v.remote) (s.quire q.val).deliveries = some i ∧ (s.quire q.val).deliveries[i]? = some v ∧
    let cs := (bitsOf 32 v.mask.toNat).map (32 * q.val + ·)
    (∃ c, c ∈ cs ∧ (awaiting s c v = none ∨ slotClear s c v = false))) ∧
  (∃ (q : QuireId) (s : State) (i : Nat) (v : Delivery),
    firstIdx (fun v : Delivery => !v.remote) (s.quire q.val).deliveries = some i ∧ (s.quire q.val).deliveries[i]? = some v ∧
    let cs := (bitsOf 32 v.mask.toNat).map (32 * q.val + ·)
    (∃ c, c ∈ cs ∧ landingChk s c v = .stall) ∧ (∀ c, c ∈ cs → landingChk s c v = .ok ∨ landingChk s c v = .stall)) ∧
  (∃ (q : QuireId) (s : State) (i : Nat) (v : Delivery),
    firstIdx (fun v : Delivery => !v.remote) (s.quire q.val).deliveries = some i ∧ (s.quire q.val).deliveries[i]? = some v ∧
    let cs := (bitsOf 32 v.mask.toNat).map (32 * q.val + ·)
    (∀ c, c ∈ cs → (awaiting s c v).isSome = true ∧ slotClear s c v = true) ∧ (∀ c, c ∈ cs → landingChk s c v = .ok) ∧
      v.rowBytes ≤ v.stride) ∧
  (∃ (c : CoreId) (s : State) (i : Nat) (v : Delivery),
    firstIdx (fun v : Delivery => v.remote && v.mask.getLsbD (c.val % 32)) (s.quire (c.val / 32)).deliveries = some i ∧
    (s.quire (c.val / 32)).deliveries[i]? = some v ∧ slotClear s c.val v = false) ∧
  (∃ (c : CoreId) (s : State) (i : Nat) (v : Delivery),
    firstIdx (fun v : Delivery => v.remote && v.mask.getLsbD (c.val % 32)) (s.quire (c.val / 32)).deliveries = some i ∧
    (s.quire (c.val / 32)).deliveries[i]? = some v ∧ slotClear s c.val v = true ∧ landingChk s c.val v = .ok ∧
    v.rowBytes ≤ v.stride) :=
  ⟨⟨127, on.modQuire 127 fun Q => { Q with deliveries := [arriving false] }, 0, arriving false, by decide +kernel,
    by decide +kernel, ⟨4095, by decide +kernel, by decide +kernel⟩⟩,
    ⟨127, setBank (awaited false) (.spd 4095 0) fun _ => { (default : Bank) with st := .waking }, 0, arriving false,
      by decide +kernel, by decide +kernel, ⟨4095, by decide +kernel, by decide +kernel⟩, by decide +kernel⟩,
    ⟨127, awaited false, 0, arriving false, by decide +kernel, by decide +kernel, by decide +kernel, by decide +kernel,
      by decide +kernel⟩,
    ⟨4095, (awaited true).modCore 4095 fun C => { C with slots := C.slots.set 63 { (default : Slot) with defined := true, full := true } }, 0, arriving true, by decide +kernel, by decide +kernel, by decide +kernel⟩,
    ⟨4095, awaited true, 0, arriving true, by decide +kernel, by decide +kernel, by decide +kernel, by decide +kernel,
      by decide +kernel⟩⟩

/-- The hypotheses of Moves, clause by clause, are met. -/
theorem test_moves_met :
  (∃ (c : CoreId) (w : WalkerId) (e : Upset) (s : State) (d : Nat), Ready s c.val w.val 5 0 d ∧
    let u := upset s e
    ∃ (a : _) (b : _), MovePasses u c.val w.val d a b ∧ srcOutside u d a = false ∧ dDstMode d ≠ 2 ∧ dMcast d = false ∧
      farSlot c.val d = none ∧ (∀ i j, i < j → j < b.length → rowAddr u (b.getD i (0,
      0)) + (destShape d).2 ≤ rowAddr u (b.getD j (0, 0)) ∨ rowAddr u (b.getD j (0,
      0)) + (destShape d).2 ≤ rowAddr u (b.getD i (0, 0))) ∧ (∀ r,
      r ∈ b → r.1 ≠ 0 → rowAddr u r + (destShape d).2 ≤ stackedTop)) ∧
  (∃ (c : CoreId) (w : WalkerId) (e : Upset) (s : State) (d : Nat), Ready s c.val w.val 5 0 d ∧
    let u := upset s e
    ∃ (a : _) (b : _), MovePasses u c.val w.val d a b ∧ srcOutside u d a = false ∧ dMcast d = true) ∧
  (∃ (c : CoreId) (w : WalkerId) (e : Upset) (s : State) (d : Nat), Ready s c.val w.val 5 0 d ∧
    let u := upset s e
    ∃ (a : _) (b : _), MovePasses u c.val w.val d a b ∧ srcOutside u d a = false ∧ ∃ (x : _) (k : _), dDstMode d = 0 ∧
      dMcast d = false ∧ farSlot c.val d = some (x, k)) ∧
  (∃ (c : CoreId) (w : WalkerId) (e : Upset) (s : State) (d : Nat), Ready s c.val w.val 5 0 d ∧
    let u := upset s e
    ∃ (a : _) (b : _), MovePasses u c.val w.val d a b ∧
    let v := (sourceRows u d a).1
    let rows := (sourceRows u d a).2
    srcOutside u d a = false ∧ dDstMode d = 2 ∧ remoteReady v d (remotePackets v d a b rows) = none) ∧
  (∃ (c : CoreId) (w : WalkerId) (e : Upset) (s : State) (d : Nat), Ready s c.val w.val 5 0 d ∧
    let u := upset s e
    let n := dRowBytes d
    ∃ (a : _) (b : _), MovePasses u c.val w.val d a b ∧ srcOutside u d a = true ∧ n ≠ 0 ∧ a ≠ [] ∧ (dSrcMode d = 2 ∧
      remoteReady u 0 (a.flatMap fun r => (pieces 4096 (rowAddr u r) n).map fun p => mkChn u 0 (dDev d) 0 p.1 p.2) = none ∨ dSrcMode d ≠ 2 ∧ s.rbit Reg.cchCtrl 0 = false)) ∧
  (∃ (c : CoreId) (w : WalkerId) (e : Upset) (s : State) (d : Nat), Ready s c.val w.val 5 0 d ∧
    let u := upset s e
    commitOk u c.val w.val d = true ∧ dNoop d = true) ∧
  (∃ (c : CoreId) (w : WalkerId) (e : Upset) (s : State) (d : Nat), Ready s c.val w.val 5 0 d ∧
    let u := upset s e
    (commitOk u c.val w.val d = false ∨ dNoop d = false ∧ moveParam c.val d = false)) ∧
  (∃ (c : CoreId) (w : WalkerId) (e : Upset) (s : State) (d : Nat), Ready s c.val w.val 5 0 d ∧
    let u := upset s e
    commitOk u c.val w.val d = true ∧ dNoop d = false ∧ moveParam c.val d = true ∧ dMcast d = true ∧
      leaderOf (dMask d) ≠ c.val % 32 ∧ dstChk u c.val d [] = .ok) ∧
  (∃ (c : CoreId) (w : WalkerId) (e : Upset) (s : State) (d : Nat), Ready s c.val w.val 5 0 d ∧
    let u := upset s e
    commitOk u c.val w.val d = true ∧ dNoop d = false ∧ moveParam c.val d = true ∧ dMcast d = false ∧
      ∃ (b : _) (ps : _), sideRows u c.val w.val d false (dSrcMode d) (dSrc d) (dSrcStride d) (dRows d) = .wait ps ∧
      sideRows u c.val w.val d true (dDstMode d) (dDst d) (dDstStride d) (destShape d).1 = .rows b) :=
  ⟨⟨4095, 0, .clean, runs 4095 0x400000000200001000000000800000000000001000000041007ff8000000000000000000000000000000000005 (one on), 0x400000000200001000000000800000000000001000000041007ff8000000000000000000000000000000000005, ready_of (by decide +kernel), [(0, 71470402764800), (0, 71470402764928)], [(0, 0x1000), (0, 0x2000)], by unfold MovePasses; decide +kernel, by decide +kernel, by decide +kernel, by decide +kernel, by decide +kernel, fun i j hi hj => by
      have h : i = 0 ∧ j = 1 := by simp only [List.length_cons, List.length_nil] at hj; omega
      obtain ⟨rfl, rfl⟩ := h
      decide +kernel, by decide +kernel⟩,
    ⟨4095, 0, .clean, runs 4095 0x80000000000000400000000100000000000000000000000000000100000000000000100000000000000000100000000000000005 (one on), 0x80000000000000400000000100000000000000000000000000000100000000000000100000000000000000100000000000000005, ready_of (by decide +kernel), [(0, 0x1000)], [(0, 0x100)], by unfold MovePasses; decide +kernel, by decide +kernel, by decide +kernel⟩,
    ⟨4095, 0, .clean, (runs 4095 0x40000000010000000000000000000041007ff00000000041007ff80000000000000000000000000000007f0005 (one on)).modCore 4094 fun C => { C with slots := C.slots.set 63 { (default : Slot) with defined := true } }, 0x40000000010000000000000000000041007ff00000000041007ff80000000000000000000000000000007f0005, ready_of (by decide +kernel), [(0, 71470402764800)], [(0, 71470402240512)], by unfold MovePasses; decide +kernel, by decide +kernel, 4094, 63, by decide +kernel, by decide +kernel, by decide +kernel⟩,
    ⟨4095, 0, .clean, { runs 4095 0x400000000100000000000000000000000000001000000041007ff8000000000000000108000000000000000005 (one on) with links := ⟨(List.range 32).map fun n => (n, { (default : Link) with st := .up })⟩ }, 0x400000000100000000000000000000000000001000000041007ff8000000000000000108000000000000000005, ready_of (by decide +kernel), [(0, 71470402764800)], [(0, 0x1000)], by unfold MovePasses; decide +kernel, by decide +kernel, by decide +kernel, by decide +kernel⟩,
    ⟨4095, 0, .clean, ((runs 4095 0x40000000010000000000000000000041007ff80000000080000000100000000000000000000000000000000005 (one on)).rset Reg.cchCompFrames 1).rset Reg.cchCtrl 0, 0x40000000010000000000000000000041007ff80000000080000000100000000000000000000000000000000005, ready_of (by decide +kernel), [(0, 140737488359424)], [(0, 71470402764800)], by unfold MovePasses; decide +kernel, by decide +kernel, by decide +kernel, by decide +kernel, by decide +kernel⟩,
    ⟨4095, 0, .clean, runs 4095 0x100000000000000000000000000000000000000000000000000000000000000000000000000000005 (one on), 0x100000000000000000000000000000000000000000000000000000000000000000000000000000005, ready_of (by decide +kernel), by decide +kernel, by decide +kernel⟩,
    ⟨4095, 0, .clean, runs 4095 0x400000000100000000000000000000000000000000000000000000000000000000000000200000000000000005 (one on), 0x400000000100000000000000000000000000000000000000000000000000000000000000200000000000000005, ready_of (by decide +kernel), by decide +kernel⟩,
    ⟨4095, 0, .clean, runs 4095 0xc0000000000000400000000100000000000000000000000000000100000000000000100000000000000000100000000000000005 (one on), 0xc0000000000000400000000100000000000000000000000000000100000000000000100000000000000000100000000000000005, ready_of (by decide +kernel), by decide +kernel, by decide +kernel, by decide +kernel, by decide +kernel, by decide +kernel, by decide +kernel⟩,
    ⟨4095, 0, .clean, (((((runs 4095 0x40000000010000000000000000000041007ff8000000000001ffe0004000000000000001000000000001000005 (one on)).put (qsrAddr 127 24) 2 1).put (qsrAddr 127 128) 64 0x10000000ffff000100000001000100010001000100010001000100010001000100010000000100000001000000010000000400e4e4e43ff02000).put (qsrAddr 127 0x3C0000) 32 0x80007000000000000000000000000).modPage 7 fun e => { e with st := .rebuilding }).modCore 4095 fun C => { C with walkers := [{ (default : Walker) with ext := [1, 1, 1, 1], issue := [⟨0, 1⟩], t1 := ⟨[0, 0, 0, 0], [1, 1, 1, 1]⟩ }] }, 0x40000000010000000000000000000041007ff8000000000001ffe0004000000000000001000000000001000005, ready_of (by decide +kernel), by decide +kernel, by decide +kernel, by decide +kernel, by decide +kernel, [(0, 71470402764800)], [7], by decide +kernel, by decide +kernel⟩⟩

/-- The hypotheses of LocalTransfers, clause by clause, are met. -/
theorem test_local_transfers_met :
  (∃ (c : CoreId) (w : WalkerId) (s : State) (d : Nat),
    let n := dRows d * dRowBytes d
    Ready s c.val w.val 5 1 d ∧ commitOk s c.val w.val d = true ∧ spdChk s c.val (dDst d) n = .ok) ∧
  (∃ (c : CoreId) (w : WalkerId) (s : State) (d : Nat), Ready s c.val w.val 5 1 d ∧ commitOk s c.val w.val d = false) ∧
  (∃ (c : CoreId) (w : WalkerId) (e : Upset) (s : State) (d : Nat),
    let n := dRows d * dRowBytes d
    let u := upset s e
    Ready s c.val w.val 5 2 d ∧ commitOk u c.val w.val d = true ∧ spdReadChk u e c.val (dSrc d) n = .ok ∧
      spdChk u c.val (dDst d) n = .ok) ∧
  (∃ (c : CoreId) (w : WalkerId) (e : Upset) (s : State) (d : Nat),
    let u := upset s e
    Ready s c.val w.val 5 2 d ∧ commitOk u c.val w.val d = false) :=
  ⟨⟨4095, 0, runs 4095 0x40302010000000000000040000000010000000000000000000000000005ffc0000000000000000000000000000000010000000000000005 (one on), 0x40302010000000000000040000000010000000000000000000000000005ffc0000000000000000000000000000000010000000000000005, ready_of (by decide +kernel), by decide +kernel, by decide +kernel⟩,
    ⟨4095, 0, runs 4095 0x400000000100000000000000000000000000000000000000000000000000000000000000210000000000000005 (one on), 0x400000000100000000000000000000000000000000000000000000000000000000000000210000000000000005, ready_of (by decide +kernel), by decide +kernel⟩,
    ⟨4095, 0, .clean, runs 4095 0x40000000010000000000000000000000000005ffc0000000000000000000000000000000020000000000000005 (one on), 0x40000000010000000000000000000000000005ffc0000000000000000000000000000000020000000000000005, ready_of (by decide +kernel), by decide +kernel, by decide +kernel, by decide +kernel⟩,
    ⟨4095, 0, .clean, runs 4095 0x400000000100000000000000000000000000000000000000000000000000000000000000220000000000000005 (one on), 0x400000000100000000000000000000000000000000000000000000000000000000000000220000000000000005, ready_of (by decide +kernel), by decide +kernel⟩⟩

/-- The hypotheses of WeightSets, clause by clause, are met. -/
theorem test_weight_sets_met :
  (∃ (c : CoreId) (w : WalkerId) (s : State) (d : Nat), Ready s c.val w.val 1 0 d ∧ (s.core c.val).mma.shadowSt = .filling) ∧
  (∃ (c : CoreId) (w : WalkerId) (e : Upset) (s : State) (d : Nat), Ready s c.val w.val 1 0 d ∧
    let u := upset s e
    let zero := mK d == 0 || mN d == 0
    (s.core c.val).mma.shadowSt ≠ .filling ∧ codesReserved 0 [mFmtW d] = false ∧ layoutFits c.val (mLayout d) = true ∧
      (arrayFloat (mFmtW d) || arrayInt (mFmtW d) || mFmtW d == 0x18) = true ∧
      (mTranspose d && isMx (mFmtW d)) = false ∧ mK d ≤ kMax (mLayout d) (elemBits (mFmtW d) == 4) ∧
      mN d ≤ nMax (mLayout d) ∧ (zero = false → loadChk u e c.val d = .ok)) ∧
  (∃ (c : CoreId) (w : WalkerId) (s : State) (d : Nat), Ready s c.val w.val 1 0 d ∧
    (s.core c.val).mma.shadowSt ≠ .filling ∧ codesReserved 0 [mFmtW d] = false ∧ layoutFits c.val (mLayout d) = false) ∧
  (∃ (c : CoreId) (w : WalkerId) (s : State) (d : Nat), Ready s c.val w.val 1 0 d ∧
    (s.core c.val).mma.shadowSt ≠ .filling ∧ codesReserved 0 [mFmtW d] = false ∧ layoutFits c.val (mLayout d) = true ∧
    (arrayFloat (mFmtW d) || arrayInt (mFmtW d) || mFmtW d == 0x18) = true ∧ mTranspose d = true ∧ isMx (mFmtW d) = true) ∧
  (∃ (c : CoreId) (s : State), (s.core c.val).mma.shadowSt = .filling) ∧
  (∃ (c : CoreId) (s : State), (s.core c.val).mma.shadowSt ≠ .filling) ∧
  (∃ (c : CoreId) (w : WalkerId) (s : State) (d : Nat), Ready s c.val w.val 1 3 d ∧ (s.core c.val).mma.shadowSt = .empty) ∧
  (∃ (c : CoreId) (w : WalkerId) (s : State) (d : Nat), Ready s c.val w.val 1 3 d ∧ (s.core c.val).mma.shadowSt = .filling) ∧
  (∃ (c : CoreId) (w : WalkerId) (s : State) (d : Nat), Ready s c.val w.val 1 3 d ∧
    ((s.core c.val).mma.shadowSt = .full ∨ (s.core c.val).mma.shadowSt = .spent)) :=
  ⟨⟨0, 0, (runs 0 0x8000000000000000400010000000000100000000000000000000000001 on).modCore 0 fun C => { C with mma := { C.mma with shadowSt := .filling } }, 0x8000000000000000400010000000000100000000000000000000000001, ready_of (by decide +kernel), by decide +kernel⟩,
    ⟨0, 0, .clean, runs 0 0x8000000000000000400010000000000100000000000000000000000001 on,
      0x8000000000000000400010000000000100000000000000000000000001, ready_of (by decide +kernel), by decide +kernel,
      by decide +kernel, by decide +kernel, by decide +kernel, by decide +kernel, by decide +kernel, by decide +kernel,
      fun _ => by decide +kernel⟩,
    ⟨0, 0, runs 0 0x10001000000000100000000200000000000000001 on, 0x10001000000000100000000200000000000000001,
      ready_of (by decide +kernel), by decide +kernel, by decide +kernel, by decide +kernel⟩,
    ⟨0, 0, runs 0 0x10020000000000800000002000000000000000001 on, 0x10020000000000800000002000000000000000001,
      ready_of (by decide +kernel), by decide +kernel, by decide +kernel, by decide +kernel, by decide +kernel,
      by decide +kernel, by decide +kernel⟩,
    ⟨4095, (runs 4095 0 on).modCore 4095 fun C => { C with mma := { C.mma with shadowSt := .filling } }, by decide +kernel⟩,
    ⟨4095, on, by decide +kernel⟩,
    ⟨4095, 0, (runs 4095 0x30000000000000001 on).modCore 4095 fun C => { C with mma := { C.mma with shadowSt := .empty } }, 0x30000000000000001, ready_of (by decide +kernel), by decide +kernel⟩,
    ⟨4095, 0, (runs 4095 0x30000000000000001 on).modCore 4095 fun C => { C with mma := { C.mma with shadowSt := .filling } }, 0x30000000000000001, ready_of (by decide +kernel), by decide +kernel⟩,
    ⟨4095, 0, (runs 4095 0x30000000000000001 on).modCore 4095 fun C => { C with mma := { C.mma with shadowSt := .spent } }, 0x30000000000000001, ready_of (by decide +kernel), by decide +kernel⟩⟩

/-- The hypotheses of MatrixProducts, clause by clause, are met. -/
theorem test_matrix_products_met :
  (∃ (c : CoreId) (w : WalkerId) (s : State) (d : Nat), Ready s c.val w.val 1 1 d ∧
    let zero := mM d == 0 || mK d == 0 || mN d == 0
    zero = true ∧ (mSwapFirst d = true → (s.core c.val).mma.shadowSt = .full ∨ (s.core c.val).mma.shadowSt = .spent)) ∧
  (∃ (c : CoreId) (w : WalkerId) (e : Upset) (s : State) (d : Nat), Ready s c.val w.val 1 1 d ∧
    let u := upset s e
    let v := if mSwapFirst d then swapSets u c.val else u
    let zero := mM d == 0 || mK d == 0 || mN d == 0
    let gate := layoutFits c.val (mLayout d) = true ∧ codesReserved (mArith d) (mulFormats d) = false ∧ mAcc d ≠ 3 ∧
      (mSwapFirst d = true → (s.core c.val).mma.shadowSt = .full ∨ (s.core c.val).mma.shadowSt = .spent)
    ∃ (kind : _), zero = false ∧ gate ∧ MulPasses v e c.val d kind ∧ mRelief d = false) ∧
  (∃ (c : CoreId) (w : WalkerId) (e : Upset) (s : State) (d : Nat), Ready s c.val w.val 1 1 d ∧
    let u := upset s e
    let v := if mSwapFirst d then swapSets u c.val else u
    let zero := mM d == 0 || mK d == 0 || mN d == 0
    let gate := layoutFits c.val (mLayout d) = true ∧ codesReserved (mArith d) (mulFormats d) = false ∧ mAcc d ≠ 3 ∧
      (mSwapFirst d = true → (s.core c.val).mma.shadowSt = .full ∨ (s.core c.val).mma.shadowSt = .spent)
    ∃ (kind : _), zero = false ∧ gate ∧ MulPasses v e c.val d kind ∧ mRelief d = true) :=
  ⟨⟨0, 0, (runs 0 0x1010000000000000001 on).modCore 0 fun C => { C with mma := { C.mma with shadowSt := .full } },
    0x1010000000000000001, ready_of (by decide +kernel), by decide +kernel, by decide +kernel⟩,
    ⟨0, 0, .clean, ((runs 0 0x100000000010001000100000101000000010000000000000001 on).modCore 0 fun C => { C with mma := { C.mma with active := { (default : WSet) with fmt := 1, cells := ⟨[(0, 0x3F80)]⟩ } } }).put (spdAddr 0 0x100) 2 0x4040, 0x100000000010001000100000101000000010000000000000001, ready_of (by decide +kernel), AccKind.float, by decide +kernel, by decide +kernel, by unfold MulPasses; decide +kernel, by decide +kernel⟩,
    ⟨0, 0, .clean, (((runs 0 0x1000010000000000000000000000000000000000000000000000000000000000000000100000000010001000100000101000004010000000000000001 on).modCore 0 fun C => { C with mma := { C.mma with active := { (default : WSet) with fmt := 1, cells := ⟨[(0, 0x3F80)]⟩ } } }).put (spdAddr 0 0x100) 2 0x4040).put (spdAddr 0 0x1000) 4 0x2000, 0x1000010000000000000000000000000000000000000000000000000000000000000000100000000010001000100000101000004010000000000000001, ready_of (by decide +kernel), AccKind.float, by decide +kernel, by decide +kernel, by unfold MulPasses; decide +kernel, by decide +kernel⟩⟩

/-- The hypotheses of MatrixDrains, clause by clause, are met. -/
theorem test_matrix_drains_met :
  (∃ (c : CoreId) (w : WalkerId) (s : State) (d : Nat), Ready s c.val w.val 1 2 d ∧ (mM d = 0 ∨ mN d = 0)) ∧
  (∃ (c : CoreId) (w : WalkerId) (e : Upset) (s : State) (d : Nat) (kind : AccKind), Ready s c.val w.val 1 2 d ∧
    let u := upset s e
    DrainPasses u e c.val d kind) :=
  ⟨⟨0, 0, runs 0 0x20000000000000001 on, 0x20000000000000001, ready_of (by decide +kernel), by decide +kernel⟩,
    ⟨0, 0, .clean, runs 0 0x5ffc0000000000000000000000000000000010000000100000101000000020000000000000001 on,
      0x5ffc0000000000000000000000000000000010000000100000101000000020000000000000001, AccKind.float,
      ready_of (by decide +kernel), by unfold DrainPasses; decide +kernel⟩⟩

/-- The hypotheses of AttentionRows, clause by clause, are met. -/
theorem test_attention_rows_met :
  (∃ (c : CoreId) (w : WalkerId) (s : State) (d : Nat), Ready s c.val w.val 3 0 d ∧ aNoop d = true) ∧
  (∃ (c : CoreId) (w : WalkerId) (e : Upset) (s : State) (d : Nat), Ready s c.val w.val 3 0 d ∧
    let u := upset s e
    let k := ctlFor u c.val (aArith d)
    aNoop d = false ∧ aAcc d ≠ 3 ∧ codesReserved (aArith d) ([aFmtQ d,
      aFmtKv d] ++ if aBiasEn d then [aFmtBias d] else []) = false ∧ attendFormat d = false ∧ attendParam k d = false ∧
      (aAcc d = 1 → rowsOpen u c.val d = true) ∧ attendChk u e c.val d = .ok) ∧
  (∃ (c : CoreId) (w : WalkerId) (e : Upset) (s : State) (d : Nat), Ready s c.val w.val 3 0 d ∧
    let u := upset s e
    let k := ctlFor u c.val (aArith d)
    aNoop d = false ∧ aAcc d = 1 ∧ codesReserved (aArith d) ([aFmtQ d,
      aFmtKv d] ++ if aBiasEn d then [aFmtBias d] else []) = false ∧ attendFormat d = false ∧ attendParam k d = false ∧
      rowsOpen u c.val d = false) ∧
  (∃ (c : CoreId) (w : WalkerId) (e : Upset) (s : State) (d : Nat), Ready s c.val w.val 3 1 d ∧
    let u := upset s e
    let k := ctlFor u c.val (aArith d)
    let gate := aNoop d = false ∧ codesReserved (aArith d) [aFmtOut d] = false ∧ aFmtOut d ≤ 4 ∧ rowsWrong d = false ∧
      attSigns k = false
    gate ∧ rowsOpen u c.val d = true ∧
      writeRowsChk u c.val (aOut d) (aStrideOut d) (aRows d) (rowLen (aFmtOut d) (aD d)) = .ok ∧
      (aStatsOut d = true → spdChk u c.val (aAux d) (8 * aRows d) = .ok)) ∧
  (∃ (c : CoreId) (w : WalkerId) (e : Upset) (s : State) (d : Nat), Ready s c.val w.val 3 1 d ∧
    let u := upset s e
    let k := ctlFor u c.val (aArith d)
    let gate := aNoop d = false ∧ codesReserved (aArith d) [aFmtOut d] = false ∧ aFmtOut d ≤ 4 ∧ rowsWrong d = false ∧
      attSigns k = false
    gate ∧ rowsOpen u c.val d = false) :=
  ⟨⟨4095, 0, runs 4095 0x3 on, 0x3, ready_of (by decide +kernel), by decide +kernel⟩,
    ⟨4095, 0, .clean, runs 4095 0x403f80000000000000000000000000000000003800000030000000200000001000000000000000000400033e0200000101000000000000000000000003 on, 0x403f80000000000000000000000000000000003800000030000000200000001000000000000000000400033e0200000101000000000000000000000003, ready_of (by decide +kernel), by decide +kernel, by decide +kernel, by decide +kernel, by decide +kernel, by decide +kernel, fun h => absurd h (by decide +kernel), by decide +kernel⟩,
    ⟨4095, 0, .clean, runs 4095 0x403f80000000000000000000000000000000003800000030000000200000001000000000000000000400033e0200000101000000080000000000000003 on, 0x403f80000000000000000000000000000000003800000030000000200000001000000000000000000400033e0200000101000000080000000000000003, ready_of (by decide +kernel), by decide +kernel, by decide +kernel, by decide +kernel, by decide +kernel, by decide +kernel, by decide +kernel⟩,
    ⟨4095, 0, .clean, (runs 4095 0x4000000000000000000000000000000000010000000000000000000000000000000000000000000000000400003e0200000000000000010000000000000003 on).modCore 4095 fun C => { C with stats := ⟨[(62, { (default : StatRow) with live := true, l := 0x3F800000 }), (63, { (default : StatRow) with live := true, l := 0x3F800000 })]⟩ }, 0x4000000000000000000000000000000000010000000000000000000000000000000000000000000000000400003e0200000000000000010000000000000003, ready_of (by decide +kernel), by decide +kernel, by decide +kernel, by decide +kernel, fun h => absurd h (by decide +kernel)⟩,
    ⟨4095, 0, .clean, runs 4095 0x4000000000000000000000000000000000010000000000000000000000000000000000000000000000000400003e0200000000000000010000000000000003 on, 0x4000000000000000000000000000000000010000000000000000000000000000000000000000000000000400003e0200000000000000010000000000000003, ready_of (by decide +kernel), by decide +kernel, by decide +kernel⟩⟩

/-- The hypotheses of AttentionTransfers, clause by clause, are met. -/
theorem test_attention_transfers_met :
  (∃ (c : CoreId) (w : WalkerId) (e : Upset) (s : State) (d : Nat), Ready s c.val w.val 3 2 d ∧
    let u := upset s e
    let len := tripleLen (aD d)
    aNoop d = false ∧ rowsWrong d = false ∧ aOut d % 64 = 0 ∧ rowsOpen u c.val d = true ∧ aTarget d = false ∧
      spdChk u c.val (aOut d) (aRows d * len) = .ok) ∧
  (∃ (c : CoreId) (w : WalkerId) (e : Upset) (s : State) (d : Nat), Ready s c.val w.val 3 2 d ∧
    let u := upset s e
    let q := c.val / 32
    let len := tripleLen (aD d)
    let part := partAt (aOut d) (aRows d) (aD d) (aWindow d) 0
    aNoop d = false ∧ rowsWrong d = false ∧ aOut d % 64 = 0 ∧ rowsOpen u c.val d = true ∧ aTarget d = true ∧
      aWindow d < 32 ∧ qsrChk u q (aOut d) 64 = .ok ∧ qsrChk u q part (aRows d * len) = .ok ∧
      landRefused (combHead u q (aOut d)) (aWindow d) = true) ∧
  (∃ (c : CoreId) (w : WalkerId) (e : Upset) (s : State) (d : Nat), Ready s c.val w.val 3 2 d ∧
    let u := upset s e
    let q := c.val / 32
    let len := tripleLen (aD d)
    let part := partAt (aOut d) (aRows d) (aD d) (aWindow d) 0
    aNoop d = false ∧ rowsWrong d = false ∧ aOut d % 64 = 0 ∧ rowsOpen u c.val d = true ∧ aTarget d = true ∧
      aWindow d < 32 ∧ qsrChk u q (aOut d) 64 = .ok ∧ qsrChk u q part (aRows d * len) = .ok ∧
      landRefused (combHead u q (aOut d)) (aWindow d) = false) ∧
  (∃ (c : CoreId) (w : WalkerId) (s : State) (d : Nat), Ready s c.val w.val 3 4 d ∧
    let q := c.val / 32
    let h := combHead s q (aOut d)
    aNoop d = false ∧ codesReserved (aArith d) [aFmtOut d] = false ∧ aFmtOut d ≤ 4 ∧ aWindow d ≠ 0 ∧ aWindow d ≤ 32 ∧
      aRows d ≤ 64 ∧ aD d ≤ 256 ∧ aOut d % 64 = 0 ∧ attSigns (ctlFor s c.val (aArith d)) = false ∧
      qsrChk s q (aOut d) (64 + (aWindow d + 1) * aRows d * tripleLen (aD d)) = .ok ∧
      writeRowsChk s c.val (aQ d) (aStrideQ d) (aRows d) (rowLen (aFmtOut d) (aD d)) = .ok ∧
      (aStatsOut d = true → spdChk s c.val (aAux d) (8 * aRows d) = .ok) ∧ rArmed h = true) ∧
  (∃ (c : CoreId) (w : WalkerId) (s : State) (d : Nat), Ready s c.val w.val 3 4 d ∧
    let q := c.val / 32
    let h := combHead s q (aOut d)
    aNoop d = false ∧ codesReserved (aArith d) [aFmtOut d] = false ∧ aFmtOut d ≤ 4 ∧ aWindow d ≠ 0 ∧ aWindow d ≤ 32 ∧
      aRows d ≤ 64 ∧ aD d ≤ 256 ∧ aOut d % 64 = 0 ∧ attSigns (ctlFor s c.val (aArith d)) = false ∧
      qsrChk s q (aOut d) (64 + (aWindow d + 1) * aRows d * tripleLen (aD d)) = .ok ∧
      writeRowsChk s c.val (aQ d) (aStrideQ d) (aRows d) (rowLen (aFmtOut d) (aD d)) = .ok ∧
      (aStatsOut d = true → spdChk s c.val (aAux d) (8 * aRows d) = .ok) ∧ rArmed h = false) ∧
  (∃ (c : CoreId) (w : WalkerId) (e : Upset) (s : State) (d : Nat), Ready s c.val w.val 3 3 d ∧
    let u := upset s e
    let k := ctlFor u c.val (aArith d)
    let b := kvRowBytes (aFmtKv d) (aD d)
    let z := kvScales (aFmtKv d) (aD d)
    aNoop d = false ∧ codesReserved (aArith d) [aFmtQ d, aFmtKv d] = false ∧ aFmtQ d ≤ 2 ∧ kvFormat (aFmtKv d) = true ∧
      dimWrong d = false ∧ attSigns k = false ∧
      readRowsChk u e c.val (aQ d) (aStrideQ d) (aRows d) (rowLen (aFmtQ d) (aD d)) = .ok ∧
      spdChk u c.val (aK d) (aRows d * b) = .ok ∧ spdChk u c.val (aKs d) (aRows d * z) = .ok) :=
  ⟨⟨4095, 0, .clean, (runs 4095 0x4000000000000000000000000000000000010000000000000000000000000000000000000000000000000400003e0200000000000000020000000000000003 on).modCore 4095 fun C => { C with stats := ⟨[(62, { (default : StatRow) with live := true, l := 0x3F800000 }), (63, { (default : StatRow) with live := true, l := 0x3F800000 })]⟩ }, 0x4000000000000000000000000000000000010000000000000000000000000000000000000000000000000400003e0200000000000000020000000000000003, ready_of (by decide +kernel), by decide +kernel, by decide +kernel, by decide +kernel, by decide +kernel, by decide +kernel, by decide +kernel⟩,
    ⟨4095, 0, .clean, ((runs 4095 0x400000000000000000000000000000000030000000000000000000000000000000000000000000001f000400003e0200000000000002020000000000000003 on).modCore 4095 fun C => { C with stats := ⟨[(62, { (default : StatRow) with live := true, l := 0x3F800000 }), (63, { (default : StatRow) with live := true, l := 0x3F800000 })]⟩ }).put (qsrAddr 127 0x3000) 16 0x8000000000000000, 0x400000000000000000000000000000000030000000000000000000000000000000000000000000001f000400003e0200000000000002020000000000000003, ready_of (by decide +kernel), by decide +kernel, by decide +kernel, by decide +kernel, by decide +kernel, by decide +kernel, by decide +kernel, by decide +kernel, by decide +kernel, by decide +kernel⟩,
    ⟨4095, 0, .clean, (runs 4095 0x400000000000000000000000000000000030000000000000000000000000000000000000000000001f000400003e0200000000000002020000000000000003 on).modCore 4095 fun C => { C with stats := ⟨[(62, { (default : StatRow) with live := true, l := 0x3F800000 }), (63, { (default : StatRow) with live := true, l := 0x3F800000 })]⟩ }, 0x400000000000000000000000000000000030000000000000000000000000000000000000000000001f000400003e0200000000000002020000000000000003, ready_of (by decide +kernel), by decide +kernel, by decide +kernel, by decide +kernel, by decide +kernel, by decide +kernel, by decide +kernel, by decide +kernel, by decide +kernel, by decide +kernel⟩,
    ⟨4095, 0, (runs 4095 0x40000000000000000000000000000030000000000000000000000000000000000000000100002000040000000200000000000000040000000000000003 on).put (qsrAddr 127 0x3000) 16 0x8000000, 0x40000000000000000000000000000030000000000000000000000000000000000000000100002000040000000200000000000000040000000000000003, ready_of (by decide +kernel), by decide +kernel, by decide +kernel, by decide +kernel, by decide +kernel, by decide +kernel, by decide +kernel, by decide +kernel, by decide +kernel, by decide +kernel, by decide +kernel, by decide +kernel, fun h => absurd h (by decide +kernel), by decide +kernel⟩,
    ⟨4095, 0, runs 4095 0x40000000000000000000000000000030000000000000000000000000000000000000000100002000040000000200000000000000040000000000000003 on, 0x40000000000000000000000000000030000000000000000000000000000000000000000100002000040000000200000000000000040000000000000003, ready_of (by decide +kernel), by decide +kernel, by decide +kernel, by decide +kernel, by decide +kernel, by decide +kernel, by decide +kernel, by decide +kernel, by decide +kernel, by decide +kernel, by decide +kernel, by decide +kernel, fun h => absurd h (by decide +kernel), by decide +kernel⟩,
    ⟨4095, 0, .clean, runs 4095 0x40000000000000000000000000000000000000000000002000000000000000100000000000000000200000000100000801000000030000000000000003 on, 0x40000000000000000000000000000000000000000000002000000000000000100000000000000000200000000100000801000000030000000000000003, ready_of (by decide +kernel), by decide +kernel, by decide +kernel, by decide +kernel, by decide +kernel, by decide +kernel, by decide +kernel, by decide +kernel, by decide +kernel, by decide +kernel⟩⟩

/-- The hypotheses of CombineUnit, clause by clause, are met. -/
theorem test_combine_unit_met :
  (∃ (q : QuireId) (s : State) (v : CombEvent), (s.quire q.val).comb.find? (mergeable s q.val) = some v ∧
    let h := combHead s q.val v.record
    let len := tripleLen (rD h)
    v.part < 32 ∧ qsrAddr q.val v.record + 64 + (v.part + 2) * rRows h * len ≤ qsrAddr (q.val + 1) 0) ∧
  (∃ (q : QuireId) (s : State), (s.quire q.val).comb.find? (mergeable s q.val) = none) ∧
  (∃ (q : QuireId) (s : State) (v : CombEvent), finalising s q.val 0 = some v ∧
    let h := combHead s q.val v.record
    let c := 32 * q.val + rDest h
    (∃ k, rSlot h = some k ∧ ((s.core c).slots.get k).full = true)) ∧
  (∃ (q : QuireId) (s : State) (v : CombEvent), finalising s q.val 0 = some v ∧
    let h := combHead s q.val v.record
    let c := 32 * q.val + rDest h
    (∀ k, rSlot h = some k → ((s.core c).slots.get k).full = false) ∧
      rResult h + rRows h * rStride h + rowLen (rFmt h) (rD h) ≤ 0x60000 ∧ rowLen (rFmt h) (rD h) ≤ rStride h ∧
      rStats h = false ∧ isScaled (rFmt h) = false) ∧
  (∃ (q : QuireId) (s : State) (v : CombEvent), finalising s q.val 1 = some v) :=
  ⟨⟨127, (on.modQuire 127 fun Q => { Q with comb := [⟨0x3000, 31, false⟩] }).put (qsrAddr 127 0x3000) 64 0x400000000000000100001f0000000000008000000008002060, ⟨0x3000, 31, false⟩, by decide +kernel, by decide +kernel, by decide +kernel⟩,
    ⟨127, on, by decide +kernel⟩,
    ⟨127, ((on.modQuire 127 fun Q => { Q with comb := [⟨0x3000, 0, true⟩] }).put (qsrAddr 127 0x3000) 64 0x4000000000000001007f1f0000000000010000000008002041).modCore 4095 fun C => { C with slots := C.slots.set 63 { (default : Slot) with defined := true, full := true } }, ⟨0x3000, 0, true⟩, by decide +kernel, ⟨63, by decide +kernel, by decide +kernel⟩⟩,
    ⟨127, (on.modQuire 127 fun Q => { Q with comb := [⟨0x3000, 0, true⟩] }).put (qsrAddr 127 0x3000) 64 0x400000000000000100001f0000000000010000000008002041, ⟨0x3000, 0, true⟩, by decide +kernel, none_due (by decide +kernel), by decide +kernel, by decide +kernel, by decide +kernel, by decide +kernel⟩,
    ⟨127, (on.modQuire 127 fun Q => { Q with comb := [⟨0x3000, 1, true⟩] }).put (qsrAddr 127 0x3000) 64 0x4000000000000001007f1f0000000000010000000008002041, ⟨0x3000, 1, true⟩, by decide +kernel⟩⟩

/-- The hypotheses of StateEngine, clause by clause, are met. -/
theorem test_state_engine_met :
  (∃ (c : CoreId) (w : WalkerId) (s : State) (d : Nat), Ready s c.val w.val 4 0 d ∧ StreamsQuiet s c.val ∧ tNoop d = true) ∧
  (∃ (c : CoreId) (w : WalkerId) (e : Upset) (s : State) (d : Nat), Ready s c.val w.val 4 0 d ∧ StreamsQuiet s c.val ∧
    let u := upset s e
    let ids := namedStreams u c.val d
    ChunkPasses u e c.val d ∧ strBase u + 32 * strCount u ≤ stackedTop ∧ (∃ id, id ∈ ids ∧
      residentHere u c.val id = false)) ∧
  (∃ (c : CoreId) (w : WalkerId) (e : Upset) (s : State) (d : Nat), Ready s c.val w.val 4 0 d ∧ StreamsQuiet s c.val ∧
    let u := upset s e
    let ids := namedStreams u c.val d
    let k := ctlFor u c.val (tArith d)
    ChunkPasses u e c.val d ∧ tStreams d = 1 ∧ k.stoch = false ∧ strBase u + 32 * strCount u ≤ stackedTop ∧
      rowLen (tFmtY d) (tChannels d) ≤ tStrideY d ∧
    let id := ids.getD 0 0
    let v := strGet u id
    residentHere u c.val id = true ∧ geometryWrong u d id = false ∧ slotPoison u c.val id = 0 ∧ eSlot v < 32) ∧
  (∃ (c : CoreId) (w : WalkerId) (e : Upset) (s : State) (d : Nat), Ready s c.val w.val 4 1 d ∧ StreamsQuiet s c.val ∧
    let u := upset s e
    let id := (namedStreams u c.val d).getD 0 0
    let v := strGet u id
    let len := imageLen (eCg v) (eRows v)
    StreamsOk u e c.val d ∧ tStreams d = 1 ∧ eState v = 3 ∧ eDirty v = true ∧ ∃ (h : _), strHome u id = some h ∧
      TableApart u h len) ∧
  (∃ (c : CoreId) (w : WalkerId) (e : Upset) (s : State) (d : Nat), Ready s c.val w.val 4 2 d ∧ StreamsQuiet s c.val ∧
    let u := upset s e
    let id := (namedStreams u c.val d).getD 0 0
    let v := strGet u id
    StreamsOk u e c.val d ∧ tStreams d = 1 ∧ eState v = 3 ∧ chunkRunning s id = false ∧
      strBase u + 32 * strCount u ≤ stackedTop ∧ eDirty v = false) ∧
  (∃ (c : CoreId) (w : WalkerId) (e : Upset) (s : State) (d : Nat), Ready s c.val w.val 4 2 d ∧ StreamsQuiet s c.val ∧
    let u := upset s e
    let id := (namedStreams u c.val d).getD 0 0
    let v := strGet u id
    let len := imageLen (eCg v) (eRows v)
    StreamsOk u e c.val d ∧ tStreams d = 1 ∧ eState v = 3 ∧ chunkRunning s id = false ∧
      strBase u + 32 * strCount u ≤ stackedTop ∧ eDirty v = true ∧ ∃ (h : _), strHome u id = some h ∧ TableApart u h len) :=
  ⟨⟨4095, 0, stateOn 0x2000000000000000000000000000000000000000000100000000000000000000000000000004 0x10000000000000210011, 0x2000000000000000000000000000000000000000000100000000000000000000000000000004, ready_of (by decide +kernel), by unfold StreamsQuiet; decide +kernel, by decide +kernel⟩,
    ⟨4095, 0, .clean, stateOn 0x100010000002000000010000000000000000400000000000001010100010101000040000000000000000004 0x10000000000000210011, 0x100010000002000000010000000000000000400000000000001010100010101000040000000000000000004, ready_of (by decide +kernel), by unfold StreamsQuiet; decide +kernel, by unfold ChunkPasses StreamsOk; decide +kernel, by decide +kernel, by decide +kernel⟩,
    ⟨4095, 0, .clean, stateOn 0x100010000002000000010000000000000000400000000000001010100010101000001000000000000000004 0x100000001fff00210013, 0x100010000002000000010000000000000000400000000000001010100010101000001000000000000000004, ready_of (by decide +kernel), by unfold StreamsQuiet; decide +kernel, by unfold ChunkPasses StreamsOk; decide +kernel, by decide +kernel, by decide +kernel, by decide +kernel, by decide +kernel, by decide +kernel, by decide +kernel, by decide +kernel, by decide +kernel⟩,
    ⟨4095, 0, .clean, stateOn 0x2000000000000000000000000000000000000000000100000000000001010000000000000004 0x100000001fff0021001b, 0x2000000000000000000000000000000000000000000100000000000001010000000000000004, ready_of (by decide +kernel), by unfold StreamsQuiet; decide +kernel, by unfold StreamsOk; decide +kernel, by decide +kernel, by decide +kernel, by decide +kernel, 0x1000, by decide +kernel, by unfold TableApart; decide +kernel⟩,
    ⟨4095, 0, .clean, stateOn 0x2000000000000000000000000000000000000000000100000000000001020000000000000004 0x100000001fff00210013, 0x2000000000000000000000000000000000000000000100000000000001020000000000000004, ready_of (by decide +kernel), by unfold StreamsQuiet; decide +kernel, by unfold StreamsOk; decide +kernel, by decide +kernel, by decide +kernel, by decide +kernel, by decide +kernel, by decide +kernel⟩,
    ⟨4095, 0, .clean, stateOn 0x2000000000000000000000000000000000000000000100000000000001020000000000000004 0x100000001fff0021001b, 0x2000000000000000000000000000000000000000000100000000000001020000000000000004, ready_of (by decide +kernel), by unfold StreamsQuiet; decide +kernel, by unfold StreamsOk; decide +kernel, by decide +kernel, by decide +kernel, by decide +kernel, by decide +kernel, by decide +kernel, 0x1000, by decide +kernel, by unfold TableApart; decide +kernel⟩⟩

/-- The hypotheses of StreamMoves, clause by clause, are met. -/
theorem test_stream_moves_met :
  (∃ (c : CoreId) (s : State) (desc : Nat) (id : Nat), readyClaim s c.val = none ∧ nextClaim s c.val = some (desc, id) ∧
    strBase s + 32 * strCount s ≤ stackedTop ∧ streamOk s (s.core c.val).ctx id = false) ∧
  (∃ (c : CoreId) (s : State) (desc : Nat) (id : Nat), readyClaim s c.val = none ∧ nextClaim s c.val = some (desc, id) ∧
    strBase s + 32 * strCount s ≤ stackedTop ∧ streamOk s (s.core c.val).ctx id = true ∧ ∃ (k : _),
    freeSlotOf s c.val = some k ∧ eState (strGet s id) = 1 ∧ (∀ l, l ∈ s.claims → l.stream ≠ id)) ∧
  (∃ (c : CoreId) (s : State) (desc : Nat) (id : Nat), readyClaim s c.val = none ∧ nextClaim s c.val = some (desc, id) ∧
    strBase s + 32 * strCount s ≤ stackedTop ∧ streamOk s (s.core c.val).ctx id = true ∧ ∃ (k : _),
    freeSlotOf s c.val = some k ∧ (eState (strGet s id) = 2 ∨ eState (strGet s id) = 3)) ∧
  (∃ (c : CoreId) (s : State) (desc : Nat) (id : Nat), readyClaim s c.val = none ∧ nextClaim s c.val = some (desc, id) ∧
    strBase s + 32 * strCount s ≤ stackedTop ∧ streamOk s (s.core c.val).ctx id = true ∧ freeSlotOf s c.val = none ∧
    ∃ (v : _), victimOf s c.val = some v ∧ eDirty (strGet s v) = false) ∧
  (∃ (c : CoreId) (s : State), readyClaim s c.val = none ∧ nextClaim s c.val = none) ∧
  (∃ (c : CoreId) (s : State) (k : Nat) (id : Nat) (h : Nat), loadingOn s c.val = some (k, id) ∧ StreamsQuiet s c.val ∧
    strHome s id = some h ∧
    let v := strGet s id
    let len := imageLen (eCg v) (eRows v)
    (262144 ≤ id → memReadChk s (s.core c.val).ctx h len = .ok) ∧ h + len ≤ stackedTop ∧
      strBase s + 32 * strCount s ≤ stackedTop ∧
      (List.range (eCg v * eRows v)).all (fun g => s.rdN (h + 16 + g) 1 != 0xFF) = true) ∧
  (∃ (c : CoreId) (s : State) (k : Nat × StrSlot), StreamsQuiet s c.val ∧
    (s.core c.val).strSlots.cells.find? (fun k => k.2.stream != 0 && eState (strGet s (k.2.stream - 1)) == 4) = some k ∧
    let id := k.2.stream - 1
    let v := strGet s id
    strBase s + 32 * strCount s ≤ stackedTop ∧ id < strCount s ∧ eDirty v = false) ∧
  (∃ (c : CoreId) (s : State) (k : Nat × StrSlot), (∀ b, b ∈ s.arm.boxes.cells → b.2.inProg = []) ∧
    (s.core c.val).strSlots.cells.find? (fun k => k.2.stream != 0 && residentHere s c.val (k.2.stream - 1) && eMigrate (strGet s (k.2.stream - 1)) && !namedHere s c.val (k.2.stream - 1)) = some k ∧
    let id := k.2.stream - 1
    let v := strGet s id
    strBase s + 32 * strCount s ≤ stackedTop ∧ eDirty v = false) ∧
  (∃ (c : CoreId) (s : State) (k : Nat × StrSlot), (∀ b, b ∈ s.arm.boxes.cells → b.2.inProg = []) ∧
    (s.core c.val).strSlots.cells.find? (fun k => k.2.stream != 0 && residentHere s c.val (k.2.stream - 1) && eMigrate (strGet s (k.2.stream - 1)) && !namedHere s c.val (k.2.stream - 1)) = some k ∧
    let id := k.2.stream - 1
    let v := strGet s id
    strBase s + 32 * strCount s ≤ stackedTop ∧ eDirty v = true ∧ ∃ (h : _), strHome s id = some h ∧
      TableApart s h (imageLen (eCg v) (eRows v))) :=
  ⟨⟨4095, claiming 0x10000000000000210021, 3, 262144, by decide +kernel, by decide +kernel, by decide +kernel,
    by decide +kernel⟩,
    ⟨4095, claiming 0x10000000000000210011, 3, 262144, by decide +kernel, by decide +kernel, by decide +kernel,
      by decide +kernel, 0, by decide +kernel, by decide +kernel, by decide +kernel⟩,
    ⟨4095, claiming 0x10000000100700210013, 3, 262144, by decide +kernel, by decide +kernel, by decide +kernel,
      by decide +kernel, 0, by decide +kernel, by decide +kernel⟩,
    ⟨4095, (((claiming 0x10000000000000210011).put (0x10000000 + 32 * 262145) 32 0x100000001fff00210013).modCore 4095 fun C => { C with strSlots := ⟨(List.range 32).map fun k => (k, { (default : StrSlot) with stream := 262146 })⟩ }), 3, 262144, by decide +kernel, by decide +kernel, by decide +kernel, by decide +kernel, by decide +kernel, 262145, by decide +kernel, by decide +kernel⟩,
    ⟨4095, on, by decide +kernel, by decide +kernel⟩,
    ⟨4095, holding 0x100000001fff00210012, 1, 262144, 0x1000, by decide +kernel, by unfold StreamsQuiet; decide +kernel,
      by decide +kernel, by decide +kernel, by decide +kernel, by decide +kernel, by decide +kernel⟩,
    ⟨4095, holding 0x100000001fff00210014, (1, { (default : StrSlot) with stream := 262145 }),
      by unfold StreamsQuiet; decide +kernel, by decide +kernel, by decide +kernel, by decide +kernel, by decide +kernel⟩,
    ⟨4095, holding 0x100000021fff00210013, (1, { (default : StrSlot) with stream := 262145 }), by decide +kernel,
      by decide +kernel, by decide +kernel, by decide +kernel⟩,
    ⟨4095, holding 0x100000021fff0021001b, (1, { (default : StrSlot) with stream := 262145 }), by decide +kernel,
      by decide +kernel, by decide +kernel, by decide +kernel, 0x1000, by decide +kernel,
      by unfold TableApart; decide +kernel⟩⟩

/-- The hypotheses of LinkTraining, clause by clause, are met. -/
theorem test_link_training_met :
  (∃ (l : Nat) (u : Nat) (g : Nat), l < 32 ∧ u < 16 ∧ g < 4) ∧
  (∃ (l : Nat) (u : Nat), l < 32 ∧ u < 16 ∧ popCount 4 u = 4) ∧
  (∃ (l : Nat) (u : Nat), l < 32 ∧ u < 16 ∧ (popCount 4 u = 2 ∨ popCount 4 u = 3)) ∧
  (∃ (l : Nat) (u : Nat), l < 32 ∧ u < 16 ∧ popCount 4 u = 1) ∧
  (∃ (l : LinkId) (g : BitVec 8) (s : State),
    let L := s.link l.val
    let seen := g.toNat &&& offered s l.val
    L.st = .detect ∧ seen ≠ 0) ∧
  (∃ (l : LinkId) (g : BitVec 8) (s : State),
    let L := s.link l.val
    let seen := g.toNat &&& offered s l.val
    (L.st ≠ .detect ∨ seen = 0)) ∧
  (∃ (l : LinkId) (s : State),
    let L := s.link l.val
    L.st = .detect) ∧
  (∃ (l : LinkId) (s : State),
    let L := s.link l.val
    L.st ≠ .detect) ∧
  (∃ (l : LinkId) (s : State),
    let L := s.link l.val
    L.st = .equalize) ∧
  (∃ (l : LinkId) (s : State),
    let L := s.link l.val
    L.st ≠ .equalize) ∧
  (∃ (l : LinkId) (s : State),
    let L := s.link l.val
    L.st = .align) ∧
  (∃ (l : LinkId) (s : State),
    let L := s.link l.val
    L.st ≠ .align) ∧
  (∃ (l : LinkId) (s : State),
    let L := s.link l.val
    L.st = .down ∧ (l.val = 32 ∨ s.rbit Reg.chnCtrl 10 = true)) ∧
  (∃ (l : LinkId) (s : State),
    let L := s.link l.val
    (L.st ≠ .down ∨ l.val ≠ 32 ∧ s.rbit Reg.chnCtrl 10 = false)) ∧
  (∃ (l : LinkId) (s : State),
    let L := s.link l.val
    L.st = .draining ∧ L.retry = []) ∧
  (∃ (l : LinkId) (s : State),
    let L := s.link l.val
    (L.st ≠ .draining ∨ L.retry ≠ [])) ∧
  (∃ (l : LinkId) (s : State),
    let L := s.link l.val
    L.st ≠ .exchange) ∧
  (∃ (l : LinkId) (p : CtrlFlit) (s : State),
    let L := s.link l.val
    let both := L.good.toNat &&& p.groups.toNat
    L.st = .exchange ∧ both = 0) ∧
  (∃ (l : LinkId) (p : CtrlFlit) (s : State),
    let L := s.link l.val
    let both := L.good.toNat &&& p.groups.toNat
    L.st = .exchange ∧ both ≠ 0) :=
  ⟨⟨31, 15, 3, by decide +kernel, by decide +kernel, by decide +kernel⟩,
    ⟨31, 15, by decide +kernel, by decide +kernel, by decide +kernel⟩,
    ⟨31, 14, by decide +kernel, by decide +kernel, by decide +kernel⟩,
    ⟨31, 8, by decide +kernel, by decide +kernel, by decide +kernel⟩,
    ⟨32, 255, on.modLink 32 fun L => { L with st := .detect }, by decide +kernel, by decide +kernel⟩,
    ⟨32, 0, on.modLink 32 fun L => { L with st := .detect }, by decide +kernel⟩,
    ⟨32, on.modLink 32 fun L => { L with st := .detect }, by decide +kernel⟩,
    ⟨0, on.modLink 0 fun L => { L with st := .up }, by decide +kernel⟩,
    ⟨31, on.modLink 31 fun L => { L with st := .equalize }, by decide +kernel⟩,
    ⟨31, on.modLink 31 fun L => { L with st := .up }, by decide +kernel⟩,
    ⟨31, on.modLink 31 fun L => { L with st := .align, good := 15 }, by decide +kernel⟩,
    ⟨31, on.modLink 31 fun L => { L with st := .up }, by decide +kernel⟩,
    ⟨32, on.modLink 32 fun L => { L with st := .down }, by decide +kernel, by decide +kernel⟩,
    ⟨31, on.modLink 31 fun L => { L with st := .up }, by decide +kernel⟩,
    ⟨31, on.modLink 31 fun L => { L with st := .draining }, by decide +kernel, by decide +kernel⟩,
    ⟨31, on.modLink 31 fun L => { L with st := .up }, by decide +kernel⟩,
    ⟨31, on.modLink 31 fun L => { L with st := .up }, by decide +kernel⟩,
    ⟨31, { (default : CtrlFlit) with groups := 8, srcDev := 16383, role := 2, link := 31, epoch := 65535, creditReq := 2047, creditRsp := 1, creditExp := 9, compFrames := 7 }, on.modLink 31 fun L => { L with st := .exchange, good := 7 }, by decide +kernel, by decide +kernel⟩,
    ⟨32, { (default : CtrlFlit) with groups := 255, srcDev := 16383, role := 2, link := 31, epoch := 65535, creditReq := 2047, creditRsp := 1, creditExp := 9, compFrames := 7 }, on.modLink 32 fun L => { L with st := .exchange, good := 255 }, by decide +kernel, by decide +kernel⟩⟩

/-- The hypotheses of LinkRepair, clause by clause, are met. -/
theorem test_link_repair_met :
  (∃ (l : LinkId) (f : Frame) (s : State), f.ctrl.length ≤ 10 ∧
    let L := s.link l.val
    passesFrames L = false) ∧
  (∃ (l : LinkId) (f : Frame) (s : State), f.ctrl.length ≤ 10 ∧
    let L := s.link l.val
    passesFrames L = true ∧ (f.failed ≠ 0 ∨ f.crcOk = false ∨ f.fseq ≠ L.rxNext)) ∧
  (∃ (l : LinkId) (f : Frame) (s : State), f.ctrl.length ≤ 10 ∧
    let L := s.link l.val
    passesFrames L = true ∧ f.failed = 0 ∧ f.crcOk = true ∧ f.fseq = L.rxNext ∧ (L.enc = false ∨ f.tagOk = true) ∧
      f.nak = false ∧ overCredit l.val ⟨L.rxHeld.req + flitsOf f 1, L.rxHeld.rsp + flitsOf f 2,
      L.rxHeld.exp + flitsOf f 3⟩ = false) ∧
  (∃ (l : LinkId) (f : Frame) (s : State), f.ctrl.length ≤ 10 ∧
    let L := s.link l.val
    passesFrames L = true ∧ f.failed = 0 ∧ f.crcOk = true ∧ f.fseq = L.rxNext ∧ l.val < 32 ∧ L.enc = true ∧
      f.tagOk = false) ∧
  (∃ (l : LinkId) (s : State),
    let L := s.link l.val
    passesFrames L = true ∧ L.retry ≠ []) ∧
  (∃ (l : LinkId) (s : State),
    let L := s.link l.val
    (passesFrames L = false ∨ L.retry = [])) ∧
  (∃ (l : LinkId) (s : State),
    let L := s.link l.val
    L.st = .exchange) ∧
  (∃ (l : LinkId) (s : State),
    let L := s.link l.val
    passesFrames L = true) ∧
  (∃ (l : LinkId) (s : State),
    let L := s.link l.val
    L.isUp = true ∧ (8 ≤ L.replays ∨ 64 ≤ L.discards.length)) ∧
  (∃ (l : LinkId) (s : State),
    let L := s.link l.val
    (L.isUp = false ∨ L.replays < 8 ∧ L.discards.length < 64)) ∧
  (∃ (l : LinkId) (s : State),
    let L := s.link l.val
    L.st = .retrain) ∧
  (∃ (l : LinkId) (s : State),
    let L := s.link l.val
    L.st ≠ .retrain) ∧
  (∃ (l : LinkId) (s : State),
    let L := s.link l.val
    L.st ≠ .retrain) ∧
  (∃ (l : LinkId) (s : State),
    let L := s.link l.val
    ∃ (g : BitVec 8) (p : CtrlFlit),
    let usable := g.toNat &&& offered s l.val &&& (255 - L.retired.toNat) &&& p.groups.toNat
    let same := decide (l.val = 32) || (L.peerDev = p.srcDev && L.peerLink = p.link)
    L.st = .retrain ∧ (usable = 0 ∨ same = false)) ∧
  (∃ (l : LinkId) (s : State),
    let L := s.link l.val
    ∃ (g : BitVec 8) (p : CtrlFlit),
    let usable := g.toNat &&& offered s l.val &&& (255 - L.retired.toNat) &&& p.groups.toNat
    let same := decide (l.val = 32) || (L.peerDev = p.srcDev && L.peerLink = p.link)
    L.st = .retrain ∧ usable ≠ 0 ∧ same = true) ∧
  (∃ (n : ChainId) (s : State),
    let L := s.link n.val
    L.held = []) ∧
  (∃ (n : ChainId) (s : State),
    let L := s.link n.val
    ∃ (p : _) (r : _), L.held = p :: r ∧ L.isUp = true ∧ L.retry = [] ∧ canSend L p = true) ∧
  (∃ (n : ChainId) (s : State),
    let L := s.link n.val
    ∃ (p : _) (r : _), L.held = p :: r ∧ L.isUp = false ∧ L.st ≠ .retrain ∧ L.st ≠ .draining ∧
      takesPackets (s.link ((n.val + 16) % 32)) = true) :=
  ⟨⟨31, (default : Frame), on.modLink 31 fun L => { L with st := .down }, by decide +kernel, by decide +kernel⟩,
    ⟨32, (default : Frame), on.modLink 32 fun L => { L with st := .up }, by decide +kernel, by decide +kernel,
      by decide +kernel⟩,
    ⟨32, { (default : Frame) with crcOk := true, kinds := 6, fseq := 4095, ack := 4095 },
      on.modLink 32 fun L => { L with st := .up, rxNext := 4095 }, by decide +kernel, by decide +kernel,
      by decide +kernel, by decide +kernel, by decide +kernel, by decide +kernel, by decide +kernel, by decide +kernel⟩,
    ⟨31, { (default : Frame) with crcOk := true }, on.modLink 31 fun L => { L with st := .held, enc := true },
      by decide +kernel, by decide +kernel, by decide +kernel, by decide +kernel, by decide +kernel, by decide +kernel,
      by decide +kernel, by decide +kernel⟩,
    ⟨32, on.modLink 32 fun L => { L with st := .draining, retry := [⟨4095, [], []⟩] }, by decide +kernel, by decide +kernel⟩,
    ⟨0, on.modLink 0 fun L => { L with st := .up }, by decide +kernel⟩,
    ⟨0, on.modLink 0 fun L => { L with st := .exchange }, by decide +kernel⟩,
    ⟨32, on.modLink 32 fun L => { L with st := .held, owed := ⟨5000, 1, 1⟩ }, by decide +kernel⟩,
    ⟨31, on.modLink 31 fun L => { L with st := .up, replays := 8 }, by decide +kernel, by decide +kernel⟩,
    ⟨31, on.modLink 31 fun L => { L with st := .up, replays := 7 }, by decide +kernel⟩,
    ⟨31, on.modLink 31 fun L => { L with st := .retrain, retry := [⟨4095, [], []⟩] }, by decide +kernel⟩,
    ⟨31, on.modLink 31 fun L => { L with st := .up }, by decide +kernel⟩,
    ⟨31, on.modLink 31 fun L => { L with st := .up }, by decide +kernel⟩,
    ⟨31, on.modLink 31 fun L => { L with st := .retrain }, 3, (default : CtrlFlit), by decide +kernel, by decide +kernel⟩,
    ⟨32, on.modLink 32 fun L => { L with st := .retrain, disableRec := true }, 255,
      { (default : CtrlFlit) with groups := 8, srcDev := 16383, role := 2, link := 31, epoch := 65535, creditReq := 2047, creditRsp := 1, creditExp := 9, compFrames := 7 }, by decide +kernel, by decide +kernel, by decide +kernel⟩,
    ⟨31, on, by decide +kernel⟩,
    ⟨31, on.modLink 31 fun L => { L with st := .up, credits := ⟨1, 1, 1⟩, held := [default] }, (default : ChnPkt),
      ([] : List ChnPkt), by decide +kernel, by decide +kernel, by decide +kernel, by decide +kernel⟩,
    ⟨31, (on.modLink 31 fun L => { L with st := .down, held := [default] }).modLink 15 fun L => { L with st := .retrain }, (default : ChnPkt), ([] : List ChnPkt), by decide +kernel, by decide +kernel, by decide +kernel, by decide +kernel, by decide +kernel⟩⟩

/-- The hypotheses of ChainPackets, clause by clause, are met. -/
theorem test_chain_packets_met :
  (∃ (n : ChainId) (p : ChnPkt) (s : State), p.fits = true ∧ carries s n.val = false) ∧
  (∃ (n : ChainId) (p : ChnPkt) (s : State), p.fits = true ∧ carries s n.val = true ∧ p.dst.toNat ≠ myDev s ∧ ∃ (i : _),
    i ∈ [Instr.chnRd n p, Instr.chnWr n p, Instr.chnExpd n p]) ∧
  (∃ (n : ChainId) (p : ChnPkt) (s : State), p.fits = true ∧ carries s n.val = true ∧ ∃ (r : _),
    inboundRefusal s false p p.len.toNat = some r) ∧
  (∃ (n : ChainId) (p : ChnPkt) (s : State), p.fits = true ∧ carries s n.val = true ∧
    inboundRefusal s false p p.len.toNat = none ∧ 1 ≤ p.len.toNat) ∧
  (∃ (n : ChainId) (p : ChnPkt) (s : State), p.fits = true ∧ carries s n.val = true ∧ ∃ (r : _),
    inboundRefusal s true p p.data.length = some r) ∧
  (∃ (n : ChainId) (p : ChnPkt) (s : State), p.fits = true ∧ carries s n.val = true ∧
    inboundRefusal s true p p.data.length = none ∧ 1 ≤ p.data.length) ∧
  (∃ (n : ChainId) (p : ChnPkt) (s : State), p.fits = true ∧ carries s n.val = true ∧ p.dst.toNat = myDev s ∧
    s.rbit Reg.plnReady 3 = true ∧ (s.link n.val).expHeld = [] ∧ ∃ (ring : _) (log : _) (units : _),
    inboxFor s p = some (ring, log, units) ∧
    let w := s.rdN ring 4 % 2 ^ log
    (w + 1) % 2 ^ log ≠ s.rdN (ring + 4) 4 % 2 ^ log) ∧
  (∃ (n : ChainId) (p : ChnPkt) (s : State), p.fits = true ∧ carries s n.val = true ∧ p.dst.toNat = myDev s ∧
    s.rbit Reg.plnReady 3 = true ∧ (s.link n.val).expHeld = [] ∧ ∃ (ring : _) (log : _) (units : _),
    inboxFor s p = some (ring, log, units) ∧
    let w := s.rdN ring 4 % 2 ^ log
    (w + 1) % 2 ^ log = s.rdN (ring + 4) 4 % 2 ^ log) ∧
  (∃ (n : ChainId) (p : ChnPkt) (s : State), p.fits = true ∧ carries s n.val = true ∧ ∃ (x : _), xferOf s p = some x ∧
    ∃ (f : _), flightOf s x.core x.desc = some f ∧ 2 ≤ f.wait) ∧
  (∃ (n : ChainId) (p : ChnPkt) (s : State), p.fits = true ∧ carries s n.val = true ∧ ∃ (x : _), xferOf s p = some x ∧
    ∃ (f : _), flightOf s x.core x.desc = some f ∧ f.wait = 1 ∧ dDstMode f.word.toNat ≠ 2 ∧
    dMcast f.word.toNat = false ∧ farSlot x.core f.word.toNat = none ∧ landChk s f.word.toNat f.dsts = .ok ∧ (∀ r,
    r ∈ f.dsts → rowAddr s r < compBase)) ∧
  (∃ (n : ChainId) (p : ChnPkt) (s : State), p.fits = true ∧ carries s n.val = true ∧ ∃ (x : _), xferOf s p = some x ∧
    ∃ (f : _), flightOf s x.core x.desc = some f) ∧
  (∃ (n : ChainId) (p : ChnPkt) (s : State), p.fits = true ∧ carries s n.val = true ∧ ∃ (x : _), xferOf s p = some x ∧
    ∃ (f : _), flightOf s x.core x.desc = some f) ∧
  (∃ (n : ChainId) (s : State), (s.link n.val).expHeld = []) ∧
  (∃ (n : ChainId) (s : State) (p : _) (r : _) (ring : _) (log : _) (units : _), (s.link n.val).expHeld = p :: r ∧
    inboxFor s p = some (ring, log, units) ∧
    let w := s.rdN ring 4 % 2 ^ log
    (w + 1) % 2 ^ log = s.rdN (ring + 4) 4 % 2 ^ log) ∧
  (∃ (n : ChainId) (s : State) (p : _) (r : _) (ring : _) (log : _) (units : _), (s.link n.val).expHeld = p :: r ∧
    inboxFor s p = some (ring, log, units) ∧
    let w := s.rdN ring 4 % 2 ^ log
    (w + 1) % 2 ^ log ≠ s.rdN (ring + 4) 4 % 2 ^ log) :=
  ⟨⟨31, { (default : ChnPkt) with typ := 0, dst := 0, src := 16383, tag := 65535, addr := 0, len := 0, data := [], expert := 0 }, on, by decide +kernel, by decide +kernel⟩,
    ⟨31, { (default : ChnPkt) with typ := 0, dst := 1, src := 16383, tag := 65535, addr := 0, len := 0, data := [], expert := 0 }, (on).modLink 31 fun L => { L with st := .up, credits := ⟨300, 300, 300⟩ }, by decide +kernel, by decide +kernel, by decide +kernel, .chnRd 31 ({ (default : ChnPkt) with typ := 0, dst := 1, src := 16383, tag := 65535, addr := 0, len := 0, data := [], expert := 0 }), by simp⟩,
    ⟨31, { (default : ChnPkt) with typ := 0, dst := 0, src := 16383, tag := 65535, addr := 0, len := 64, data := [], expert := 0 }, (on).modLink 31 fun L => { L with st := .up, credits := ⟨300, 300, 300⟩ }, by decide +kernel, by decide +kernel, 1, by decide +kernel⟩,
    ⟨31, { (default : ChnPkt) with typ := 0, dst := 0, src := 16383, tag := 65535, addr := 0x1FF000, len := 4096, data := [], expert := 0 }, (((on.rset (Reg.chnWinFrames 63) 1).rset (Reg.chnWinCtl 63) 3)).modLink 31 fun L => { L with st := .up, credits := ⟨300, 300, 300⟩ }, by decide +kernel, by decide +kernel, by decide +kernel, by decide +kernel⟩,
    ⟨31, { (default : ChnPkt) with typ := 0, dst := 0, src := 16383, tag := 65535, addr := 0, len := 0, data := [7], expert := 0 }, (on).modLink 31 fun L => { L with st := .up, credits := ⟨300, 300, 300⟩ }, by decide +kernel, by decide +kernel, 1, by decide +kernel⟩,
    ⟨31, { (default : ChnPkt) with typ := 0, dst := 0, src := 16383, tag := 65535, addr := 0x1FFFFF, len := 0, data := [7], expert := 0 }, (((on.rset (Reg.chnWinFrames 63) 1).rset (Reg.chnWinCtl 63) 3)).modLink 31 fun L => { L with st := .up, credits := ⟨300, 300, 300⟩ }, by decide +kernel, by decide +kernel, by decide +kernel, by decide +kernel⟩,
    ⟨31, { (default : ChnPkt) with typ := 0, dst := 0, src := 16383, tag := 65535, addr := 0, len := 0, data := [1, 2], expert := 65535 }, ((((on.rset Reg.chnExpertBaseLo 0x100000).rset Reg.chnInboxBaseLo 0x200000).put (0x100000 + 8 * 65535) 8 0xfff00004000).put (0x200000 + 32 * 4095) 32 0x2860000000000300000).modLink 31 fun L => { L with st := .up, credits := ⟨300, 300, 300⟩ }, by decide +kernel, by decide +kernel, by decide +kernel, by decide +kernel, by decide +kernel, 0x300000, 6, 2, by decide +kernel, by decide +kernel⟩,
    ⟨31, { (default : ChnPkt) with typ := 0, dst := 0, src := 16383, tag := 65535, addr := 0, len := 0, data := [1, 2], expert := 65535 }, (((((on.rset Reg.chnExpertBaseLo 0x100000).rset Reg.chnInboxBaseLo 0x200000).put (0x100000 + 8 * 65535) 8 0xfff00004000).put (0x200000 + 32 * 4095) 32 0x2860000000000300000).put 0x300000 8 63).modLink 31 fun L => { L with st := .up, credits := ⟨300, 300, 300⟩ }, by decide +kernel, by decide +kernel, by decide +kernel, by decide +kernel, by decide +kernel, 0x300000, 6, 2, by decide +kernel, by decide +kernel⟩,
    ⟨31, { (default : ChnPkt) with typ := 0, dst := 0, src := 16383, tag := 65535, addr := 0, len := 0, data := List.replicate 64 5, expert := 0 }, ({ ((runs 4095 0 on).modCore 4095 fun C => { C with inflight := [{ (default : InFlight) with eng := .dmv, id := 9, wait := 2, word := 0x40000000010000000000000000000041007ff80000000000000000100000000000000000000000000000000005, dsts := [(0, 71470402764800)], pending := true }] }) with chain := { on.chain with xfers := [{ (default : Xfer) with tag := 65535, core := 4095, desc := 9, len := 64 }] } }).modLink 31 fun L => { L with st := .up, credits := ⟨300, 300, 300⟩ }, by decide +kernel, by decide +kernel, { (default : Xfer) with tag := 65535, core := 4095, desc := 9, len := 64 }, by decide +kernel, { (default : InFlight) with eng := .dmv, id := 9, wait := 2, word := 0x40000000010000000000000000000041007ff80000000000000000100000000000000000000000000000000005, dsts := [(0, 71470402764800)], pending := true }, by decide +kernel, by decide +kernel⟩,
    ⟨31, { (default : ChnPkt) with typ := 0, dst := 0, src := 16383, tag := 65535, addr := 0, len := 0, data := List.replicate 64 5, expert := 0 }, ({ ((runs 4095 0 on).modCore 4095 fun C => { C with inflight := [{ (default : InFlight) with eng := .dmv, id := 9, wait := 1, word := 0x40000000010000000000000000000041007ff80000000000000000100000000000000000000000000000000005, dsts := [(0, 71470402764800)], pending := true }] }) with chain := { on.chain with xfers := [{ (default : Xfer) with tag := 65535, core := 4095, desc := 9, len := 64 }] } }).modLink 31 fun L => { L with st := .up, credits := ⟨300, 300, 300⟩ }, by decide +kernel, by decide +kernel, { (default : Xfer) with tag := 65535, core := 4095, desc := 9, len := 64 }, by decide +kernel, { (default : InFlight) with eng := .dmv, id := 9, wait := 1, word := 0x40000000010000000000000000000041007ff80000000000000000100000000000000000000000000000000005, dsts := [(0, 71470402764800)], pending := true }, by decide +kernel, by decide +kernel, by decide +kernel, by decide +kernel, by decide +kernel, by decide +kernel, by decide +kernel⟩,
    ⟨31, { (default : ChnPkt) with typ := 0, dst := 0, src := 16383, tag := 65535, addr := 0, len := 0, data := List.replicate 64 5, expert := 0 }, ({ ((runs 4095 0 on).modCore 4095 fun C => { C with inflight := [{ (default : InFlight) with eng := .dmv, id := 9, wait := 1, word := 0x40000000010000000000000000000041007ff80000000000000000100000000000000000000000000000000005, dsts := [(0, 71470402764800)], pending := true }] }) with chain := { on.chain with xfers := [{ (default : Xfer) with tag := 65535, core := 4095, desc := 9, len := 64 }] } }).modLink 31 fun L => { L with st := .up, credits := ⟨300, 300, 300⟩ }, by decide +kernel, by decide +kernel, { (default : Xfer) with tag := 65535, core := 4095, desc := 9, len := 64 }, by decide +kernel, { (default : InFlight) with eng := .dmv, id := 9, wait := 1, word := 0x40000000010000000000000000000041007ff80000000000000000100000000000000000000000000000000005, dsts := [(0, 71470402764800)], pending := true }, by decide +kernel⟩,
    ⟨31, { (default : ChnPkt) with typ := 0, dst := 0, src := 16383, tag := 65535, addr := 0, len := 0, data := List.replicate 64 5, expert := 0 }, ({ ((runs 4095 0 on).modCore 4095 fun C => { C with inflight := [{ (default : InFlight) with eng := .dmv, id := 9, wait := 1, word := 0x40000000010000000000000000000041007ff80000000000000000100000000000000000000000000000000005, dsts := [(0, 71470402764800)], pending := true }] }) with chain := { on.chain with xfers := [{ (default : Xfer) with tag := 65535, core := 4095, desc := 9, len := 64 }] } }).modLink 31 fun L => { L with st := .up, credits := ⟨300, 300, 300⟩ }, by decide +kernel, by decide +kernel, { (default : Xfer) with tag := 65535, core := 4095, desc := 9, len := 64 }, by decide +kernel, { (default : InFlight) with eng := .dmv, id := 9, wait := 1, word := 0x40000000010000000000000000000041007ff80000000000000000100000000000000000000000000000000005, dsts := [(0, 71470402764800)], pending := true }, by decide +kernel⟩,
    ⟨31, on, by decide +kernel⟩,
    ⟨31, (((((on.rset Reg.chnExpertBaseLo 0x100000).rset Reg.chnInboxBaseLo 0x200000).put (0x100000 + 8 * 65535) 8 0xfff00004000).put (0x200000 + 32 * 4095) 32 0x2860000000000300000).put 0x300000 8 63).modLink 31 fun L => { L with st := .up, credits := ⟨300, 300, 300⟩, expHeld := [{ (default : ChnPkt) with typ := 0, dst := 0, src := 16383, tag := 65535, addr := 0, len := 0, data := [1, 2], expert := 65535 }] }, { (default : ChnPkt) with typ := 0, dst := 0, src := 16383, tag := 65535, addr := 0, len := 0, data := [1, 2], expert := 65535 }, ([] : List ChnPkt), 0x300000, 6, 2, by decide +kernel, by decide +kernel, by decide +kernel⟩,
    ⟨31, ((((on.rset Reg.chnExpertBaseLo 0x100000).rset Reg.chnInboxBaseLo 0x200000).put (0x100000 + 8 * 65535) 8 0xfff00004000).put (0x200000 + 32 * 4095) 32 0x2860000000000300000).modLink 31 fun L => { L with st := .up, credits := ⟨300, 300, 300⟩, expHeld := [{ (default : ChnPkt) with typ := 0, dst := 0, src := 16383, tag := 65535, addr := 0, len := 0, data := [1, 2], expert := 65535 }] }, { (default : ChnPkt) with typ := 0, dst := 0, src := 16383, tag := 65535, addr := 0, len := 0, data := [1, 2], expert := 65535 }, ([] : List ChnPkt), 0x300000, 6, 2, by decide +kernel, by decide +kernel, by decide +kernel⟩⟩

/-- The hypotheses of ManagerRole, clause by clause, are met. -/
theorem test_manager_role_met :
  (∃ (s : State), managerSilent s = false) ∧
  (∃ (s : State), managerSilent s = true) ∧
  (∃ (n : ChainId) (epoch : BitVec 16) (s : State), (carries s n.val = false ∨ epoch.toNat < s.chain.epoch.toNat)) ∧
  (∃ (n : ChainId) (epoch : BitVec 16) (s : State), carries s n.val = true ∧ epoch = s.chain.epoch ∧ s.chain.role = 2) ∧
  (∃ (n : ChainId) (epoch : BitVec 16) (s : State), carries s n.val = true ∧ s.chain.epoch.toNat < epoch.toNat ∧
    s.chain.role ≠ 1) ∧
  (∃ (n : ChainId) (epoch : BitVec 16) (s : State), carries s n.val = true ∧ s.chain.epoch.toNat < epoch.toNat ∧
    s.chain.role = 1) :=
  ⟨⟨on, by decide +kernel⟩,
    ⟨{ on with now := 10000000, chain := { on.chain with role := 2, mgrValid := true, silences := (List.range 7).map fun i => (i, 0) } }, by decide +kernel⟩,
    ⟨31, 7, { (on).modLink 31 fun L => { L with st := .up, credits := ⟨300, 300, 300⟩ } with chain := { on.chain with epoch := 8 } }, by decide +kernel⟩,
    ⟨31, 8, { (on).modLink 31 fun L => { L with st := .up, credits := ⟨300, 300, 300⟩ } with chain := { on.chain with epoch := 8, role := 2 } }, by decide +kernel, by decide +kernel, by decide +kernel⟩,
    ⟨31, 9, { (on).modLink 31 fun L => { L with st := .up, credits := ⟨300, 300, 300⟩ } with chain := { on.chain with epoch := 8, role := 2 } }, by decide +kernel, by decide +kernel, by decide +kernel⟩,
    ⟨31, 9, { (on).modLink 31 fun L => { L with st := .up, credits := ⟨300, 300, 300⟩ } with chain := { on.chain with epoch := 8, role := 1 } }, by decide +kernel, by decide +kernel, by decide +kernel⟩⟩

/-- The hypotheses of CompanionAccess, clause by clause, are met. -/
theorem test_companion_access_met :
  (∃ (p : CchPkt) (s : State), p.fits = true ∧ (s.link 32).isUp = false) ∧
  (∃ (p : CchPkt) (s : State), p.fits = true ∧
    let off := p.addr.toNat
    (s.link 32).isUp = true ∧ wellRequested p true = true ∧ ctlServes s off = true ∧ ctlArea off = .mailboxes) ∧
  (∃ (p : CchPkt) (s : State), p.fits = true ∧
    let off := p.addr.toNat
    let n := p.len.toNat
    (s.link 32).isUp = true ∧ wellRequested p true = true ∧ ctlServes s off = true ∧ ctlArea off = .mailboxes ∧ n = 64) ∧
  (∃ (p : CchPkt) (s : State), p.fits = true ∧
    let off := p.addr.toNat
    let n := p.len.toNat
    (s.link 32).isUp = true ∧ wellRequested p true = true ∧ ctlServes s off = true ∧ ctlArea off = .mailboxes ∧
      p.data.length = n ∧ (s.box (boxOf off)).covered = 0 ∧
      ((linesOf off n).any fun l => isDoorbell (ctlView (64 * l))) = false) ∧
  (∃ (p : CchPkt) (s : State), p.fits = true ∧
    let off := p.addr.toNat
    let n := p.len.toNat
    (s.link 32).isUp = true ∧ wellRequested p true = true ∧ ctlServes s off = true ∧ ctlArea off = .mailboxes ∧ n = 64 ∧
      p.data.length = 64 ∧ isDoorbell (ctlView off) = false ∧ (s.box (boxOf off)).covered = 0) ∧
  (∃ (p : CchPkt) (s : State), p.fits = true ∧
    let off := p.addr.toNat
    (s.link 32).isUp = true ∧ wellRequested p true = true ∧ ctlServes s off = true ∧ ctlArea off ≠ .mailboxes ∧
      ctlArea off ≠ .reserved) ∧
  (∃ (p : CchPkt) (s : State), p.fits = true ∧
    let off := p.addr.toNat
    let n := p.len.toNat
    (s.link 32).isUp = true ∧ wellRequested p false = true ∧
      (List.range n).all (fun i => ctlServes s (off + i)) = true ∧ ctlArea off ≠ .reserved) ∧
  (∃ (p : CchPkt) (s : State), p.fits = true ∧
    let off := p.addr.toNat
    (s.link 32).isUp = true ∧ ctlArea off = .reserved) ∧
  (∃ (p : CchPkt) (s : State), p.fits = true ∧
    let off := p.addr.toNat
    let n := p.len.toNat
    (s.link 32).isUp = true ∧ wellRequested p true = true ∧ n = 64 ∧ p.data.length = 64 ∧ ctlArea off = .registers ∧
      ∃ (b : _) (k : _), maskWord p.mask = some (b, k) ∧ ctlServes s (off + b) = true ∧
      ctlServes s (off + b + k - 1) = true) ∧
  (∃ (p : CchPkt) (s : State), p.fits = true ∧
    let off := p.addr.toNat
    (s.link 32).isUp = true ∧ p.space = true ∧ off % 64 = 0 ∧ ctlServes s off = true ∧ ctlArea off = .mailboxes ∧
      isDoorbell (ctlView off) = false ∧ (s.box (boxOf off)).covered = 0 ∧ (s.box (boxOf off)).outbox = []) :=
  ⟨⟨{ (default : CchPkt) with space := true, tag := 65535, addr := 0, len := 4, data := [] }, on, by decide +kernel,
    by decide +kernel⟩,
    ⟨{ (default : CchPkt) with space := true, tag := 65535, addr := 0x10F1000, len := 4096, data := [] },
      (on.modLink 32 fun L => { L with st := .degraded, credits := ⟨300, 300, 300⟩, rxHeld := ⟨70, 70, 70⟩ }),
      by decide +kernel, by decide +kernel, by decide +kernel, by decide +kernel, by decide +kernel⟩,
    ⟨{ (default : CchPkt) with space := true, tag := 65535, addr := 0x10F1FC0, len := 64, data := [] },
      (on.modLink 32 fun L => { L with st := .degraded, credits := ⟨300, 300, 300⟩, rxHeld := ⟨70, 70, 70⟩ }),
      by decide +kernel, by decide +kernel, by decide +kernel, by decide +kernel, by decide +kernel, by decide +kernel⟩,
    ⟨{ (default : CchPkt) with space := true, tag := 65535, addr := 0x10F1FC0, len := 64, data := List.replicate 64 7 },
      (on.modLink 32 fun L => { L with st := .degraded, credits := ⟨300, 300, 300⟩, rxHeld := ⟨70, 70, 70⟩ }),
      by decide +kernel, by decide +kernel, by decide +kernel, by decide +kernel, by decide +kernel, by decide +kernel,
      by decide +kernel, by decide +kernel⟩,
    ⟨{ (default : CchPkt) with space := true, tag := 65535, addr := 0x10F1FC0, len := 64, data := List.replicate 64 7, mask := 5 }, (on.modLink 32 fun L => { L with st := .degraded, credits := ⟨300, 300, 300⟩, rxHeld := ⟨70, 70, 70⟩ }), by decide +kernel, by decide +kernel, by decide +kernel, by decide +kernel, by decide +kernel, by decide +kernel, by decide +kernel, by decide +kernel, by decide +kernel⟩,
    ⟨{ (default : CchPkt) with space := true, tag := 65535, addr := 0, len := 64, data := [] },
      (on.modLink 32 fun L => { L with st := .degraded, credits := ⟨300, 300, 300⟩, rxHeld := ⟨70, 70, 70⟩ }),
      by decide +kernel, by decide +kernel, by decide +kernel, by decide +kernel, by decide +kernel, by decide +kernel⟩,
    ⟨{ (default : CchPkt) with space := true, tag := 65535, addr := 0xFFFFF, len := 1, data := [] },
      (on.modLink 32 fun L => { L with st := .degraded, credits := ⟨300, 300, 300⟩, rxHeld := ⟨70, 70, 70⟩ }),
      by decide +kernel, by decide +kernel, by decide +kernel, by decide +kernel, by decide +kernel⟩,
    ⟨{ (default : CchPkt) with space := true, tag := 65535, addr := 0x1FFFFFF, len := 1, data := [] },
      (on.modLink 32 fun L => { L with st := .degraded, credits := ⟨300, 300, 300⟩, rxHeld := ⟨70, 70, 70⟩ }),
      by decide +kernel, by decide +kernel, by decide +kernel⟩,
    ⟨{ (default : CchPkt) with space := true, tag := 65535, addr := 0xFFFC0, len := 64, data := List.replicate 64 7, mask := 0xF }, (on.modLink 32 fun L => { L with st := .degraded, credits := ⟨300, 300, 300⟩, rxHeld := ⟨70, 70, 70⟩ }), by decide +kernel, by decide +kernel, by decide +kernel, by decide +kernel, by decide +kernel, by decide +kernel, 0, 4, by decide +kernel, by decide +kernel, by decide +kernel⟩,
    ⟨{ (default : CchPkt) with space := true, tag := 65535, addr := 0x10F1FC0, len := 0, data := List.replicate 64 7 },
      { (on.modLink 32 fun L => { L with st := .degraded, credits := ⟨300, 300, 300⟩, rxHeld := ⟨70, 70, 70⟩ }) with couch := { on.couch with dir := on.couch.dir.set 0x43C7F 2 } }, by decide +kernel, by decide +kernel, by decide +kernel, by decide +kernel, by decide +kernel, by decide +kernel, by decide +kernel, by decide +kernel, by decide +kernel⟩⟩

/-- The hypotheses of CompanionAnswers, clause by clause, are met. -/
theorem test_companion_answers_met :
  (∃ (p : CchPkt) (s : State), p.fits = true ∧ (s.link 32).isUp = true) ∧
  (∃ (p : CchPkt) (s : State), p.fits = true ∧ (s.link 32).isUp = true) ∧
  (∃ (p : CchPkt) (s : State) (r : CchReq), p.fits = true ∧ (s.link 32).isUp = true ∧
    s.couch.reqs.find? (·.tag == p.tag) = some r ∧ ∃ (x : _) (c : _) (id : _) (lin : _) (n : _) (f : _),
    r.use = .dmv x c id lin n ∧ p.data.length = n ∧ flightOf s c id = some f ∧ 2 ≤ f.wait ∧ s.rbit Reg.cchCtrl 0 = false) ∧
  (∃ (p : CchPkt) (s : State) (r : CchReq), p.fits = true ∧ (s.link 32).isUp = true ∧
    s.couch.reqs.find? (·.tag == p.tag) = some r ∧ ∃ (page : _) (slot : _), r.use = .vatImport page slot) ∧
  (∃ (p : CchPkt) (s : State) (r : CchReq), p.fits = true ∧ (s.link 32).isUp = true ∧
    s.couch.reqs.find? (·.tag == p.tag) = some r ∧ ∃ (x : _) (c : _) (id : _) (f : _), r.use = .dmvWrite x c id ∧
    flightOf s c id = some f) ∧
  (∃ (p : CchPkt) (s : State) (r : CchReq), p.fits = true ∧ (s.link 32).isUp = true ∧
    s.couch.reqs.find? (·.tag == p.tag) = some r ∧ ∃ (m : _), r.use = .notify m) ∧
  (∃ (p : CchPkt) (s : State) (r : CchReq), p.fits = true ∧ (s.link 32).isUp = true ∧
    s.couch.reqs.find? (·.tag == p.tag) = some r ∧ ∃ (m : _), r.use = .notify m) ∧
  (∃ (p : CchPkt) (s : State) (r : CchReq), p.fits = true ∧ (s.link 32).isUp = true ∧
    s.couch.reqs.find? (·.tag == p.tag) = some r ∧ ∃ (x : _) (c : _) (id : _), r.use = .dmvWrite x c id ∧
    (s.core c).ctx = x ∧ (flightOf s c id).isSome = true) ∧
  (∃ (p : CchPkt) (s : State) (r : CchReq), p.fits = true ∧ (s.link 32).isUp = true ∧
    s.couch.reqs.find? (·.tag == p.tag) = some r ∧ ∃ (page : _), r.use = .vatExport page) ∧
  (∃ (p : CchPkt) (s : State) (n : Snoop), p.fits = true ∧ (s.link 32).isUp = true ∧
    s.couch.snoops.find? (·.tag == p.tag) = some n ∧
    let off := 64 * n.line
    (s.box (boxOf off)).covered = 0 ∧ (s.box (boxOf off)).outbox = [] ∧ isDoorbell (ctlView off) = false) ∧
  (∃ (l : Fin 1048576) (s : State) (n : _), s.couch.snoops.find? (fun n => n.line == l.val && !n.late) = some n) ∧
  (∃ (l : Fin 1048576) (s : State), s.couch.snoops.find? (fun n => n.line == l.val && !n.late) = none) :=
  ⟨⟨{ (default : CchPkt) with space := true, tag := 65535, addr := 4096, len := 0, data := [] },
    (on.modLink 32 fun L => { L with st := .degraded, credits := ⟨300, 300, 300⟩, rxHeld := ⟨70, 70, 70⟩ }),
    by decide +kernel, by decide +kernel⟩,
    ⟨{ (default : CchPkt) with space := true, tag := 65535, addr := 4096, len := 0, data := [] },
      { (on.modLink 32 fun L => { L with st := .degraded, credits := ⟨300, 300, 300⟩, rxHeld := ⟨70, 70, 70⟩ }) with couch := { on.couch with cache := [64] } }, by decide +kernel, by decide +kernel⟩,
    ⟨{ (default : CchPkt) with space := true, tag := 65535, addr := 0, len := 64, data := List.replicate 64 7 },
      { ((((runs 4095 0 on).modCore 4095 fun C => { C with inflight := [{ (default : InFlight) with eng := .dmv, id := 9, wait := 2, word := 0x40000000010000000000000000000041007ff80000000000000000100000000000000000000000000000000005, dsts := [(0, 71470402764800)], pending := true }] })).modLink 32 fun L => { L with st := .up }).rset Reg.cchCtrl 0 with couch := { on.couch with reqs := [{ (default : CchReq) with tag := 65535, use := .dmv 1 4095 9 0 64 }] } }, { (default : CchReq) with tag := 65535, use := .dmv 1 4095 9 0 64 }, by decide +kernel, by decide +kernel, by decide +kernel, 1, 4095, 9, 0, 64, { (default : InFlight) with eng := .dmv, id := 9, wait := 2, word := 0x40000000010000000000000000000041007ff80000000000000000100000000000000000000000000000000005, dsts := [(0, 71470402764800)], pending := true }, by decide +kernel, by decide +kernel, by decide +kernel, by decide +kernel, by decide +kernel⟩,
    ⟨{ (default : CchPkt) with space := true, tag := 65535, addr := 0, len := 64, data := List.replicate 64 7, poison := 1 }, { (on.modLink 32 fun L => { L with st := .degraded, credits := ⟨300, 300, 300⟩, rxHeld := ⟨70, 70, 70⟩ }) with couch := { on.couch with reqs := [{ (default : CchReq) with tag := 65535, use := .vatImport 7 3 }] } }, { (default : CchReq) with tag := 65535, use := .vatImport 7 3 }, by decide +kernel, by decide +kernel, by decide +kernel, 7, 3, by decide +kernel⟩,
    ⟨{ (default : CchPkt) with space := true, tag := 65535, addr := 0, len := 0, data := [] },
      { ((((runs 4095 0 on).modCore 4095 fun C => { C with inflight := [{ (default : InFlight) with eng := .dmv, id := 9, wait := 2, word := 0x40000000010000000000000000000041007ff80000000000000000100000000000000000000000000000000005, dsts := [(0, 71470402764800)], pending := true }] })).modLink 32 fun L => { L with st := .up }) with couch := { on.couch with reqs := [{ (default : CchReq) with tag := 65535, use := .dmvWrite 1 4095 9 }] } }, { (default : CchReq) with tag := 65535, use := .dmvWrite 1 4095 9 }, by decide +kernel, by decide +kernel, by decide +kernel, 1, 4095, 9, { (default : InFlight) with eng := .dmv, id := 9, wait := 2, word := 0x40000000010000000000000000000041007ff80000000000000000100000000000000000000000000000000005, dsts := [(0, 71470402764800)], pending := true }, by decide +kernel, by decide +kernel⟩,
    ⟨{ (default : CchPkt) with space := true, tag := 65535, addr := 0, len := 0, data := [] },
      { (on.modLink 32 fun L => { L with st := .degraded, credits := ⟨300, 300, 300⟩, rxHeld := ⟨70, 70, 70⟩ }) with couch := { on.couch with reqs := [{ (default : CchReq) with tag := 65535, use := .notify 255 }] } }, { (default : CchReq) with tag := 65535, use := .notify 255 }, by decide +kernel, by decide +kernel, by decide +kernel, 255, by decide +kernel⟩,
    ⟨{ (default : CchPkt) with space := true, tag := 65535, addr := 0, len := 0, data := [] },
      { (on.modLink 32 fun L => { L with st := .degraded, credits := ⟨300, 300, 300⟩, rxHeld := ⟨70, 70, 70⟩ }) with couch := { on.couch with reqs := [{ (default : CchReq) with tag := 65535, use := .notify 255 }] } }, { (default : CchReq) with tag := 65535, use := .notify 255 }, by decide +kernel, by decide +kernel, by decide +kernel, 255, by decide +kernel⟩,
    ⟨{ (default : CchPkt) with space := true, tag := 65535, addr := 0, len := 0, data := [] },
      { ((((runs 4095 0 on).modCore 4095 fun C => { C with inflight := [{ (default : InFlight) with eng := .dmv, id := 9, wait := 2, word := 0x40000000010000000000000000000041007ff80000000000000000100000000000000000000000000000000005, dsts := [(0, 71470402764800)], pending := true }] })).modLink 32 fun L => { L with st := .up }) with couch := { on.couch with reqs := [{ (default : CchReq) with tag := 65535, use := .dmvWrite 1 4095 9 }] } }, { (default : CchReq) with tag := 65535, use := .dmvWrite 1 4095 9 }, by decide +kernel, by decide +kernel, by decide +kernel, 1, 4095, 9, by decide +kernel, by decide +kernel, by decide +kernel⟩,
    ⟨{ (default : CchPkt) with space := true, tag := 65535, addr := 0, len := 0, data := [] },
      { (on.modLink 32 fun L => { L with st := .degraded, credits := ⟨300, 300, 300⟩, rxHeld := ⟨70, 70, 70⟩ }) with couch := { on.couch with reqs := [{ (default : CchReq) with tag := 65535, use := .vatExport 7 }] } }, { (default : CchReq) with tag := 65535, use := .vatExport 7 }, by decide +kernel, by decide +kernel, by decide +kernel, 7, by decide +kernel⟩,
    ⟨{ (default : CchPkt) with space := true, tag := 65535, addr := 0, len := 0, data := List.replicate 64 7, keepS := true }, { (on.modLink 32 fun L => { L with st := .degraded, credits := ⟨300, 300, 300⟩, rxHeld := ⟨70, 70, 70⟩ }) with couch := { on.couch with snoops := [{ (default : Snoop) with tag := 65535, line := 0x43C7F }] } }, { (default : Snoop) with tag := 65535, line := 0x43C7F }, by decide +kernel, by decide +kernel, by decide +kernel, by decide +kernel, by decide +kernel, by decide +kernel⟩,
    ⟨0x43C7F, { (on.modLink 32 fun L => { L with st := .degraded, credits := ⟨300, 300, 300⟩, rxHeld := ⟨70, 70, 70⟩ }) with couch := { on.couch with snoops := [{ (default : Snoop) with tag := 65535, line := 0x43C7F }] } }, { (default : Snoop) with tag := 65535, line := 0x43C7F }, by decide +kernel⟩,
    ⟨1048575, on, by decide +kernel⟩⟩

/-- The hypotheses of MemoryForm, clause by clause, are met. -/
theorem test_memory_form_met :
  ∃ (s : State) (t : State), s.memWf = true ∧ step s = .next t :=
  ⟨waiting, answered, by decide +kernel, by rfl⟩

/-- The hypotheses of ResetForm, clause by clause, are met. -/
theorem test_reset_form_met :
  (∃ (q : _), q < 128) ∧
  (∃ (n : _), n < 32) :=
  ⟨⟨127, by decide +kernel⟩,
    ⟨31, by decide +kernel⟩⟩

/-- The hypotheses of FusesStand, clause by clause, are met. -/
theorem test_fuses_stand_met :
  (∃ (s : State) (t : State), step s = .next t ∧ ∃ (k : _), s.nv.fwRevoked.getLsbD k = true) ∧
  (∃ (s : State) (t : State), step s = .next t ∧ ∃ (k : _), s.nv.ownerRevoked.getLsbD k = true) ∧
  (∃ (s : State) (t : State), step s = .next t) :=
  ⟨⟨waiting, answered, by rfl, 0, by decide +kernel⟩,
    ⟨waiting, answered, by rfl, 0, by decide +kernel⟩,
    ⟨waiting, answered, by rfl⟩⟩

end Sys2Proof.Tests
end

/-! SUPPORT. Deliveries into scratchpads (R54, R148, R184). Every operation on a scratchpad is described once, by
`SpdWrites`: the parts that it lays over what the scratchpad read as, and that nothing else of the block changes. A
flush lays no parts, a write lays its bytes, and a fold lays the parts of its steps; what a delivery does follows from
its rows. -/
namespace Sys2Proof.Machine

/-! Bytes of lines and of gather entries (R151, R154) -/

theorem testBit_leNat (bs : List Byte) : ∀ i b, b < 8 → (leNat bs).testBit (8 * i + b) = (bs.getD i 0).getLsbD b := by
  induction bs with
  | nil => intro i b _; simp [leNat]
  | cons x r ih =>
    intro i b hb
    rw [leNat, Nat.add_comm, show (256 : Nat) = 2 ^ 8 from rfl, Nat.testBit_two_pow_mul_add _ x.isLt]
    cases i with
    | zero => simp [hb, BitVec.getLsbD]
    | succ k => rw [if_neg (by omega), show 8 * (k + 1) + b - 8 = 8 * k + b by omega, ih k b hb]; simp

/-- A byte field is known by its bits. -/
theorem ofNat_fld_eq_iff (v j : Nat) (x : Byte) :
    BitVec.ofNat 8 (fld v (8 * j) 8) = x ↔ ∀ b, b < 8 → v.testBit (8 * j + b) = x.getLsbD b := by
  have bits : ∀ b, b < 8 → (BitVec.ofNat 8 (fld v (8 * j) 8)).getLsbD b = v.testBit (8 * j + b) := by
    intro b hb
    rw [fld, BitVec.getLsbD_ofNat, Nat.testBit_mod_two_pow, Nat.testBit_div_two_pow, Nat.add_comm b]
    simp [hb]
  constructor
  · rintro rfl b hb
    exact (bits b hb).symm
  · intro h
    exact BitVec.eq_of_getLsbD_eq fun b hb => (bits b hb).trans (h b hb)

theorem placeBytes_mask {j : Nat} (off : Nat) (bs : List Byte) (hj : j < 64) :
    (placeBytes off bs).1.getLsbD j = decide (off % 64 ≤ j ∧ j < off % 64 + bs.length) := by
  simp only [placeBytes, BitVec.getLsbD_ofNat, hj, decide_true, Bool.true_and, Nat.testBit_mul_two_pow,
    Nat.testBit_two_pow_sub_one]
  by_cases h : off % 64 ≤ j
  · simp [h]; omega
  · simp [h]

theorem placeBytes_bit {off j b : Nat} (bs : List Byte) (hj : j < 64) (hb : b < 8) (h : off % 64 ≤ j) :
    (placeBytes off bs).2.getLsbD (8 * j + b) = (bs.getD (j - off % 64) 0).getLsbD b := by
  have e : 8 * j + b - 8 * (off % 64) = 8 * (j - off % 64) + b := by omega
  simp only [placeBytes, BitVec.getLsbD_ofNat, Nat.testBit_mul_two_pow, e, testBit_leNat bs _ b hb]
  simp [show 8 * j + b < 512 by omega, show 8 * (off % 64) ≤ 8 * j + b by omega]

theorem placeBytes_bit_out {off j b : Nat} {bs : List Byte} (hb : b < 8)
    (h : ¬(off % 64 ≤ j ∧ j < off % 64 + bs.length)) : (placeBytes off bs).2.getLsbD (8 * j + b) = false := by
  simp only [placeBytes, BitVec.getLsbD_ofNat, Nat.testBit_mul_two_pow]
  by_cases h1 : off % 64 ≤ j
  · have e : 8 * j + b - 8 * (off % 64) = 8 * (j - off % 64) + b := by omega
    simp [e, testBit_leNat bs _ b hb, List.getElem?_eq_none (show bs.length ≤ j - off % 64 by omega)]
  · simp [show ¬ 8 * (off % 64) ≤ 8 * j + b by omega]

/-- The bits of a line that a merge replaces are those of the bytes written. -/
theorem mergedBits_bit {j b : Nat} (k n : Nat) (hj : j < 64) (hb : b < 8) :
    (BitVec.ofNat 512 ((2 ^ (8 * n) - 1) * 2 ^ (8 * k))).getLsbD (8 * j + b) = decide (k ≤ j ∧ j < k + n) := by
  rw [BitVec.getLsbD_ofNat, Nat.testBit_mul_two_pow, Nat.testBit_two_pow_sub_one, Bool.eq_iff_iff]
  simp only [Bool.and_eq_true, decide_eq_true_eq]
  omega

/-- The byte at index `j` of a line that a gather entry covers, over the byte in the bank. -/
def entryByte (e : GatherEnt) (j : Nat) (old : Byte) : Byte :=
  if e.mask.getLsbD j then BitVec.ofNat 8 (fld e.data.toNat (8 * j) 8) else old

/-- The entry that a narrow write opens. -/
def freshEntry (off : Nat) (bs : List Byte) (poison desc : Nat) : GatherEnt :=
  { line := Fin.ofNat 6144 (off / 64), mask := (placeBytes off bs).1, data := (placeBytes off bs).2, desc := desc,
    bad := poison }

/-- An entry once a narrow write has been merged into it. -/
def mergedEntry (e : GatherEnt) (off : Nat) (bs : List Byte) (poison desc : Nat) : GatherEnt :=
  { e with
    mask := e.mask ||| (placeBytes off bs).1
    data := (e.data &&& ~~~(BitVec.ofNat 512 ((2 ^ (8 * bs.length) - 1) * 2 ^ (8 * (off % 64))))) |||
      (placeBytes off bs).2
    desc := desc
    bad := if poison ≠ 0 then poison else e.bad }

theorem entryByte_freshEntry {j : Nat} (off : Nat) (bs : List Byte) (poison desc : Nat) (old : Byte) (hj : j < 64) :
    entryByte (freshEntry off bs poison desc) j old =
      if off % 64 ≤ j ∧ j < off % 64 + bs.length then bs.getD (j - off % 64) 0 else old := by
  simp only [entryByte, freshEntry, placeBytes_mask off bs hj, decide_eq_true_eq]
  split
  next h => exact (ofNat_fld_eq_iff _ _ _).mpr fun b hb => placeBytes_bit bs hj hb h.1
  next => rfl

theorem entryByte_mergedEntry {j : Nat} (e : GatherEnt) (off : Nat) (bs : List Byte) (poison desc : Nat) (old : Byte)
    (hj : j < 64) :
    entryByte (mergedEntry e off bs poison desc) j old =
      if off % 64 ≤ j ∧ j < off % 64 + bs.length then bs.getD (j - off % 64) 0 else entryByte e j old := by
  simp only [entryByte, mergedEntry, BitVec.getLsbD_or, placeBytes_mask off bs hj, Bool.or_eq_true, decide_eq_true_eq]
  by_cases h : off % 64 ≤ j ∧ j < off % 64 + bs.length
  · simp only [h, or_true, and_self, if_true]
    refine (ofNat_fld_eq_iff _ _ _).mpr fun b hb => ?_
    rw [BitVec.testBit_toNat, BitVec.getLsbD_or, BitVec.getLsbD_and, BitVec.getLsbD_not, mergedBits_bit _ _ hj hb,
      placeBytes_bit bs hj hb h.1]
    simp [h]
  · simp only [h, or_false, if_false]
    split
    next =>
      refine (ofNat_fld_eq_iff _ _ _).mpr fun b hb => ?_
      rw [← (ofNat_fld_eq_iff _ _ _).mp rfl b hb, BitVec.testBit_toNat, BitVec.testBit_toNat, BitVec.getLsbD_or,
        BitVec.getLsbD_and, BitVec.getLsbD_not, mergedBits_bit _ _ hj hb, placeBytes_bit_out hb h]
      simp [h, show 8 * j + b < 512 by omega]
    next => rfl

/-! What a write to a scratchpad changes and what it leaves alone -/

/-- Between two states only memory, poison, tags and cores differ. -/
def OnlyStores (s t : State) : Prop :=
  ∃ m p r cs, t = { s with mem := m, poison := p, rect := r, cores := cs }

theorem OnlyStores.refl (s : State) : OnlyStores s s := ⟨_, _, _, _, rfl⟩

theorem OnlyStores.trans {s t u : State} (h : OnlyStores s t) (k : OnlyStores t u) : OnlyStores s u := by
  obtain ⟨_, _, _, _, rfl⟩ := h
  obtain ⟨_, _, _, _, rfl⟩ := k
  exact ⟨_, _, _, _, rfl⟩

theorem OnlyStores.sameDevice {s t : State} (h : OnlyStores s t) : SameDevice s t := by
  obtain ⟨_, _, _, _, rfl⟩ := h
  exact ⟨rfl, rfl, rfl, rfl, rfl, rfl, rfl⟩

theorem OnlyStores.roll {s t : State} (h : OnlyStores s t) : t.roll = s.roll := by
  obtain ⟨_, _, _, _, rfl⟩ := h; rfl

theorem OnlyStores.quires {s t : State} (h : OnlyStores s t) : t.quires = s.quires := by
  obtain ⟨_, _, _, _, rfl⟩ := h; rfl

theorem onlyStores_modCore (s : State) (c : Nat) (f : Core → Core) : OnlyStores s (s.modCore c f) := ⟨_, _, _, _, rfl⟩

/-- The scratchpad of core `c` takes `parts`, one after another; of the core itself only the gather buffer changes, and
of the block nothing else. -/
structure SpdWrites (c : Nat) (parts : List (Nat × List Byte)) (s t : State) : Prop where
  only : OnlyStores s t
  others : ∀ x, x ≠ c → t.core x = s.core x
  own : ∃ g, t.core c = { s.core c with gather := g }
  wrote : Wrote s t c parts

theorem overlay_append (p q : List (Nat × List Byte)) (old : Nat → Byte) (off : Nat) :
    overlay (p ++ q) old off = overlay q (overlay p old) off := by simp [overlay]

theorem SpdWrites.refl (c : Nat) (s : State) : SpdWrites c [] s s :=
  ⟨.refl s, fun _ _ => rfl, ⟨_, rfl⟩, fun _ _ => rfl, fun _ _ => rfl⟩

theorem SpdWrites.append {c : Nat} {p q : List (Nat × List Byte)} {s t u : State} (h : SpdWrites c p s t)
    (k : SpdWrites c q t u) : SpdWrites c (p ++ q) s u where
  only := h.only.trans k.only
  others x hx := (k.others x hx).trans (h.others x hx)
  own := by
    obtain ⟨g, hg⟩ := h.own
    obtain ⟨g', hg'⟩ := k.own
    exact ⟨g', by rw [hg', hg]⟩
  wrote := by
    obtain ⟨hb, hm⟩ := h.wrote
    obtain ⟨kb, km⟩ := k.wrote
    refine ⟨fun off ho => ?_, fun a ha => (km a ha).trans (hm a ha)⟩
    rw [overlay_append, kb off ho, overlay, overlay, hb off ho]

/-- A fold of writes writes the parts of all its steps. -/
theorem SpdWrites.foldl {β : Type} {c : Nat} (f : State → β → State) (parts : β → List (Nat × List Byte)) :
    ∀ (l : List β) (s : State), (∀ t b, b ∈ l → SpdWrites c (parts b) t (f t b)) →
      SpdWrites c (l.flatMap parts) s (l.foldl f s)
  | [], s, _ => .refl c s
  | b :: r, s, h => (h s b (by simp)).append (SpdWrites.foldl f parts r (f s b) fun t x hx => h t x (by simp [hx]))

/-- Parts that lay the same bytes may stand for one another. -/
theorem SpdWrites.congr {c : Nat} {p q : List (Nat × List Byte)} {s t : State} (h : SpdWrites c p s t)
    (hpq : ∀ old off, overlay p old off = overlay q old off) : SpdWrites c q s t :=
  { h with wrote := ⟨fun off ho => (h.wrote.1 off ho).trans (hpq _ _), h.wrote.2⟩ }

/-- A change of the gather buffer and of bytes of the scratchpad. -/
theorem SpdWrites.of_gather {c : Nat} {parts : List (Nat × List Byte)} {s t : State}
    (f : List GatherEnt → List GatherEnt) (ho : OnlyStores s t)
    (hc : t.cores = (s.modCore c fun x => { x with gather := f x.gather }).cores)
    (hw : Wrote s t c parts) : SpdWrites c parts s t := by
  have core (x : Nat) : t.core x = (s.modCore c fun x => { x with gather := f x.gather }).core x := by
    rw [State.core, hc, ← State.core]
  exact ⟨ho, fun x hx => by rw [core, State.modCore_core_ne _ _ _ hx], ⟨_, by rw [core, State.modCore_core_same]⟩, hw⟩

/-! Bytes as a read returns them -/

theorem spdByte_of_none {s : State} {c x : Nat} (h : gatherAt s c (x / 64) = none) :
    spdByte s c x = s.mem.get (spdAddr c x) := by
  simp [spdByte, h]

theorem spdByte_of_some {s : State} {c x : Nat} {e : GatherEnt} (h : gatherAt s c (x / 64) = some e) :
    spdByte s c x = entryByte e (x % 64) (s.mem.get (spdAddr c x)) := by
  simp [spdByte, h, entryByte]

/-- A byte reads the same when its line's gather entry and its byte in the bank are the same. -/
theorem spdByte_congr {s t : State} {c x : Nat} (hg : gatherAt t c (x / 64) = gatherAt s c (x / 64))
    (hm : t.mem.get (spdAddr c x) = s.mem.get (spdAddr c x)) : spdByte t c x = spdByte s c x := by
  simp [spdByte, hg, hm]

theorem gatherAt_line {s : State} {c line : Nat} {e : GatherEnt} (h : gatherAt s c line = some e) :
    e.line.val = line := by
  simpa using List.find?_some h

theorem gatherAt_filter_same (s : State) (c line : Nat) :
    ((s.core c).gather.filter (·.line.val != line)).find? (·.line.val == line) = none := by
  simp

theorem gatherAt_filter_ne (s : State) (c : Nat) {line k : Nat} (h : k ≠ line) :
    ((s.core c).gather.filter (·.line.val != line)).find? (·.line.val == k) = gatherAt s c k := by
  rw [List.find?_filter, gatherAt]
  refine congrArg (List.find? · _) (funext fun e => ?_)
  rw [Bool.eq_iff_iff]
  simp only [bne_iff_ne, beq_iff_eq, decide_eq_true_eq]
  omega

/-! Flushes of the gather buffer (R152, R153) -/

/-- The bank's bytes of a line with a gather entry's bytes over them. -/
theorem mergeLine_getD {old : List Byte} {j : Nat} (e : GatherEnt) (hj : j < 64) :
    (mergeLine old e.mask e.data).getD j 0 = entryByte e j (old.getD j 0) := by
  simp [mergeLine, entryByte, hj]

@[simp] theorem mergeLine_length (old : List Byte) (m : BitVec 64) (d : Line) : (mergeLine old m d).length = 64 := by
  simp [mergeLine]

section
variable {s : State} {c line : Nat} {e : GatherEnt} (h : gatherAt s c line = some e)
include h

theorem gatherFlush_mem : (gatherFlush s c line false).mem =
    (s.wr (spdAddr c (64 * line)) (mergeLine (s.rd (spdAddr c (64 * line)) 64) e.mask e.data)).mem := by
  simp only [gatherFlush, h, Bool.false_and, Bool.false_eq_true, if_false]
  split
  · rfl
  split <;> rfl

theorem gatherFlush_cores : (gatherFlush s c line false).cores =
    (s.modCore c fun x => { x with gather := x.gather.filter (·.line.val != line) }).cores := by
  simp only [gatherFlush, h, Bool.false_and, Bool.false_eq_true, if_false]
  split
  · rfl
  split <;> rfl

theorem gatherFlush_gather :
    ((gatherFlush s c line false).core c).gather = (s.core c).gather.filter (·.line.val != line) := by
  rw [State.core, gatherFlush_cores h, ← State.core, State.modCore_core_same]

theorem gatherFlush_onlyStores : OnlyStores s (gatherFlush s c line false) := by
  simp only [gatherFlush, h, Bool.false_and, Bool.false_eq_true, if_false]
  split
  · exact ⟨_, _, _, _, rfl⟩
  split
  · exact ⟨_, _, _, _, rfl⟩
  · exact ⟨_, _, _, _, rfl⟩

end

/-- A flush moves bytes from the gather buffer to their bank: no read sees it. -/
theorem gatherFlush_writes (s : State) (c line : Nat) : SpdWrites c [] s (gatherFlush s c line false) := by
  cases h : gatherAt s c line with
  | none => simpa [gatherFlush, h] using SpdWrites.refl c s
  | some e =>
    have hline : line < 6144 := gatherAt_line h ▸ e.line.isLt
    have mem_out (a : Nat) (ha : a < spdAddr c (64 * line) ∨ spdAddr c (64 * line) + 64 ≤ a) :
        (gatherFlush s c line false).mem.get a = s.mem.get a := by
      rw [gatherFlush_mem h, State.wr_get_out _ _ _ (by simpa using ha)]
    refine .of_gather (·.filter (·.line.val != line)) (gatherFlush_onlyStores h) (gatherFlush_cores h)
      ⟨fun x hx => ?_, fun a ha => mem_out a ?_⟩
    · show _ = spdByte s c x
      by_cases hl : x / 64 = line
      · have gone : gatherAt (gatherFlush s c line false) c (x / 64) = none := by
          rw [gatherAt, gatherFlush_gather h, hl, gatherAt_filter_same]
        have ea : spdAddr c x = spdAddr c (64 * line) + x % 64 := by unfold spdAddr; omega
        have hx64 : x % 64 < 64 := Nat.mod_lt _ (by omega)
        rw [spdByte_of_none gone, spdByte_of_some (hl ▸ h), gatherFlush_mem h, ea,
          State.wr_get_in _ _ _ (by simpa using hx64), mergeLine_getD e hx64]
        simp [State.rd, hx64]
      · refine spdByte_congr ?_ (mem_out _ ?_)
        · rw [gatherAt, gatherFlush_gather h, gatherAt_filter_ne s c hl]
        · unfold spdAddr; omega
    · unfold spdAddr at *; omega

theorem flushWhere_writes (s : State) (c : Nat) (p : GatherEnt → Bool) : SpdWrites c [] s (flushWhere s c p) := by
  have h := SpdWrites.foldl (fun s (e : GatherEnt) => gatherFlush s c e.line.val false) (fun _ => [])
    ((s.core c).gather.filter p) s fun t e _ => gatherFlush_writes t c e.line.val
  rwa [List.flatMap_eq_nil_iff.mpr fun _ _ => rfl] at h

/-! Writes to a scratchpad (R151, R152) -/

@[simp] theorem overlay_nil (old : Nat → Byte) (x : Nat) : overlay [] old x = old x := rfl

theorem overlay_singleton (off : Nat) (bs : List Byte) (old : Nat → Byte) (x : Nat) :
    overlay [(off, bs)] old x = if off ≤ x ∧ x < off + bs.length then bs.getD (x - off) 0 else old x := rfl

/-- Within a line, a part lies over its bytes as it lies over the line's indices. -/
theorem overlay_in_line {off x : Nat} (bs : List Byte) (old : Nat → Byte) (h : x / 64 = off / 64) :
    overlay [(off, bs)] old x =
      if off % 64 ≤ x % 64 ∧ x % 64 < off % 64 + bs.length then bs.getD (x % 64 - off % 64) 0 else old x := by
  rw [overlay_singleton, show x % 64 - off % 64 = x - off by omega]
  exact ite_congr (propext (by omega)) (fun _ => rfl) fun _ => rfl

/-- A part that stays in its line leaves the other lines alone. -/
theorem overlay_other_line {off x : Nat} {bs : List Byte} (old : Nat → Byte) (hl : off % 64 + bs.length ≤ 64)
    (h : x / 64 ≠ off / 64) : overlay [(off, bs)] old x = old x := by
  rw [overlay_singleton, if_neg (by omega)]

/-- An entry with all 64 bytes valid is flushed. -/
def flushFull (s : State) (c line : Nat) : State :=
  match gatherAt s c line with
  | some e => if e.mask = BitVec.allOnes 64 then gatherFlush s c line false else s
  | none => s

/-- The oldest of eight entries is flushed. -/
def evictOldest (s : State) (c : Nat) : State :=
  match (s.core c).gather with
  | o :: _ => if (s.core c).gather.length = 8 then gatherFlush s c o.line.val false else s
  | [] => s

/-- The gather buffer with a narrow write merged into the entries of its line. -/
def mergeInto (off : Nat) (bs : List Byte) (poison desc : Nat) (l : List GatherEnt) : List GatherEnt :=
  l.map fun e => if e.line.val = off / 64 then mergedEntry e off bs poison desc else e

theorem narrowWrite_merge {s : State} {c off : Nat} {e : GatherEnt} (h : gatherAt s c (off / 64) = some e)
    (bs : List Byte) (poison desc : Nat) : narrowWrite s c off bs poison desc =
      flushFull (s.modCore c fun x => { x with gather := mergeInto off bs poison desc x.gather }) c (off / 64) := by
  unfold narrowWrite
  simp only [h]
  rfl

theorem narrowWrite_open {s : State} {c off : Nat} (h : gatherAt s c (off / 64) = none)
    (bs : List Byte) (poison desc : Nat) : narrowWrite s c off bs poison desc =
      flushFull ((evictOldest s c).modCore c fun x =>
        { x with gather := x.gather ++ [freshEntry off bs poison desc] }) c (off / 64) := by
  unfold narrowWrite
  simp only [h]
  rfl

theorem flushFull_writes (s : State) (c line : Nat) : SpdWrites c [] s (flushFull s c line) := by
  unfold flushFull
  split
  · split
    · exact gatherFlush_writes s c line
    · exact .refl c s
  · exact .refl c s

theorem evictOldest_writes (s : State) (c : Nat) : SpdWrites c [] s (evictOldest s c) := by
  unfold evictOldest
  split
  · split
    · exact gatherFlush_writes s c _
    · exact .refl c s
  · exact .refl c s

theorem gatherAt_gatherFlush_none {s : State} {c k : Nat} (line : Nat) (h : gatherAt s c k = none) :
    gatherAt (gatherFlush s c line false) c k = none := by
  cases hl : gatherAt s c line with
  | none => simpa [gatherFlush, hl] using h
  | some e =>
    rw [gatherAt, gatherFlush_gather hl, List.find?_eq_none]
    exact fun g hg => List.find?_eq_none.mp h g (List.mem_filter.mp hg).1

theorem gatherAt_evictOldest_none {s : State} {c k : Nat} (h : gatherAt s c k = none) :
    gatherAt (evictOldest s c) c k = none := by
  unfold evictOldest
  split
  · split
    · exact gatherAt_gatherFlush_none _ h
    · exact h
  · exact h

theorem find?_mergeInto (off : Nat) (bs : List Byte) (poison desc k : Nat) (l : List GatherEnt) :
    (mergeInto off bs poison desc l).find? (·.line.val == k) =
      (l.find? (·.line.val == k)).map fun e =>
        if e.line.val = off / 64 then mergedEntry e off bs poison desc else e := by
  rw [mergeInto, List.find?_map]
  refine congrArg (Option.map _) (congrArg (List.find? · l) (funext fun e => ?_))
  simp only [Function.comp]
  split <;> rfl

section
variable {off : Nat} {bs : List Byte} (hl : off % 64 + bs.length ≤ 64)
include hl

/-- A merge into the line's entry lays the bytes over what the line reads as. -/
theorem mergeInto_writes {s : State} {c : Nat} {e : GatherEnt} (h : gatherAt s c (off / 64) = some e)
    (poison desc : Nat) : SpdWrites c [(off, bs)] s
      (s.modCore c fun x => { x with gather := mergeInto off bs poison desc x.gather }) := by
  refine .of_gather (mergeInto off bs poison desc) (onlyStores_modCore _ _ _) rfl ⟨fun x _ => ?_, fun _ _ => rfl⟩
  have found (k : Nat) := find?_mergeInto off bs poison desc k (s.core c).gather
  by_cases hx : x / 64 = off / 64
  · have old : spdByte s c x = entryByte e (x % 64) (s.mem.get (spdAddr c x)) := spdByte_of_some (hx ▸ h)
    rw [overlay_in_line bs _ hx, old, ← entryByte_mergedEntry e off bs poison desc _ (Nat.mod_lt _ (by omega))]
    apply spdByte_of_some
    rw [gatherAt, State.modCore_core_same, found, hx, ← gatherAt, h, Option.map_some, if_pos (gatherAt_line h)]
  · rw [overlay_other_line _ hl hx]
    refine spdByte_congr ?_ rfl
    rw [gatherAt, State.modCore_core_same, found, ← gatherAt]
    cases hg : gatherAt s c (x / 64) with
    | none => rfl
    | some g => rw [Option.map_some, if_neg (by rw [gatherAt_line hg]; exact hx)]

/-- A new entry lays the bytes over what the bank holds. -/
theorem freshEntry_writes {s : State} {c : Nat} (h : gatherAt s c (off / 64) = none) (ho : off < 0x60000)
    (poison desc : Nat) : SpdWrites c [(off, bs)] s
      (s.modCore c fun x => { x with gather := x.gather ++ [freshEntry off bs poison desc] }) := by
  refine .of_gather (· ++ [freshEntry off bs poison desc]) (onlyStores_modCore _ _ _) rfl
    ⟨fun x _ => ?_, fun _ _ => rfl⟩
  have line : (freshEntry off bs poison desc).line.val = off / 64 := Nat.mod_eq_of_lt (by omega)
  by_cases hx : x / 64 = off / 64
  · have old : spdByte s c x = s.mem.get (spdAddr c x) := spdByte_of_none (hx ▸ h)
    rw [overlay_in_line bs _ hx, old, ← entryByte_freshEntry off bs poison desc _ (Nat.mod_lt _ (by omega))]
    apply spdByte_of_some
    rw [gatherAt, State.modCore_core_same, List.find?_append, ← gatherAt, hx, h]
    simp [line]
  · rw [overlay_other_line _ hl hx]
    refine spdByte_congr ?_ rfl
    rw [gatherAt, State.modCore_core_same, List.find?_append, ← gatherAt]
    simp [line, Ne.symm hx]

theorem narrowWrite_writes (s : State) (c : Nat) (ho : off < 0x60000) (poison desc : Nat) :
    SpdWrites c [(off, bs)] s (narrowWrite s c off bs poison desc) := by
  cases h : gatherAt s c (off / 64) with
  | some e =>
    rw [narrowWrite_merge h]
    exact (mergeInto_writes hl h poison desc).append (flushFull_writes _ c _)
  | none =>
    rw [narrowWrite_open h]
    exact (evictOldest_writes s c).append
      ((freshEntry_writes hl (gatherAt_evictOldest_none h) ho poison desc).append (flushFull_writes _ c _))

end

theorem lineWrite_writes {c off : Nat} {bs : List Byte} (s : State) (hl : bs.length = 64) (ha : off % 64 = 0)
    (ho : off + 64 ≤ 0x60000) (poison : Nat) (hint : Bool) :
    SpdWrites c [(off, bs)] s (lineWrite s c off bs poison hint) := by
  have mem : (lineWrite s c off bs poison hint).mem = (s.wr (spdAddr c off) bs).mem := rfl
  have core : ((lineWrite s c off bs poison hint).core c).gather =
      (s.core c).gather.filter (·.line.val != off / 64) := by
    show ((State.modCore _ c _).core c).gather = _
    rw [State.modCore_core_same]
    rfl
  refine .of_gather (·.filter (·.line.val != off / 64)) ⟨_, _, _, _, rfl⟩ rfl ⟨fun x hx => ?_, fun a h => ?_⟩
  · rw [overlay_singleton]
    by_cases h : x / 64 = off / 64
    · have gone : gatherAt (lineWrite s c off bs poison hint) c (x / 64) = none := by
        rw [gatherAt, core, h, gatherAt_filter_same]
      have ea : spdAddr c x = spdAddr c off + (x - off) := by unfold spdAddr; omega
      rw [if_pos (by omega), spdByte_of_none gone, mem, ea, State.wr_get_in _ _ _ (by omega)]
    · rw [if_neg (by omega)]
      refine spdByte_congr ?_ ?_
      · rw [gatherAt, core, gatherAt_filter_ne s c h]
      · rw [mem, State.wr_get_out]
        unfold spdAddr; omega
  · rw [mem, State.wr_get_out]
    unfold spdAddr at *; omega

/-- Two parts that follow one another are one. -/
theorem overlay_split (off : Nat) (as bs : List Byte) (old : Nat → Byte) (x : Nat) :
    overlay [(off, as), (off + as.length, bs)] old x = overlay [(off, as ++ bs)] old x := by
  rw [show [(off, as), (off + as.length, bs)] = [(off, as)] ++ [(off + as.length, bs)] from rfl, overlay_append]
  simp only [overlay_singleton, List.length_append, List.getD_eq_getElem?_getD]
  by_cases h1 : off + as.length ≤ x
  · rw [List.getElem?_append_right (by omega)]
    by_cases h2 : x < off + as.length + bs.length
    · rw [if_pos ⟨h1, h2⟩, if_pos (by omega), show x - (off + as.length) = x - off - as.length by omega]
    · rw [if_neg (by omega), if_neg (by omega), if_neg (by omega)]
  · rw [if_neg (by omega)]
    by_cases h2 : off ≤ x
    · rw [if_pos (by omega), if_pos (by omega), List.getElem?_append_left (by omega)]
    · rw [if_neg (by omega), if_neg (by omega)]

/-- A part without bytes lays nothing. -/
theorem SpdWrites.empty_part (c off : Nat) (s : State) : SpdWrites c [(off, [])] s s :=
  (SpdWrites.refl c s).congr fun old x => by rw [overlay_nil, overlay_singleton, if_neg (by simp)]

/-- One step of a write: a whole line to its bank, less to the gather buffer. -/
def writePart (s : State) (c off : Nat) (part : List Byte) (poison : Nat) (hint : Bool) (desc : Nat) : State :=
  if part.length = 64 then lineWrite s c off part poison hint
  else
    let s0 := narrowWrite s c off part poison desc
    if hint then s0 else { s0 with rect := s0.rect.set (spdAddr c off / 64) false }

theorem spdWriteN_succ (n : Nat) (s : State) (c off : Nat) {bs : List Byte} (poison : Nat) (hint : Bool) (desc : Nat)
    (h : bs ≠ []) : spdWriteN (n + 1) s c off bs poison hint desc =
      spdWriteN n (writePart s c off (bs.take (64 - off % 64)) poison hint desc) c
        (off + (bs.take (64 - off % 64)).length) (bs.drop (64 - off % 64)) poison hint desc := by
  rw [spdWriteN, if_neg (by simpa using h)]
  rfl

theorem spdWriteN_nil (n : Nat) (s : State) (c off poison : Nat) (hint : Bool) (desc : Nat) :
    spdWriteN n s c off [] poison hint desc = s := by
  cases n <;> rfl

theorem writePart_writes {off : Nat} {part : List Byte} (s : State) (c : Nat) (hl : off % 64 + part.length ≤ 64)
    (hp : part ≠ []) (ho : off + part.length ≤ 0x60000) (poison : Nat) (hint : Bool) (desc : Nat) :
    SpdWrites c [(off, part)] s (writePart s c off part poison hint desc) := by
  have pos : 0 < part.length := List.length_pos_iff.mpr hp
  unfold writePart
  split
  next h => exact lineWrite_writes s h (by omega) (by omega) poison hint
  next =>
    have h := narrowWrite_writes hl s c (by omega) poison desc
    cases hint with
    | true => exact h
    | false => exact ⟨h.only.trans ⟨_, _, _, _, rfl⟩, h.others, h.own, h.wrote⟩

theorem spdWriteN_writes (c poison : Nat) (hint : Bool) (desc : Nat) :
    ∀ (n : Nat) (s : State) (off : Nat) (bs : List Byte), off % 64 + bs.length ≤ 64 * n → off + bs.length ≤ 0x60000 →
    SpdWrites c [(off, bs)] s (spdWriteN n s c off bs poison hint desc) := by
  intro n
  induction n with
  | zero =>
    intro s off bs hn _
    obtain rfl : bs = [] := List.eq_nil_of_length_eq_zero (by omega)
    exact .empty_part c off s
  | succ n ih =>
    intro s off bs hn ho
    by_cases hb : bs = []
    · subst hb
      exact .empty_part c off s
    have pos : 0 < bs.length := List.length_pos_iff.mpr hb
    have lt : (bs.take (64 - off % 64)).length = min (64 - off % 64) bs.length := List.length_take
    have ld : (bs.drop (64 - off % 64)).length = bs.length - (64 - off % 64) := List.length_drop
    have first := writePart_writes (off := off) (part := bs.take (64 - off % 64)) s c (by omega)
      (List.ne_nil_of_length_pos (by omega)) (by omega) poison hint desc
    have rest (t : State) : SpdWrites c [(off + (bs.take (64 - off % 64)).length, bs.drop (64 - off % 64))] t
        (spdWriteN n t c (off + (bs.take (64 - off % 64)).length) (bs.drop (64 - off % 64)) poison hint desc) := by
      by_cases h : bs.length ≤ 64 - off % 64
      · rw [List.drop_eq_nil_of_le h, spdWriteN_nil]
        exact .empty_part c _ t
      · exact ih _ _ _ (by omega) (by omega)
    rw [spdWriteN_succ n s c off poison hint desc hb]
    refine (first.append (rest _)).congr fun old x => ?_
    rw [List.singleton_append, overlay_split, List.take_append_drop]

/-- A write of an engine to a scratchpad lays its bytes over what the scratchpad read as, wherever its lines fall. -/
theorem spdWrite_writes (s : State) (c : Nat) {off : Nat} {bs : List Byte} (ho : off + bs.length ≤ 0x60000)
    (poison : Nat) (hint : Bool) (desc : Nat) : SpdWrites c [(off, bs)] s (spdWrite s c off bs poison hint desc) :=
  spdWriteN_writes c poison hint desc _ s off bs (by omega) ho

/-! What a list of checks meets -/

theorem Chk.both_eq_ok (a b : Chk) : a.both b = .ok ↔ a = .ok ∧ b = .ok := by
  cases a <;> cases b <;> simp [Chk.both]

theorem Chk.foldl_both_eq_ok (l : List Chk) :
    ∀ a : Chk, l.foldl Chk.both a = .ok ↔ a = .ok ∧ ∀ k, k ∈ l → k = .ok := by
  induction l with
  | nil => simp
  | cons b r ih => intro a; simp [ih, Chk.both_eq_ok, and_assoc]

theorem Chk.all_eq_ok (l : List Chk) : Chk.all l = .ok ↔ ∀ k, k ∈ l → k = .ok := by
  simp [Chk.all, Chk.foldl_both_eq_ok]

theorem Chk.foldl_both_no_fault (l : List Chk) :
    ∀ a : Chk, (a = .ok ∨ a = .stall) → (∀ k, k ∈ l → k = .ok ∨ k = .stall) →
      l.foldl Chk.both a = .ok ∨ l.foldl Chk.both a = .stall := by
  induction l with
  | nil => intro a ha _; exact ha
  | cons b r ih =>
    intro a ha hl
    refine ih _ ?_ fun k hk => hl k (by simp [hk])
    obtain rfl | rfl := ha <;> obtain rfl | rfl := hl b (by simp) <;> simp [Chk.both]

/-- Checks of which one stalls and none faults stall. -/
theorem Chk.all_eq_stall {l : List Chk} (hs : .stall ∈ l) (hl : ∀ k, k ∈ l → k = .ok ∨ k = .stall) :
    Chk.all l = .stall :=
  (Chk.foldl_both_no_fault l .ok (.inl rfl) hl).resolve_left fun h => by
    simpa using (Chk.all_eq_ok l).mp h _ hs

/-- A range that passes its check lies in the scratchpad. -/
theorem spdChk_ok_bound {s : State} {c off n : Nat} (h : spdChk s c off n = .ok) (hn : n ≠ 0) :
    off + n ≤ 0x60000 := by
  refine Nat.le_of_not_lt fun hlt => ?_
  rw [spdChk, if_neg hn, if_pos hlt] at h
  cases h

/-! Rows that lie in a scratchpad -/

theorem region_spdAddr {c x : Nat} (hc : c < 4096) (hx : x < 0x60000) : region (spdAddr c x) = .spd c x := by
  have e1 : (spdAddr c x - spdBase) / 0x80000 = c := by unfold spdAddr; omega
  have e2 : (spdAddr c x - spdBase) % 0x80000 = x := by unfold spdAddr; omega
  unfold region
  rw [e1, e2]
  unfold spdAddr stackedTop qsrBase spdBase
  rw [if_neg (by omega), if_neg (by omega), if_pos (by omega), if_pos hx]

theorem spdAddr_add (c x n : Nat) : spdAddr c x + n = spdAddr c (x + n) := Nat.add_assoc _ x n

theorem cutRange_zero (m k a : Nat) : cutRange m k a 0 = [] := by
  cases k <;> rfl

theorem cutRange_succ (m k a : Nat) {n : Nat} (h : n ≠ 0) :
    cutRange m (k + 1) a n =
      (a, min n (m - a % m)) :: cutRange m k (a + min n (m - a % m)) (n - min n (m - a % m)) := by
  rw [cutRange, if_neg h]

/-- Bytes written line by line are written whole: each step of `f` writes its own piece of `d`, which starts at `o`. -/
theorem foldl_cutRange_writes {c o : Nat} {d : List Mark} {f : State → Nat × Nat → State}
    (hf : ∀ t x n, o ≤ x → 0 < n → x + n ≤ o + d.length →
      SpdWrites c [(x, ((d.drop (x - o)).take n).map (·.1))] t (f t (spdAddr c x, n))) :
    ∀ (k x n : Nat) (s : State), o ≤ x → x + n = o + d.length → x % 64 + n ≤ 64 * k →
      SpdWrites c [(x, (d.drop (x - o)).map (·.1))] s ((cutRange 64 k (spdAddr c x) n).foldl f s) := by
  have done (k x : Nat) (s : State) (hx : x = o + d.length) :
      SpdWrites c [(x, (d.drop (x - o)).map (·.1))] s ((cutRange 64 k (spdAddr c x) 0).foldl f s) := by
    rw [cutRange_zero, List.drop_eq_nil_of_le (by omega)]
    exact .empty_part c x s
  intro k
  induction k with
  | zero =>
    intro x n s _ hn hk
    obtain rfl : n = 0 := by omega
    exact done 0 x s (by omega)
  | succ k ih =>
    intro x n s ho hn hk
    by_cases h0 : n = 0
    · subst h0; exact done _ x s (by omega)
    have ea : spdAddr c x % 64 = x % 64 := by unfold spdAddr spdBase; omega
    rw [cutRange_succ _ _ _ h0, ea, List.foldl_cons]
    generalize hh : min n (64 - x % 64) = h
    have first := hf s x h ho (by omega) (by omega)
    have rest (t : State) : SpdWrites c [(x + h, (d.drop (x + h - o)).map (·.1))] t
        ((cutRange 64 k (spdAddr c (x + h)) (n - h)).foldl f t) := by
      by_cases hr : n - h = 0
      · rw [hr]; exact done k _ t (by omega)
      · exact ih _ _ t (by omega) (by omega) (by omega)
    rw [spdAddr_add]
    refine (first.append (rest _)).congr fun old y => ?_
    have len : (((d.drop (x - o)).take h).map (·.1)).length = h := by simp; omega
    have split := overlay_split x (((d.drop (x - o)).take h).map (·.1)) ((d.drop (x + h - o)).map (·.1)) old y
    rw [len] at split
    rw [List.singleton_append, split, ← List.map_append, show x + h - o = x - o + h by omega, ← List.drop_drop,
      List.take_append_drop]

/-- A row written into a scratchpad. -/
theorem writeRow_spd_writes (s : State) {c o : Nat} {d : List Mark} (hc : c < 4096) (hd : 0 < d.length)
    (ho : o + d.length ≤ 0x60000) (tag : Nat → Nat → Bool) (desc : Nat) :
    SpdWrites c [(o, d.map (·.1))] s (writeRow s (spdAddr c o) d tag desc) := by
  unfold writeRow pieces
  simp only [region_spdAddr hc (show o < 0x60000 by omega)]
  have h := foldl_cutRange_writes (c := c) (o := o) (d := d) (f := ?_) ?_ (d.length / 64 + 2) o d.length s
    (Nat.le_refl o) rfl (by omega)
  · rw [Nat.sub_self, List.drop_zero] at h
    exact h
  · intro t x n hx hn hl
    have ex : spdAddr c x - spdAddr c o = x - o := by unfold spdAddr; omega
    simp only [region_spdAddr hc (show x < 0x60000 by omega), ex]
    refine spdWrite_writes t c ?_ _ false desc
    simp; omega

/-! The rows of a delivery (R148, R184) -/

/-- Row `r` of a delivery. -/
def deliveryRow (v : Delivery) (r : Nat) : List Mark := (v.data.drop (r * max 1 v.rowBytes)).take (max 1 v.rowBytes)

/-- The rows of a delivery, each at its place in the scratchpad. -/
def deliveryParts (v : Delivery) : List (Nat × List Byte) :=
  (List.range (v.data.length / max 1 v.rowBytes)).map fun r => (v.dst + r * v.stride, (deliveryRow v r).map (·.1))

/-- Row `r` of a delivery is written into the scratchpad of core `c`. -/
def landRow (c : Nat) (v : Delivery) (s : State) (r : Nat) : State :=
  writeRow s (spdAddr c (v.dst + r * v.stride)) (deliveryRow v r) (fun _ _ => false) 0

/-- Landing writes the rows in turn and then flushes some gather entries. -/
theorem landRows_eq (s : State) (c : Nat) (v : Delivery) :
    ∃ p, landRows s c v = flushWhere ((List.range (v.data.length / max 1 v.rowBytes)).foldl (landRow c v) s) c p :=
  ⟨_, rfl⟩

/-- Every row of a delivery lies in the scratchpad. -/
def DeliveryFits (v : Delivery) : Prop :=
  ∀ r, r < v.data.length / max 1 v.rowBytes → v.dst + r * v.stride + max 1 v.rowBytes ≤ 0x60000

/-- A delivery that the banks take lies in the scratchpad. -/
theorem deliveryFits_of_landingChk {s : State} {c : Nat} {v : Delivery} (h : landingChk s c v = .ok) :
    DeliveryFits v := by
  intro r hr
  rw [landingChk, Chk.all_eq_ok] at h
  exact spdChk_ok_bound (h _ (List.mem_map.mpr ⟨r, List.mem_range.mpr hr, rfl⟩)) (by omega)

theorem deliveryRow_length {v : Delivery} {r : Nat} (hr : r < v.data.length / max 1 v.rowBytes) :
    (deliveryRow v r).length = max 1 v.rowBytes := by
  have h : (r + 1) * max 1 v.rowBytes ≤ v.data.length := Nat.mul_le_of_le_div _ _ _ hr
  rw [Nat.succ_mul] at h
  rw [deliveryRow, List.length_take, List.length_drop]
  omega

theorem deliveryRow_getD {v : Delivery} {b : Nat} (r : Nat) (hb : b < v.rowBytes) :
    ((deliveryRow v r).map (·.1)).getD b 0 = (v.data.getD (r * v.rowBytes + b) (0, 0)).1 := by
  have hn : max 1 v.rowBytes = v.rowBytes := by omega
  rw [List.getD_eq_getElem?_getD, List.getD_eq_getElem?_getD, List.getElem?_map, deliveryRow, hn,
    List.getElem?_take_of_lt hb, List.getElem?_drop]
  cases v.data[r * v.rowBytes + b]? with
  | none => rfl
  | some _ => rfl

theorem landRows_writes (s : State) {c : Nat} {v : Delivery} (hc : c < 4096) (hv : DeliveryFits v) :
    SpdWrites c (deliveryParts v) s (landRows s c v) := by
  obtain ⟨p, hp⟩ := landRows_eq s c v
  have rows := SpdWrites.foldl (c := c) (landRow c v) (fun r => [(v.dst + r * v.stride, (deliveryRow v r).map (·.1))])
    (List.range (v.data.length / max 1 v.rowBytes)) s fun t r hr => by
      have hr := List.mem_range.mp hr
      have len := deliveryRow_length hr
      have fits := hv r hr
      exact writeRow_spd_writes t hc (by omega) (by omega) _ 0
  rw [← List.map_eq_flatMap] at rows
  rw [hp]
  exact List.append_nil (deliveryParts v) ▸ rows.append (flushWhere_writes _ c p)

/-- Where the parts that reach a byte all give it one value, and one reaches it, the byte has that value. -/
theorem overlay_eq_of_agree {parts : List (Nat × List Byte)} {x : Nat} {w : Byte}
    (h : ∀ p, p ∈ parts → p.1 ≤ x ∧ x < p.1 + p.2.length → p.2.getD (x - p.1) 0 = w) :
    ∀ old : Nat → Byte, (old x = w ∨ ∃ p, p ∈ parts ∧ p.1 ≤ x ∧ x < p.1 + p.2.length) → overlay parts old x = w := by
  induction parts with
  | nil =>
    rintro old (hw | ⟨p, hp, _⟩)
    · exact hw
    · cases hp
  | cons p r ih =>
    intro old hw
    rw [← List.singleton_append, overlay_append]
    refine ih (fun q hq => h q (by simp [hq])) _ ?_
    rw [overlay_singleton]
    split
    next hp => exact .inl (h p (by simp) hp)
    next hp =>
      obtain hw | ⟨q, hq, hx⟩ := hw
      · exact .inl hw
      · obtain rfl | hq := List.mem_cons.mp hq
        · exact absurd hx hp
        · exact .inr ⟨q, hq, hx⟩

/-- Rows no closer than their length do not overlap. -/
theorem row_unique {dst stride n r k b : Nat} (hs : n ≤ stride) (hb : b < n)
    (h : dst + k * stride ≤ dst + r * stride + b ∧ dst + r * stride + b < dst + k * stride + n) : k = r := by
  obtain hlt | heq | hlt := Nat.lt_trichotomy k r
  · have := Nat.mul_le_mul_right stride (show k + 1 ≤ r from hlt)
    rw [Nat.succ_mul] at this
    omega
  · exact heq
  · have := Nat.mul_le_mul_right stride (show r + 1 ≤ k from hlt)
    rw [Nat.succ_mul] at this
    omega

/-- The bytes of a delivery whose rows do not overlap, once all its rows are laid. -/
theorem overlay_deliveryParts {v : Delivery} {r b : Nat} (hs : v.rowBytes ≤ v.stride)
    (hr : r < v.data.length / max 1 v.rowBytes) (hb : b < v.rowBytes) (old : Nat → Byte) :
    overlay (deliveryParts v) old (v.dst + r * v.stride + b) = (v.data.getD (r * v.rowBytes + b) (0, 0)).1 := by
  have len {k : Nat} (hk : k < v.data.length / max 1 v.rowBytes) :
      ((deliveryRow v k).map (·.1)).length = v.rowBytes := by
    rw [List.length_map, deliveryRow_length hk]
    omega
  refine overlay_eq_of_agree (fun p hp hx => ?_) old (.inr ⟨_, List.mem_map.mpr ⟨r, List.mem_range.mpr hr, rfl⟩, ?_⟩)
  · obtain ⟨k, hk, rfl⟩ := List.mem_map.mp hp
    rw [len (List.mem_range.mp hk)] at hx
    obtain rfl := row_unique hs hb hx
    rw [Nat.add_sub_cancel_left, deliveryRow_getD k hb]
  · rw [len hr]
    omega

/-! Which cores a landing changes -/

/-- Of the cores only those of `cs`, their scratchpads among them, differ, and of the rest of the block nothing. -/
structure OnlyCores (cs : List Nat) (s t : State) : Prop where
  only : OnlyStores s t
  core : ∀ c, c ∉ cs → t.core c = s.core c
  byte : ∀ c, c ∉ cs → ∀ x, x < 0x60000 → spdByte t c x = spdByte s c x

theorem OnlyCores.refl (s : State) : OnlyCores [] s s := ⟨.refl s, fun _ _ => rfl, fun _ _ _ _ => rfl⟩

theorem OnlyCores.append {as bs : List Nat} {s t u : State} (h : OnlyCores as s t) (k : OnlyCores bs t u) :
    OnlyCores (as ++ bs) s u where
  only := h.only.trans k.only
  core c hc := by
    rw [List.mem_append, not_or] at hc
    rw [k.core c hc.2, h.core c hc.1]
  byte c hc x hx := by
    rw [List.mem_append, not_or] at hc
    rw [k.byte c hc.2 x hx, h.byte c hc.1 x hx]

theorem OnlyCores.mono {as bs : List Nat} {s t : State} (h : OnlyCores as s t) (hs : as ⊆ bs) : OnlyCores bs s t where
  only := h.only
  core c hc := h.core c fun k => hc (hs k)
  byte c hc := h.byte c fun k => hc (hs k)

theorem SpdWrites.onlyCores {c : Nat} {parts : List (Nat × List Byte)} {s t : State} (h : SpdWrites c parts s t) :
    OnlyCores [c] s t where
  only := h.only
  core x hx := h.others x (by simpa using hx)
  byte x hx o ho := by
    have hne : x ≠ c := by simpa using hx
    refine spdByte_congr (by rw [gatherAt, h.others x hne, gatherAt]) (h.wrote.2 _ ?_)
    unfold spdAddr
    omega

/-- A change of a core that leaves its gather buffer alone changes no byte of a scratchpad. -/
theorem spdByte_modCore {f : Core → Core} (hf : ∀ x, (f x).gather = x.gather) (s : State) (n c x : Nat) :
    spdByte (s.modCore n f) c x = spdByte s c x := by
  refine spdByte_congr ?_ rfl
  rw [gatherAt, State.modCore_core, gatherAt]
  split
  next h => rw [hf, h]
  next => rfl

theorem onlyCores_modCore {f : Core → Core} (hf : ∀ x, (f x).gather = x.gather) (s : State) (c : Nat) :
    OnlyCores [c] s (s.modCore c f) where
  only := onlyStores_modCore s c f
  core x hx := State.modCore_core_ne s c f (by simpa using hx)
  byte x _ o _ := spdByte_modCore hf s c x o

/-! The descriptor and the slot of a delivery -/

@[simp] theorem modInFlight_spdByte (s : State) (c id : Nat) (f : InFlight → InFlight) (k x : Nat) :
    spdByte (modInFlight s c id f) k x = spdByte s k x :=
  spdByte_modCore (fun _ => by rfl) s c k x

@[simp] theorem modInFlight_slots (s : State) (c id : Nat) (f : InFlight → InFlight) (k : Nat) :
    ((modInFlight s c id f).core k).slots = (s.core k).slots := by
  rw [modInFlight, State.modCore_core]
  split
  next h => rw [h]
  next => rfl

theorem modInFlight_inflight (s : State) (c id : Nat) (f : InFlight → InFlight) :
    ((modInFlight s c id f).core c).inflight = (s.core c).inflight.map fun d => if d.id = id then f d else d := by
  rw [modInFlight, State.modCore_core_same]

theorem modInFlight_onlyCores (s : State) (c id : Nat) (f : InFlight → InFlight) :
    OnlyCores [c] s (modInFlight s c id f) :=
  onlyCores_modCore (fun _ => by rfl) s c

/-- The slot that a delivery produces, if any, becomes FULL. -/
def fillSlot (s : State) (c : Nat) (prod : Option Nat) : State :=
  match prod with
  | some k => slotProduced s c k
  | none => s

@[simp] theorem fillSlot_spdByte (s : State) (c : Nat) (prod : Option Nat) (k x : Nat) :
    spdByte (fillSlot s c prod) k x = spdByte s k x := by
  cases prod with
  | none => rfl
  | some _ => exact spdByte_modCore (fun _ => by rfl) s c k x

theorem fillSlot_full (s : State) (c k : Nat) : (((fillSlot s c (some k)).core c).slots.get k).full = true := by
  rw [fillSlot, slotProduced, State.modCore_core_same, SMap.get_mod_same]

@[simp] theorem fillSlot_inflight (s : State) (c : Nat) (prod : Option Nat) (k : Nat) :
    ((fillSlot s c prod).core k).inflight = (s.core k).inflight := by
  cases prod with
  | none => rfl
  | some _ =>
    rw [fillSlot, slotProduced, State.modCore_core]
    split
    next h => rw [h]
    next => rfl

theorem fillSlot_onlyCores (s : State) (c : Nat) (prod : Option Nat) : OnlyCores [c] s (fillSlot s c prod) := by
  cases prod with
  | none => exact (OnlyCores.refl s).mono (List.nil_subset _)
  | some _ => exact onlyCores_modCore (fun _ => by rfl) s c

/-! Where a delivery has landed -/

/-- The scratchpad of core `c` reads as the rows of the delivery. -/
def RowsLanded (v : Delivery) (c : Nat) (t : State) : Prop :=
  ∀ r b, r < v.data.length / max 1 v.rowBytes → b < v.rowBytes →
    spdByte t c (v.dst + r * v.stride + b) = (v.data.getD (r * v.rowBytes + b) (0, 0)).1

/-- The rows have landed, and the slot that the delivery produces is FULL. -/
def Landed (v : Delivery) (c : Nat) (t : State) : Prop :=
  (∀ k, v.prod = some k → ((t.core c).slots.get k).full = true) ∧ RowsLanded v c t

theorem landRows_rowsLanded (s : State) {c : Nat} {v : Delivery} (hc : c < 4096) (hv : DeliveryFits v)
    (hs : v.rowBytes ≤ v.stride) : RowsLanded v c (landRows s c v) := by
  intro r b hr hb
  have fits := hv r hr
  rw [(landRows_writes s hc hv).wrote.1 _ (by omega), overlay_deliveryParts hs hr hb]

theorem RowsLanded.fillSlot {v : Delivery} {c : Nat} {t : State} (h : RowsLanded v c t) :
    Landed v c (fillSlot t c v.prod) :=
  ⟨fun k hk => by rw [hk]; exact fillSlot_full t c k, fun r b hr hb => by rw [fillSlot_spdByte]; exact h r b hr hb⟩

theorem RowsLanded.modInFlight {v : Delivery} {c : Nat} {t : State} (h : RowsLanded v c t) (k id : Nat)
    (f : InFlight → InFlight) : RowsLanded v c (modInFlight t k id f) := fun r b hr hb => by
  rw [modInFlight_spdByte]
  exact h r b hr hb

theorem Landed.modInFlight {v : Delivery} {c : Nat} {t : State} (h : Landed v c t) (k id : Nat)
    (f : InFlight → InFlight) : Landed v c (modInFlight t k id f) :=
  ⟨fun j hj => by rw [modInFlight_slots]; exact h.1 j hj, h.2.modInFlight k id f⟩

/-- A landing stands while other cores change. -/
theorem Landed.mono {v : Delivery} {c : Nat} {cs : List Nat} {s t : State} (h : Landed v c s) (hv : DeliveryFits v)
    (k : OnlyCores cs s t) (hc : c ∉ cs) : Landed v c t := by
  refine ⟨fun j hj => ?_, fun r b hr hb => ?_⟩
  · rw [k.core c hc]
    exact h.1 j hj
  · have fits := hv r hr
    rw [k.byte c hc _ (by omega)]
    exact h.2 r b hr hb

/-! A multicast in every core of its mask (R54, R184) -/

/-- Core `c` takes its copy of a multicast, if a descriptor of it waits for one. -/
def landOne (v : Delivery) (s : State) (c : Nat) : State :=
  match awaiting s c v with
  | none => s
  | some d => fillSlot (modInFlight (landRows s c v) c d.id fun d => { d with pending := false, wait := 0 }) c v.prod

/-- What a core waits for is its own affair. -/
theorem awaiting_congr {s t : State} {c : Nat} (h : t.core c = s.core c) (v : Delivery) :
    awaiting t c v = awaiting s c v := by
  rw [awaiting, h, awaiting]

theorem landOne_onlyCores (s : State) {c : Nat} {v : Delivery} (hc : c < 4096) (hv : DeliveryFits v) :
    OnlyCores [c] s (landOne v s c) := by
  unfold landOne
  split
  · exact (OnlyCores.refl s).mono (List.nil_subset _)
  · exact (((landRows_writes s hc hv).onlyCores.append (modInFlight_onlyCores _ c _ _)).append
      (fillSlot_onlyCores _ c _)).mono (by simp)

theorem landOne_landed {s : State} {c : Nat} {v : Delivery} (hc : c < 4096) (hv : DeliveryFits v)
    (hs : v.rowBytes ≤ v.stride) (hw : (awaiting s c v).isSome = true) : Landed v c (landOne v s c) := by
  obtain ⟨d, hd⟩ := Option.isSome_iff_exists.mp hw
  rw [landOne, hd]
  exact ((landRows_rowsLanded s hc hv hs).modInFlight _ _ _).fillSlot

theorem foldl_landOne_onlyCores {v : Delivery} (cs : List Nat) : ∀ s : State,
    (∀ c, c ∈ cs → c < 4096 ∧ DeliveryFits v) → OnlyCores cs s (cs.foldl (landOne v) s) := by
  induction cs with
  | nil => exact fun s _ => .refl s
  | cons c r ih =>
    intro s h
    obtain ⟨hc, hv⟩ := h c (by simp)
    exact (landOne_onlyCores s hc hv).append (ih _ fun x hx => h x (by simp [hx]))

/-- The copies that land first stand while the others land, and the cores that land later wait on. -/
theorem foldl_landOne_landed {v : Delivery} (hs : v.rowBytes ≤ v.stride) (cs : List Nat) : ∀ s : State, cs.Nodup →
    (∀ c, c ∈ cs → c < 4096 ∧ DeliveryFits v) → (∀ c, c ∈ cs → (awaiting s c v).isSome = true) →
    ∀ c, c ∈ cs → Landed v c (cs.foldl (landOne v) s) := by
  induction cs with
  | nil => intro s _ _ _ c hc; cases hc
  | cons c r ih =>
    intro s hn h hw x hx
    obtain ⟨hcr, hr⟩ := List.nodup_cons.mp hn
    obtain ⟨hc, hv⟩ := h c (by simp)
    have h' : ∀ y, y ∈ r → y < 4096 ∧ DeliveryFits v := fun y hy => h y (by simp [hy])
    rw [List.foldl_cons]
    obtain rfl | hx := List.mem_cons.mp hx
    · exact (landOne_landed hc hv hs (hw x (by simp))).mono hv (foldl_landOne_onlyCores r _ h') hcr
    · refine ih _ hr h' (fun y hy => ?_) x hx
      have hne : y ∉ [c] := fun k => hcr (List.mem_singleton.mp k ▸ hy)
      rw [awaiting_congr ((landOne_onlyCores s hc hv).core y hne)]
      exact hw y (by simp [hy])

/-- The cores of quire `q` that a delivery goes to. -/
def maskedCores (q : Nat) (v : Delivery) : List Nat := (bitsOf 32 v.mask.toNat).map (32 * q + ·)

theorem maskedCores_nodup (q : Nat) (v : Delivery) : (maskedCores q v).Nodup :=
  List.Pairwise.map (32 * q + ·) (fun _ _ h k => h (Nat.add_left_cancel k)) (List.Pairwise.filter _ List.nodup_range)

theorem maskedCores_lt {q : Nat} {v : Delivery} (hq : q < 128) {c : Nat} (hc : c ∈ maskedCores q v) : c < 4096 := by
  obtain ⟨i, hi, rfl⟩ := List.mem_map.mp hc
  have := List.mem_range.mp (List.mem_filter.mp hi).1
  omega

/-- Delivery `i` of quire `q` is gone. -/
def dropAtQuire (s : State) (q i : Nat) : State := s.modQuire q fun x => { x with deliveries := dropAt x.deliveries i }

theorem dropAtQuire_deliveries {s u : State} (h : OnlyStores s u) (q i : Nat) :
    ((dropAtQuire u q i).quire q).deliveries = dropAt (s.quire q).deliveries i := by
  rw [dropAtQuire, State.modQuire_quire_same, State.quire, h.quires, ← State.quire]

theorem fillSlot_dropAtQuire (s : State) (c : Nat) (prod : Option Nat) (q i : Nat) :
    fillSlot (dropAtQuire s q i) c prod = dropAtQuire (fillSlot s c prod) q i := by
  cases prod with
  | none => rfl
  | some _ => rfl

theorem dmvAcked_dropAtQuire (s : State) (c id q i : Nat) :
    dmvAcked (dropAtQuire s q i) c id = dropAtQuire (dmvAcked s c id) q i := rfl

section
variable {q : QuireId} {s : State} {i : Nat} {v : Delivery}
  (hi : firstIdx (fun v : Delivery => !v.remote) (s.quire q.val).deliveries = some i)
  (hv : (s.quire q.val).deliveries[i]? = some v)
include hi hv

/-- A multicast for which not every core is ready does not land. -/
theorem execMulticastDelivery_waits {c : Nat} (hc : c ∈ maskedCores q.val v)
    (h : awaiting s c v = none ∨ slotClear s c v = false) : exec (.multicastDelivery q) s = .next s := by
  have some_core_waits : (maskedCores q.val v).all (fun c => (awaiting s c v).isSome && slotClear s c v) = false := by
    rw [List.all_eq_false]
    exact ⟨c, hc, by obtain h | h := h <;> simp [h]⟩
  show execMulticastDelivery q s = .next s
  rw [maskedCores] at some_core_waits
  simp [execMulticastDelivery, hi, hv, some_core_waits]

/-- A multicast that a waking bank does not take yet does not land. -/
theorem execMulticastDelivery_stalls {c : Nat} (hc : c ∈ maskedCores q.val v) (h : landingChk s c v = .stall)
    (hn : ∀ c, c ∈ maskedCores q.val v → landingChk s c v = .ok ∨ landingChk s c v = .stall) :
    exec (.multicastDelivery q) s = .next s := by
  have stall : Chk.all ((maskedCores q.val v).map fun c => landingChk s c v) = .stall :=
    Chk.all_eq_stall (List.mem_map.mpr ⟨c, hc, h⟩) fun k hk => by
      obtain ⟨x, hx, rfl⟩ := List.mem_map.mp hk
      exact hn x hx
  show execMulticastDelivery q s = .next s
  rw [maskedCores] at stall
  simp only [execMulticastDelivery, hi, hv, stall, ite_self]

/-- A multicast for which every core is ready lands in each of them and is gone. -/
theorem execMulticastDelivery_lands
    (hw : ∀ c, c ∈ maskedCores q.val v → (awaiting s c v).isSome = true ∧ slotClear s c v = true)
    (hk : ∀ c, c ∈ maskedCores q.val v → landingChk s c v = .ok) :
    exec (.multicastDelivery q) s = .next (dropAtQuire ((maskedCores q.val v).foldl (landOne v) s) q.val i) := by
  have ready : (maskedCores q.val v).all (fun c => (awaiting s c v).isSome && slotClear s c v) = true := by
    rw [List.all_eq_true]
    intro c hc
    obtain ⟨h1, h2⟩ := hw c hc
    rw [h1, h2, Bool.and_self]
  have takes : Chk.all ((maskedCores q.val v).map fun c => landingChk s c v) = .ok :=
    (Chk.all_eq_ok _).mpr fun k hk' => by
      obtain ⟨x, hx, rfl⟩ := List.mem_map.mp hk'
      exact hk x hx
  show execMulticastDelivery q s = _
  rw [maskedCores] at ready takes
  simp only [execMulticastDelivery, hi, hv, ready, takes, Bool.not_true, Bool.false_eq_true, if_false]
  rfl

end

/-! A write from another core (R148) -/

section
variable {c : CoreId} {s : State} {i : Nat} {v : Delivery}
  (hi : firstIdx (fun v : Delivery => v.remote && v.mask.getLsbD (c.val % 32))
    (s.quire (c.val / 32)).deliveries = some i)
  (hv : (s.quire (c.val / 32)).deliveries[i]? = some v)
include hi hv

theorem execRemoteProducerLanded_waits (h : slotClear s c.val v = false) :
    exec (.remoteProducerLanded c) s = .next s := by
  show execRemoteProducerLanded c s = .next s
  simp [execRemoteProducerLanded, hi, hv, h]

theorem execRemoteProducerLanded_lands (h : slotClear s c.val v = true) (hk : landingChk s c.val v = .ok) :
    exec (.remoteProducerLanded c) s = .next (dropAtQuire
      (dmvAcked (fillSlot (landRows s c.val v) c.val v.prod) v.leader v.desc) (c.val / 32) i) := by
  show execRemoteProducerLanded c s = _
  rw [← dmvAcked_dropAtQuire, ← fillSlot_dropAtQuire]
  simp only [execRemoteProducerLanded, hi, hv, h, hk, Bool.not_true, Bool.false_eq_true, if_false]
  rfl

end

/-- An acknowledged packet is counted at its descriptor, and at no other. -/
theorem mem_dmvAcked_inflight {s : State} {c id : Nat} {d : InFlight} (h : d ∈ ((dmvAcked s c id).core c).inflight) :
    ∃ f, f ∈ (s.core c).inflight ∧ f.id = d.id ∧ d.wait = if d.id = id then f.wait - 1 else f.wait := by
  rw [dmvAcked, modInFlight_inflight] at h
  obtain ⟨f, hf, rfl⟩ := List.mem_map.mp h
  refine ⟨f, hf, ?_⟩
  split <;> simp_all

theorem landRows_inflight (s : State) {c : Nat} {v : Delivery} (hc : c < 4096) (hv : DeliveryFits v) (k : Nat) :
    ((landRows s c v).core k).inflight = (s.core k).inflight := by
  have h := landRows_writes s hc hv
  by_cases hk : k = c
  · obtain ⟨g, hg⟩ := h.own
    rw [hk, hg]
  · rw [h.others k hk]

/-- Settles O41: a multicast lands in every core of its mask at once or in none, and a write from another core in its
one core; the rows stand because each landing writes one scratchpad only, and rows no closer than their length do not
overlap. -/
theorem deliveries : Obligations.Deliveries := by
  unfold Obligations.Deliveries
  refine ⟨fun q s i v hi hv => ?_, fun c s i v hi hv => ?_⟩
  · refine ⟨fun ⟨c, hc, h⟩ => execMulticastDelivery_waits hi hv hc h,
      fun ⟨c, hc, h⟩ hn => execMulticastDelivery_stalls hi hv hc h hn, fun hw hk hs => ?_⟩
    have fits : ∀ c, c ∈ maskedCores q.val v → c < 4096 ∧ DeliveryFits v := fun c hc =>
      ⟨maskedCores_lt q.isLt hc, deliveryFits_of_landingChk (hk c hc)⟩
    have only := foldl_landOne_onlyCores _ s fits
    have landed := foldl_landOne_landed hs _ s (maskedCores_nodup q.val v) fits fun c hc => (hw c hc).1
    exact ⟨_, execMulticastDelivery_lands hi hv hw hk, dropAtQuire_deliveries only.only q.val i, only.only.sameDevice,
      only.only.roll, only.core, landed⟩
  · refine ⟨execRemoteProducerLanded_waits hi hv, fun h hk hs => ⟨_, execRemoteProducerLanded_lands hi hv h hk, ?_⟩⟩
    have fits := deliveryFits_of_landingChk hk
    have rows := landRows_rowsLanded s c.isLt fits hs
    have landed : Landed v c.val (dmvAcked (fillSlot (landRows s c.val v) c.val v.prod) v.leader v.desc) :=
      rows.fillSlot.modInFlight _ _ _
    have only : OnlyStores s (dmvAcked (fillSlot (landRows s c.val v) c.val v.prod) v.leader v.desc) :=
      ((landRows_writes s c.isLt fits).only.trans (fillSlot_onlyCores _ _ _).only).trans
        (modInFlight_onlyCores _ _ _ _).only
    refine ⟨dropAtQuire_deliveries only _ i, only.sameDevice, landed.1, landed.2, fun d hd => ?_⟩
    obtain ⟨f, hf, h⟩ := mem_dmvAcked_inflight hd
    rw [fillSlot_inflight, landRows_inflight s c.isLt fits] at hf
    exact ⟨f, hf, h⟩

end Sys2Proof.Machine

/-! SUPPORT. Slot descriptors (R145, R146, R198, R199). A SYN descriptor takes no engine: it runs and the walk moves
past it. What the walk changes is said once, by `OnlyWalk` and `Passed`; what a slot descriptor does is its body's
change of one slot, with the walk moved past it. -/
namespace Sys2Proof.Machine

/-! The walk moves past a descriptor (R169, R174, R187) -/

theorem modAt_getElem?_same {α : Type} (f : α → α) (l : List α) : ∀ i, (modAt f l i)[i]? = l[i]?.map f := by
  induction l with
  | nil => intro i; rfl
  | cons a r ih =>
    rintro (_ | i)
    · rfl
    · exact ih i

/-- Of the block only core `c` differs, and of that only where its walk stands. -/
structure OnlyWalk (s t : State) (c : Nat) : Prop where
  cores : ∃ cs, t = { s with cores := cs }
  others : ∀ x, x ≠ c → t.core x = s.core x
  own : ∃ p e ws n h o, t.core c =
    { s.core c with pos := p, ended := e, walkers := ws, noticed := n, cheapAt := h, openItems := o }

theorem OnlyWalk.trans {s t u : State} {c : Nat} (h : OnlyWalk s t c) (k : OnlyWalk t u c) : OnlyWalk s u c where
  cores := by
    obtain ⟨_, rfl⟩ := h.cores
    obtain ⟨_, rfl⟩ := k.cores
    exact ⟨_, rfl⟩
  others x hx := (k.others x hx).trans (h.others x hx)
  own := by
    obtain ⟨_, _, _, _, _, _, ht⟩ := h.own
    obtain ⟨_, _, _, _, _, _, hu⟩ := k.own
    rw [hu, ht]
    exact ⟨_, _, _, _, _, _, rfl⟩

theorem onlyWalk_modCore {s : State} {c : Nat} {f : Core → Core} (h : ∃ p e ws n h o, f (s.core c) =
    { s.core c with pos := p, ended := e, walkers := ws, noticed := n, cheapAt := h, openItems := o }) :
    OnlyWalk s (s.modCore c f) c where
  cores := ⟨_, rfl⟩
  others _ hx := State.modCore_core_ne s c f hx
  own := by rwa [State.modCore_core_same]

theorem advance_onlyWalk (s : State) (c : Nat) : OnlyWalk s (advance s c) c := by
  refine onlyWalk_modCore ?_
  split
  · exact ⟨_, _, _, _, _, _, rfl⟩
  · exact ⟨_, _, _, _, _, _, rfl⟩

/-- The core as its walker `w` leaves the descriptor `d`, before ended visits, nests and walks are left. -/
def leaveHead (C : Core) (w d : Nat) : Core :=
  let C1 := match C.walkers with
    | [] => { C with pos := C.pos + 1, noticed := false }
    | ws => { C with walkers := modAt (fun W => { W with issue := W.issue.drop 1, noticed := false }) ws w }
  if hCheap d && C.preempt && w == 0 then { C1 with cheapAt := hLive d + 1 } else C1

theorem pastHead_eq (s : State) (c w d : Nat) :
    pastHead s c w d = advance (s.modCore c fun C => leaveHead C w d) c := rfl

theorem pastHead_onlyWalk (s : State) (c w d : Nat) : OnlyWalk s (pastHead s c w d) c := by
  rw [pastHead_eq]
  refine OnlyWalk.trans (onlyWalk_modCore ?_) (advance_onlyWalk _ c)
  unfold leaveHead
  split <;> split <;> exact ⟨_, _, _, _, _, _, rfl⟩

theorem leaveHead_no_walkers {C : Core} (h : C.walkers = []) (w d : Nat) :
    (leaveHead C w d).walkers = [] ∧ (leaveHead C w d).pos = C.pos + 1 := by
  simp only [leaveHead, h]
  split <;> exact ⟨rfl, rfl⟩

theorem leaveHead_walker {C : Core} {w : Nat} {W : Walker} (h : C.walkers[w]? = some W) (d : Nat) :
    (leaveHead C w d).walkers[w]? = some { W with issue := W.issue.drop 1, noticed := false } := by
  have dropped : (modAt (fun W : Walker => { W with issue := W.issue.drop 1, noticed := false }) C.walkers w)[w]? =
      some { W with issue := W.issue.drop 1, noticed := false } := by
    rw [modAt_getElem?_same, h, Option.map_some]
  unfold leaveHead
  split
  next hn => simp [hn] at h
  next => split <;> exact dropped

theorem advance_pos_of_no_walkers {s : State} {c : Nat} (h : (s.core c).walkers = []) :
    ((advance s c).core c).pos = (s.core c).pos := by
  simp [advance, markWalked, h]

/-- A walker with descriptors left to issue stays where it is. -/
theorem settleWalker_issuing (im : Img) (n : Nat) {W : Walker} (h : W.issue ≠ []) : settleWalker im n W = W := by
  cases n with
  | zero => rfl
  | succ n => simp [settleWalker, h]

/-- While a walker has descriptors left to issue, the walk neither ends nor moves that walker. -/
theorem advance_walker_issuing {s : State} {c w : Nat} {W : Walker} (h : (s.core c).walkers[w]? = some W)
    (hi : W.issue ≠ []) : ((advance s c).core c).walkers[w]? = some W := by
  have settled : ((s.core c).walkers.map (settleWalker (coreImg s c) 8))[w]? = some W := by
    rw [List.getElem?_map, h, Option.map_some, settleWalker_issuing _ _ hi]
  have not_done : ((s.core c).walkers.map (settleWalker (coreImg s c) 8)).all Walker.done = false :=
    List.all_eq_false.mpr ⟨W, List.mem_of_getElem? settled, by simp [Walker.done, hi]⟩
  simp only [advance, markWalked, not_done, Bool.not_false, Bool.or_true, if_true, State.modCore_core_same]
  exact settled

/-- The walk moves past the head, wherever a descriptor's own effect left it where it was. -/
theorem pastHead_passed {s u : State} {c : Nat} (hw : (u.core c).walkers = (s.core c).walkers)
    (hp : (u.core c).pos = (s.core c).pos) (w d : Nat) : Passed s (pastHead u c w d) c w := by
  rw [pastHead_eq]
  refine ⟨fun h => ?_, fun W e r hW he hr => ?_⟩
  · obtain ⟨no_walkers, pos⟩ := leaveHead_no_walkers (hw.trans h) w d
    rw [advance_pos_of_no_walkers (by rwa [State.modCore_core_same]), State.modCore_core_same, pos, hp]
  · have left : ((u.modCore c fun C => leaveHead C w d).core c).walkers[w]? =
        some { W with issue := W.issue.drop 1, noticed := false } := by
      rw [State.modCore_core_same]
      exact leaveHead_walker (hw ▸ hW) d
    have rest : W.issue.drop 1 = r := by rw [he, List.drop_one, List.tail_cons]
    exact ⟨_, advance_walker_issuing left (by rwa [rest]), rest⟩

/-! How a SYN descriptor issues (R171, R198) -/

section
variable {s : State} {c w op d : Nat} {body : State → Nat → Ran} (h : Ready s c w 6 op d)
include h

/-- A SYN descriptor that has run is over at once. -/
theorem issue_syn_done {u : State} {f : InFlight → InFlight} (hb : body s d = .done u f) :
    issue s c w 6 op body = pastHead u c w d := by
  have no_engine : engineOf d = none := by
    obtain ⟨-, -, -, -, cls, -⟩ := h
    simp only [engineOf, cls]
  rw [issue_ready h, hb]
  simp only [no_engine]

theorem issue_syn_fault {code o : Nat} (hb : body s d = .fault code o) :
    issue s c w 6 op body = coreFault s c code o := by
  rw [issue_ready h, hb]

end

/-! What a slot descriptor changes (R146) -/

/-- Slot `k` of core `c` becomes `v`. -/
def putSlot (s : State) (c k : Nat) (v : Slot) : State :=
  s.modCore c fun x => { x with slots := x.slots.set k v }

/-- A SYN descriptor is over, and only slot `k` of its core has changed: it is `v`. -/
structure SlotPut (s t : State) (c w k : Nat) (v : Slot) : Prop where
  synced : Synced s t c w
  memory : SameMemory s t
  quires : t.quires = s.quires
  slots : (t.core c).slots = (s.core c).slots.set k v

theorem SlotPut.same {s t : State} {c w k : Nat} {v : Slot} (h : SlotPut s t c w k v) :
    (t.core c).slots.get k = v := by
  rw [h.slots, SMap.get_set_same]

theorem SlotPut.other {s t : State} {c w k : Nat} {v : Slot} (h : SlotPut s t c w k v) (j : Nat) (hj : j ≠ k) :
    (t.core c).slots.get j = (s.core c).slots.get j := by
  rw [h.slots, SMap.get_set_ne hj]

/-- Where only cores differ, a SYN descriptor owes nothing but its own core's engines and the other cores. -/
theorem synced_of_only_cores {s t : State} {c w : Nat} {cs : SMap Core} (h : t = { s with cores := cs })
    (passed : Passed s t c w) (others : ∀ x, x ≠ c → t.core x = s.core x)
    (inflight : (t.core c).inflight = (s.core c).inflight) (banks : (t.core c).banks = (s.core c).banks)
    (arrays : SameArrays s t c) : Synced s t c w := by
  subst h
  exact ⟨passed, ⟨rfl, rfl, rfl, rfl, rfl, rfl, rfl⟩, rfl, rfl, rfl, rfl, rfl, others, inflight, banks, arrays⟩

theorem pastHead_putSlot (s : State) (c w k d : Nat) (v : Slot) :
    SlotPut s (pastHead (putSlot s c k v) c w d) c w k v := by
  have core : (putSlot s c k v).core c = { s.core c with slots := (s.core c).slots.set k v } :=
    State.modCore_core_same s c _
  have passed : Passed s (pastHead (putSlot s c k v) c w d) c w := pastHead_passed (by rw [core]) (by rw [core]) w d
  have walk := pastHead_onlyWalk (putSlot s c k v) c w d
  generalize pastHead (putSlot s c k v) c w d = t at passed walk
  obtain ⟨cs, cores⟩ := walk.cores
  obtain ⟨_, _, _, _, _, _, own⟩ := walk.own
  rw [core] at own
  have others : ∀ x, x ≠ c → t.core x = s.core x := fun x hx =>
    (walk.others x hx).trans (State.modCore_core_ne s c _ hx)
  have synced : Synced s t c w :=
    synced_of_only_cores cores passed others (by rw [own]) (by rw [own]) (by simp only [SameArrays, own, and_self])
  exact ⟨synced, by rw [cores]; exact ⟨rfl, rfl, rfl⟩, by rw [cores]; rfl, by rw [own]⟩

/-- SLOT_DEF refuses the range, the line count, the reader count, a FULL slot, or one that another descriptor waits
for (R146, R199). -/
def SlotDefRefused (s : State) (c w d : Nat) : Prop :=
  6144 < yBase d + yLines d ∨ yLines d = 0 ∨ yReaders d = 0 ∨ ((s.core c).slots.get (ySlot d)).full = true ∨
    stalledOn s c w (ySlot d) = true

section
variable {s : State} {c w d : Nat} (h : synHeader d = true)
include h

theorem slotDefBody_done (hr : ¬ SlotDefRefused s c w d) :
    slotDefBody c w s d = .done (putSlot s c (ySlot d) (newSlot d)) id := by
  rw [slotDefBody, synRun, if_pos h]
  exact if_neg hr

theorem slotDefBody_refused (hr : SlotDefRefused s c w d) : slotDefBody c w s d = .fault Fc.slotParam 0 := by
  rw [slotDefBody, synRun, if_pos h]
  exact if_pos hr

theorem slotUndefBody_done (hf : ((s.core c).slots.get (ySlot d)).full = false)
    (hs : stalledOn s c w (ySlot d) = false) : slotUndefBody c w s d = .done (putSlot s c (ySlot d) default) id := by
  rw [slotUndefBody, synRun, if_pos h]
  exact if_neg (by simp [hf, hs])

theorem slotUndefBody_full (hf : ((s.core c).slots.get (ySlot d)).full = true) :
    slotUndefBody c w s d = .fault Fc.slotParam 0 := by
  rw [slotUndefBody, synRun, if_pos h]
  exact if_pos (.inl hf)

end

theorem slotDefBody_bad_header {d : Nat} (h : synHeader d = false) (c w : Nat) (s : State) :
    slotDefBody c w s d = .fault Fc.synParam 0 := by
  rw [slotDefBody, synRun, h]
  rfl

theorem toNat_ofNat_fld (v lo n : Nat) : (BitVec.ofNat n (fld v lo n)).toNat = fld v lo n := by
  rw [BitVec.toNat_ofNat, fld, Nat.mod_mod]

/-- The fields of a descriptor fill the fields of the slot: none is cut. -/
theorem newSlot_fields (d : Nat) : (newSlot d).base.toNat = yBase d ∧ (newSlot d).lines.toNat = yLines d ∧
    (newSlot d).readers.toNat = yReaders d ∧ (newSlot d).remain.toNat = yReaders d :=
  ⟨toNat_ofNat_fld d 96 13, toNat_ofNat_fld d 109 13, toNat_ofNat_fld d 122 4, toNat_ofNat_fld d 122 4⟩

theorem exec_slotDef (c : CoreId) (w : WalkerId) (s : State) :
    exec (.slotDef c w) s = .next (issue s c.val w.val 6 0 (slotDefBody c.val w.val)) := rfl

theorem exec_slotUndef (c : CoreId) (w : WalkerId) (s : State) :
    exec (.slotUndef c w) s = .next (issue s c.val w.val 6 1 (slotUndefBody c.val w.val)) := rfl

/-- Settles O34: a slot descriptor that its rules pass puts one slot and the walk moves past it; one that they do not
pass faults before anything changes. -/
theorem slotDescriptors : Obligations.SlotDescriptors := by
  unfold Obligations.SlotDescriptors
  intro c w s d k
  rw [exec_slotDef, exec_slotUndef]
  refine ⟨fun h hh range lines readers full stalled => ?_, fun h hh full stalled => ?_, fun h hh refused => ?_,
    fun h hh full => ?_, fun h hh => ?_⟩
  · have passes : ¬ SlotDefRefused s c.val w.val d := by
      simp only [SlotDefRefused, not_or, Bool.not_eq_true]
      exact ⟨Nat.not_lt.mpr range, lines, readers, full, stalled⟩
    have put := pastHead_putSlot s c.val w.val k d (newSlot d)
    obtain ⟨base, len, count, remain⟩ := newSlot_fields d
    refine ⟨_, congrArg Host.Outcome.next (issue_syn_done h (slotDefBody_done hh passes)),
      put.synced, put.memory, put.quires, ?_⟩
    rw [put.same]
    exact ⟨base, len, count, rfl, rfl, remain, put.other⟩
  · have put := pastHead_putSlot s c.val w.val k d default
    refine ⟨_, congrArg Host.Outcome.next (issue_syn_done h (slotUndefBody_done hh full stalled)),
      put.synced, put.memory, put.quires, ?_⟩
    rw [put.same]
    exact ⟨rfl, put.other⟩
  · exact congrArg Host.Outcome.next (issue_syn_fault h (slotDefBody_refused hh refused))
  · exact congrArg Host.Outcome.next (issue_syn_fault h (slotUndefBody_full hh full))
  · exact congrArg Host.Outcome.next (issue_syn_fault h (slotDefBody_bad_header hh _ _ _))

end Sys2Proof.Machine

/-! SUPPORT. Temperatures of the stacks (R368, R382 to R384, R388). A temperature that takes effect first changes one
stack and DRAM_C of its HBM_TEMP; all that follows only reports: it changes registers, the error ring and the sensor
events, and `ReadingsStand` says that of the registers it takes no reading, no threshold and no sticky record away. -/
namespace Sys2Proof.Machine

/-! Fields and bits of a number (R7) -/

theorem bit_eq_testBit (v i : Nat) : bit v i = v.testBit i :=
  Nat.testBit_eq_decide_div_mod_eq.symm

theorem fld_zero (v n : Nat) : fld v 0 n = v % 2 ^ n := by
  rw [fld, Nat.pow_zero, Nat.div_one]

/-- A field that is replaced at or above bit `m` leaves the bits below alone. -/
theorem setFld_mod_below {m lo : Nat} (h : m ≤ lo) (v n x : Nat) : setFld v lo n x % 2 ^ m = v % 2 ^ m := by
  have above : 2 ^ m ∣ v / 2 ^ (lo + n) * 2 ^ (lo + n) + x % 2 ^ n * 2 ^ lo :=
    Nat.dvd_add (Nat.dvd_mul_left_of_dvd (Nat.pow_dvd_pow 2 (by omega)) _)
      (Nat.dvd_mul_left_of_dvd (Nat.pow_dvd_pow 2 h) _)
  rw [setFld, Nat.add_mod, Nat.mod_eq_zero_of_dvd above, Nat.zero_add, Nat.mod_mod,
    Nat.mod_mod_of_dvd _ (Nat.pow_dvd_pow 2 h)]

theorem setFld_zero_mod (v n x : Nat) : setFld v 0 n x % 2 ^ n = x % 2 ^ n := by
  rw [setFld, Nat.zero_add, Nat.pow_zero, Nat.mod_one, Nat.mul_one, Nat.add_zero, Nat.mul_add_mod_self_right,
    Nat.mod_mod]

theorem rnat_rsetFld_same (s : State) (a lo n x : Nat) :
    (s.rsetFld a lo n x).rnat a = setFld (s.rnat a) lo n x % 2 ^ 32 := by
  rw [State.rnat, State.rsetFld, State.rget_rset_same, BitVec.toNat_ofNat]

theorem rfld_rsetFld_below {m lo : Nat} (h : m ≤ lo) (hm : m ≤ 32) (s : State) (a n x : Nat) :
    (s.rsetFld a lo n x).rfld a 0 m = s.rfld a 0 m := by
  rw [State.rfld, State.rfld, fld_zero, fld_zero, rnat_rsetFld_same, Nat.mod_mod_of_dvd _ (Nat.pow_dvd_pow 2 hm),
    setFld_mod_below h]

theorem rfld_rsetFld_zero {n : Nat} (hn : n ≤ 32) (s : State) (a x : Nat) :
    (s.rsetFld a 0 n x).rfld a 0 n = x % 2 ^ n := by
  rw [State.rfld, fld_zero, rnat_rsetFld_same, Nat.mod_mod_of_dvd _ (Nat.pow_dvd_pow 2 hn), setFld_zero_mod]

theorem rbit_ror_same (s : State) (a b i : Nat) :
    (s.ror a b).rbit a i = (s.rbit a i || (decide (i < 32) && b.testBit i)) := by
  rw [State.rbit, State.rbit, State.rnat, State.rget_ror_same, BitVec.toNat_or, BitVec.toNat_ofNat, bit_eq_testBit,
    bit_eq_testBit, Nat.testBit_or, Nat.testBit_mod_two_pow, State.rnat]

/-! Which registers a report leaves standing (R387) -/

/-- The readings of the stacks and the thresholds they are held against stand, and no sticky record of a stack is
lost. -/
structure ReadingsStand (s t : State) : Prop where
  dramC : ∀ k, t.rfld (Reg.hbmTemp k) 0 8 = s.rfld (Reg.hbmTemp k) 0 8
  hi : t.rnat Reg.thmDramHi = s.rnat Reg.thmDramHi
  lo : t.rnat Reg.thmDramLo = s.rnat Reg.thmDramLo
  sticky : ∀ k, k < 24 → ∀ i, s.rbit (Reg.hbmStatus k) i = true → t.rbit (Reg.hbmStatus k) i = true

theorem ReadingsStand.of_regs {s t : State} (h : t.regs = s.regs) : ReadingsStand s t := by
  have same : ∀ a, t.rget a = s.rget a := fun a => by rw [State.rget, State.rget, h]
  exact ⟨fun k => by simp only [State.rfld, State.rnat, same], by simp only [State.rnat, same],
    by simp only [State.rnat, same], fun k _ i hi => by simpa only [State.rbit, State.rnat, same] using hi⟩

theorem ReadingsStand.trans {s t u : State} (h : ReadingsStand s t) (g : ReadingsStand t u) : ReadingsStand s u where
  dramC k := (g.dramC k).trans (h.dramC k)
  hi := g.hi.trans h.hi
  lo := g.lo.trans h.lo
  sticky k hk i hi := g.sticky k hk i (h.sticky k hk i hi)

/-- A register that holds no reading, threshold or record of a stack. -/
structure Aside (a : Nat) : Prop where
  temp : ∀ k, Reg.hbmTemp k ≠ a
  hi : Reg.thmDramHi ≠ a
  lo : Reg.thmDramLo ≠ a
  status : ∀ k, k < 24 → Reg.hbmStatus k ≠ a

theorem aside_of_lt {a : Nat} (h : a < 0xC4000) : Aside a := by
  constructor <;> simp only [Reg.hbmTemp, Reg.hbmStatus, Reg.thmDramHi, Reg.thmDramLo] <;> omega

theorem aside_plnAlertCause : Aside Reg.plnAlertCause := by
  constructor <;> simp only [Reg.hbmTemp, Reg.hbmStatus, Reg.thmDramHi, Reg.thmDramLo, Reg.plnAlertCause] <;> omega

theorem ReadingsStand.rset {s t : State} (h : ReadingsStand s t) {a : Nat} (ha : Aside a) (v : Word32) :
    ReadingsStand s (t.rset a v) := by
  have same : ∀ {b}, b ≠ a → (t.rset a v).rnat b = t.rnat b := fun hb => congrArg _ (State.rget_rset_ne t hb v)
  refine h.trans ⟨fun k => ?_, same ha.hi, same ha.lo, fun k hk i hi => ?_⟩
  · rw [State.rfld, same (ha.temp k), State.rfld]
  · rwa [State.rbit, same (ha.status k hk)]

/-- Of HBM_TEMP, what stands above DRAM_C may change. -/
theorem ReadingsStand.rsetFld_hbmTemp {s t : State} (h : ReadingsStand s t) (k : Nat) {l : Nat} (hl : 8 ≤ l)
    (n v : Nat) : ReadingsStand s (t.rsetFld (Reg.hbmTemp k) l n v) := by
  have same : ∀ {b}, b ≠ Reg.hbmTemp k → (t.rsetFld (Reg.hbmTemp k) l n v).rnat b = t.rnat b := fun hb =>
    congrArg _ (State.rget_rsetFld_ne t hb l n v)
  refine h.trans ⟨fun j => ?_, same ?_, same ?_, fun j _ i hi => ?_⟩
  · by_cases hj : Reg.hbmTemp j = Reg.hbmTemp k
    · rw [hj, rfld_rsetFld_below hl (by decide)]
    · rw [State.rfld, same hj, State.rfld]
  · simp only [Reg.hbmTemp, Reg.thmDramHi]; omega
  · simp only [Reg.hbmTemp, Reg.thmDramLo]; omega
  · rwa [State.rbit, same (by simp only [Reg.hbmTemp, Reg.hbmStatus]; omega)]

theorem ReadingsStand.rput_hbmTemp {s t : State} (h : ReadingsStand s t) (k : Nat) {i : Nat} (hi : 8 ≤ i) (b : Bool) :
    ReadingsStand s (t.rput (Reg.hbmTemp k) i b) :=
  h.rsetFld_hbmTemp k hi 1 _

/-- Records of a stack may be added. -/
theorem ReadingsStand.ror_hbmStatus {s t : State} (h : ReadingsStand s t) {k : Nat} (hk : k < 24) (b : Nat) :
    ReadingsStand s (t.ror (Reg.hbmStatus k) b) := by
  have same : ∀ {a}, a ≠ Reg.hbmStatus k → (t.ror (Reg.hbmStatus k) b).rnat a = t.rnat a := fun ha =>
    congrArg _ (State.rget_ror_ne t ha b)
  refine h.trans ⟨fun j => ?_, same ?_, same ?_, fun j _ i hi => ?_⟩
  · rw [State.rfld, same (by simp only [Reg.hbmTemp, Reg.hbmStatus]; omega), State.rfld]
  · simp only [Reg.hbmStatus, Reg.thmDramHi]; omega
  · simp only [Reg.hbmStatus, Reg.thmDramLo]; omega
  · by_cases hj : Reg.hbmStatus j = Reg.hbmStatus k
    · rw [hj] at hi ⊢
      rw [rbit_ror_same, hi, Bool.true_or]
    · rwa [State.rbit, same hj]

/-! The operations that report -/

/-- From `s` to `t` only reports are made: the stacks, memory, the cores and flash are the same, and the readings
stand. -/
structure OnlyReports (s t : State) : Prop where
  readings : ReadingsStand s t
  stk : t.stk = s.stk
  mem : t.mem = s.mem
  cores : t.cores = s.cores
  nv : t.nv = s.nv

theorem OnlyReports.trans {s t u : State} (h : OnlyReports s t) (g : OnlyReports t u) : OnlyReports s u :=
  ⟨h.readings.trans g.readings, g.stk.trans h.stk, g.mem.trans h.mem, g.cores.trans h.cores, g.nv.trans h.nv⟩

theorem OnlyReports.refl (s : State) : OnlyReports s s := ⟨.of_regs rfl, rfl, rfl, rfl, rfl⟩

theorem OnlyReports.ite {s t u : State} {c : Prop} [Decidable c] (h : OnlyReports s t) (g : OnlyReports s u) :
    OnlyReports s (if c then t else u) := by
  split
  · exact h
  · exact g

theorem OnlyReports.rset {s t : State} (h : OnlyReports s t) {a : Nat} (ha : Aside a) (v : Word32) :
    OnlyReports s (t.rset a v) :=
  h.trans ⟨.rset (.of_regs rfl) ha v, rfl, rfl, rfl, rfl⟩

/-- A report that is made only under a condition. -/
theorem OnlyReports.when {s t : State} {f : State → State} {c : Prop} [Decidable c] (h : OnlyReports s t)
    (hf : ∀ u, OnlyReports u (f u)) : OnlyReports s (if c then f t else t) :=
  .ite (h.trans (hf t)) h

/-- An event is folded into its last entry, or appended with its marks: lost, interrupting, retired, transient. -/
theorem onlyReports_ringPut (s : State) (e : Event) : OnlyReports s (ringPut s e).1 := by
  have arm : ∀ a, OnlyReports s { s with arm := a } := fun a => ⟨.of_regs rfl, rfl, rfl, rfl, rfl⟩
  have number : ∀ {a}, a < 0xC4000 → ∀ (u : State) v, OnlyReports u (u.rset a v) := fun ha u v =>
    (OnlyReports.refl u).rset (aside_of_lt ha) v
  have mark : ∀ b (u : State), OnlyReports u (u.ror Reg.plnErrStatus b) := fun b u => number (by decide) u _
  have count : ∀ {a}, a < 0xC4000 → ∀ u : State, OnlyReports u (u.radd a 1) := fun ha u => number ha u _
  unfold ringPut
  simp only
  split
  · exact arm _
  · have appended := fun a v w => ((arm a).trans (number (a := Reg.plnErrSeq) (by decide) _ v)).trans
      (number (a := Reg.plnErrHead) (by decide) _ w)
    exact ((((appended _ _ _).when (mark 1)).when fun u => (mark 2 u).trans (count (by decide) _)).when fun u =>
      (mark 4 u).trans (count (by decide) _)).when (count (by decide))

/-- An event that is neither permanent nor interrupting asks for no notice (R579). -/
theorem ringAdd_without_notice (s : State) {e : Event} (hc : e.cls ≠ .permanent) (hi : e.interrupting = false)
    (hk : e.kind ≠ 0x37) : ringAdd s e = (ringPut s e).1 := by
  unfold ringAdd
  split
  next s1 i h =>
    rw [if_neg (by simp only [hc, hi, beq_eq_false_iff_ne.mpr hk, decide_false, Bool.or_self, Bool.false_eq_true,
      not_false_eq_true]), h]
  next s1 h => rw [h]

theorem onlyReports_smbusOut (s : State) (m : List Byte) : OnlyReports s (smbusOut s m) :=
  ⟨.of_regs rfl, rfl, rfl, rfl, rfl⟩

theorem OnlyReports.foldl {β : Type} {f : State → β → State} (h : ∀ s b, OnlyReports s (f s b)) :
    ∀ (l : List β) (s : State), OnlyReports s (l.foldl f s)
  | [], s => .refl s
  | b :: r, s => (h s b).trans (OnlyReports.foldl h r (f s b))

theorem onlyReports_sensorEvents (s : State) : OnlyReports s (sensorEvents s) := by
  have seen : ∀ m, OnlyReports s { s with mod := m } := fun m => ⟨.of_regs rfl, rfl, rfl, rfl, rfl⟩
  unfold sensorEvents
  simp only
  split
  · exact (seen _).trans (.foldl (fun s _ => onlyReports_smbusOut s _) _ _)
  · exact seen _

/-- What no register write changes stands as the limit is published. -/
theorem syncLimit_keeps {α : Type} {f : State → α} (h : ∀ s a v, f (s.rset a v) = f s) (s : State) (k : Nat) :
    f (syncLimit s k) = f s := by
  unfold syncLimit
  simp only
  split <;> simp only [State.ror, State.rput, State.rsetFld, h]

theorem readingsStand_syncLimit (s : State) {k : Nat} (hk : k < 24) : ReadingsStand s (syncLimit s k) := by
  have shown : ReadingsStand s (((s.rsetFld (Reg.hbmTemp k) 11 10 (48 - (s.stack k).drop.toNat)).rput (Reg.hbmTemp k) 9
      (decide ((s.stack k).drop ≠ 0))).rput (Reg.hbmTemp k) 10 (s.stack k).emergency) :=
    (((ReadingsStand.of_regs rfl).rsetFld_hbmTemp k (by decide) _ _).rput_hbmTemp k (by decide) _).rput_hbmTemp k
      (by decide) _
  unfold syncLimit
  simp only
  split
  · exact shown.ror_hbmStatus hk _
  · exact shown

theorem onlyReports_syncLimit (s : State) {k : Nat} (hk : k < 24) : OnlyReports s (syncLimit s k) :=
  ⟨readingsStand_syncLimit s hk, syncLimit_keeps State.rset_stk s k, syncLimit_keeps State.rset_mem s k,
    syncLimit_keeps State.rset_cores s k, syncLimit_keeps State.rset_nv s k⟩

/-! A temperature takes effect (R368, R382, R384) -/

/-- The stack as a temperature `v` leaves it. -/
def heated (s : State) (v : BitVec 8) (S : Stack) : Stack :=
  { S with
    hotSince := if 97 ≤ degC v then some (S.hotSince.getD s.now) else none
    drop := if 95 ≤ degC v then 36 else S.drop
    emergency := if 95 ≤ degC v then true else if degC v ≤ (s.rnat Reg.thmDramLo : Int) then false else S.emergency }

/-- DRAM_C and the stack change, and nothing is reported yet. -/
def takeTemp (s : State) (k : Nat) (v : BitVec 8) : State :=
  (s.rsetFld (Reg.hbmTemp k) 0 8 v.toNat).modStack k (heated s v)

/-- All that a temperature does beyond DRAM_C and its stack is to report. -/
theorem onlyReports_dramTemp (s : State) {k : Nat} (hk : k < 24) (v : BitVec 8) :
    OnlyReports (takeTemp s k v) (dramTemp s k v) := by
  have doubled : ∀ b, OnlyReports (takeTemp s k v) ((takeTemp s k v).rput (Reg.hbmTemp k) 8 b) := fun b =>
    ⟨(ReadingsStand.of_regs rfl).rput_hbmTemp k (by decide) _, rfl, rfl, rfl, rfl⟩
  have recorded : ∀ t : State, OnlyReports t (t.ror (Reg.hbmStatus k) 0x400) := fun t =>
    ⟨(ReadingsStand.of_regs rfl).ror_hbmStatus hk _, rfl, rfl, rfl, rfl⟩
  have alerted : ∀ (t : State) b, OnlyReports t (t.rput Reg.plnAlertCause 6 b) := fun t b =>
    (OnlyReports.refl t).rset aside_plnAlertCause _
  have entered : ∀ t : State, OnlyReports t (ringAdd t
      { kind := 0x42, cls := .event, unitType := 5, unit := k, detail := detailOf [(28, 1, v.toNat)] }) := fun t => by
    rw [ringAdd_without_notice t (show ErrClass.event ≠ .permanent by decide) rfl (show (0x42 : Nat) ≠ 0x37 by decide)]
    exact onlyReports_ringPut t _
  refine OnlyReports.trans ?_ ((onlyReports_syncLimit _ hk).trans (onlyReports_sensorEvents _))
  exact (((doubled _).when recorded).trans (alerted _ _)).when entered

theorem OnlyReports.stack {s t : State} (h : OnlyReports s t) (k : Nat) : t.stack k = s.stack k := by
  rw [State.stack, h.stk, State.stack]

theorem OnlyReports.stack_of_takeTemp {s t : State} {k : Nat} {v : BitVec 8} (h : OnlyReports (takeTemp s k v) t) :
    t.stack k = heated s v (s.stack k) := by
  rw [h.stack, takeTemp, State.modStack_stack_same, State.rsetFld_stack]

theorem OnlyReports.dramC_of_takeTemp {s t : State} {k : Nat} {v : BitVec 8} (h : OnlyReports (takeTemp s k v) t) :
    t.rfld (Reg.hbmTemp k) 0 8 = v.toNat := by
  rw [h.readings.dramC, takeTemp, State.modStack_rfld, rfld_rsetFld_zero (by decide), Nat.mod_eq_of_lt v.isLt]

/-- Taking a temperature loses no sticky record of its stack. -/
theorem rbit_hbmStatus_takeTemp (s : State) (k : Nat) (v : BitVec 8) (i : Nat) :
    (takeTemp s k v).rbit (Reg.hbmStatus k) i = s.rbit (Reg.hbmStatus k) i := by
  have apart : Reg.hbmStatus k ≠ Reg.hbmTemp k := by simp only [Reg.hbmTemp, Reg.hbmStatus]; omega
  rw [takeTemp, State.modStack_rbit, State.rbit, State.rnat, State.rget_rsetFld_ne s apart, State.rbit, State.rnat]

theorem heated_hot {s : State} {v : BitVec 8} (h : 95 ≤ v.toInt) (S : Stack) :
    (heated s v S).drop = 36 ∧ (heated s v S).emergency = true :=
  ⟨if_pos h, if_pos h⟩

theorem heated_drop_of_lt {s : State} {v : BitVec 8} (h : v.toInt < 95) (S : Stack) : (heated s v S).drop = S.drop :=
  if_neg (Int.not_le.mpr h)

/-! A reading, and a reading that fails (R382) -/

/-- The stack counts its readings that failed in a row. -/
def setTempFails (s : State) (k n : Nat) : State := s.modStack k fun S => { S with tempFails := n }

theorem exec_dramTempRead_some (k : StackId) (v : BitVec 8) (s : State) :
    exec (.dramTempRead k (some v)) s = .next (dramTemp (setTempFails s k.val 0) k.val v) := rfl

theorem exec_dramTempRead_none_few {k : StackId} {s : State} (h : (s.stack k.val).tempFails < 2) :
    exec (.dramTempRead k none) s = .next (setTempFails s k.val ((s.stack k.val).tempFails + 1)) :=
  if_pos (Nat.succ_lt_succ h)

theorem exec_dramTempRead_none_third {k : StackId} {s : State} (h : 2 ≤ (s.stack k.val).tempFails) :
    exec (.dramTempRead k none) s =
      .next (dramTemp ((setTempFails s k.val 0).ror (Reg.hbmStatus k.val) 0x800) k.val 95) :=
  if_neg (by omega)

theorem setTempFails_stack (s : State) (k n : Nat) :
    (setTempFails s k n).stack k = { s.stack k with tempFails := n } :=
  State.modStack_stack_same s k _

/-! The steps of the stack limits (R383) -/

/-- The steps that a stack's limit stands below 1.2 GHz after one more step. -/
def steppedDrop (s : State) (k : Nat) : Nat :=
  if (s.rnat Reg.thmDramHi : Int) ≤ sext 8 (s.rfld (Reg.hbmTemp k) 0 8) then min 36 ((s.stack k).drop.toNat + 1)
  else if sext 8 (s.rfld (Reg.hbmTemp k) 0 8) ≤ (s.rnat Reg.thmDramLo : Int) then (s.stack k).drop.toNat - 1
  else (s.stack k).drop.toNat

theorem steppedDrop_congr {s t : State} (h : ReadingsStand s t) {k : Nat} (hk : t.stack k = s.stack k) :
    steppedDrop t k = steppedDrop s k := by
  simp only [steppedDrop, h.hi, h.lo, h.dramC, hk]

/-- The stack's limit stands `n` steps below 1.2 GHz. -/
def setDrop (s : State) (k n : Nat) : State := s.modStack k fun S => { S with drop := BitVec.ofNat 6 n }

theorem stackStep_eq (s : State) (k : Nat) : stackStep s k = syncLimit (setDrop s k (steppedDrop s k)) k := rfl

/-- From `s` to `t` the limits of the first `n` stacks have stepped; the other stacks, the readings, memory, the cores,
flash, the Armature and the module are the same. -/
structure LimitsStepped (s t : State) (n : Nat) : Prop where
  stepped : ∀ k, k < n → (t.stack k).drop = BitVec.ofNat 6 (steppedDrop s k)
  rest : ∀ k, n ≤ k → t.stack k = s.stack k
  readings : ReadingsStand s t
  mem : t.mem = s.mem
  cores : t.cores = s.cores
  nv : t.nv = s.nv
  arm : t.arm = s.arm
  mod : t.mod = s.mod

/-- What a stack's step is judged by, the steps before it have left alone. -/
theorem LimitsStepped.stackStep {s t : State} {n : Nat} (h : LimitsStepped s t n) (hn : n < 24) :
    LimitsStepped s (stackStep t n) (n + 1) := by
  rw [stackStep_eq, steppedDrop_congr h.readings (h.rest n (Nat.le_refl _))]
  have shown := onlyReports_syncLimit (setDrop t n (steppedDrop s n)) hn
  have readings : ReadingsStand t (setDrop t n (steppedDrop s n)) := .of_regs rfl
  have other : ∀ k, k ≠ n → (setDrop t n (steppedDrop s n)).stack k = t.stack k := fun k hk =>
    State.modStack_stack_ne t n _ hk
  refine ⟨fun k hk => ?_, fun k hk => ?_, (h.readings.trans readings).trans shown.readings, shown.mem.trans h.mem,
    shown.cores.trans h.cores, shown.nv.trans h.nv, (syncLimit_keeps State.rset_arm _ n).trans h.arm,
    (syncLimit_keeps State.rset_mod _ n).trans h.mod⟩
  · rw [shown.stack]
    rcases Nat.lt_succ_iff_lt_or_eq.mp hk with hlt | rfl
    · rw [other k (Nat.ne_of_lt hlt), h.stepped k hlt]
    · rw [setDrop, State.modStack_stack_same]
  · rw [shown.stack, other k (by omega), h.rest k (by omega)]

theorem limitsStepped_range (s : State) : ∀ n, n ≤ 24 → LimitsStepped s ((List.range n).foldl stackStep s) n
  | 0, _ => ⟨fun _ h => absurd h (Nat.not_lt_zero _), fun _ _ => rfl, .of_regs rfl, rfl, rfl, rfl, rfl, rfl⟩
  | n + 1, h => by
    rw [List.range_succ, List.foldl_append, List.foldl_cons, List.foldl_nil]
    exact (limitsStepped_range s n (by omega)).stackStep h

/-- Settles O8: a temperature changes DRAM_C and its stack, and what follows takes no reading and no record away; the
limits step one stack after the other, and no step changes what the next one is judged by. -/
theorem stackTemperature : Obligations.StackTemperature := by
  unfold Obligations.StackTemperature
  refine ⟨fun s k v => ?_, fun s k h => exec_dramTempRead_none_few h, fun s k h => ?_, fun s => ?_⟩
  · have reports := onlyReports_dramTemp (setTempFails s k.val 0) k.isLt v
    refine ⟨_, exec_dramTempRead_some k v s, ?_, reports.dramC_of_takeTemp, fun hot => ?_, fun cool => ?_, reports.mem,
      reports.cores, reports.nv⟩
    · rw [reports.stack_of_takeTemp, setTempFails_stack]
      rfl
    · rw [reports.stack_of_takeTemp]
      exact heated_hot hot _
    · rw [reports.stack_of_takeTemp, heated_drop_of_lt cool, setTempFails_stack]
  · have reports := onlyReports_dramTemp ((setTempFails s k.val 0).ror (Reg.hbmStatus k.val) 0x800) k.isLt 95
    refine ⟨_, exec_dramTempRead_none_third h, ?_, reports.dramC_of_takeTemp,
      reports.readings.sticky k.val k.isLt 11 ?_, ?_, reports.mem, reports.cores, reports.nv⟩
    · rw [reports.stack_of_takeTemp, State.ror_stack, setTempFails_stack]
      rfl
    · rw [rbit_hbmStatus_takeTemp, rbit_ror_same]
      exact Bool.or_eq_true_iff.mpr (.inr rfl)
    · rw [reports.stack_of_takeTemp]
      exact (heated_hot (by decide) _).1
  · have stepped := limitsStepped_range s 24 (Nat.le_refl _)
    exact ⟨_, rfl, stepped.stepped, stepped.mem, stepped.cores, stepped.nv, stepped.arm, stepped.mod⟩

end Sys2Proof.Machine

/-! SUPPORT. Writes to stacked memory (R339, R343 to R345). Whatever codes a block is described once, by `OnlyCodes`: it
changes the Calender's records and registers and the copies of them in the Vat map. A write to stacked memory is the
bytes written, and coding. -/
namespace Sys2Proof.Machine

/-! What coding a block changes -/

/-- From `s` to `t` only the records of the Calender change, with its registers and what the Vat map copies of them. -/
structure OnlyCodes (s t : State) : Prop where
  only : ∃ g c m, t = { s with regs := g, cal := c, vat := { s.vat with map := m } }
  frame : ∀ p, (t.page p).frame = (s.page p).frame
  regs : ∀ a, a < 0x70000 → t.rget a = s.rget a

theorem OnlyCodes.refl (s : State) : OnlyCodes s s := ⟨⟨_, _, _, rfl⟩, fun _ => rfl, fun _ _ => rfl⟩

theorem OnlyCodes.trans {s t u : State} (h : OnlyCodes s t) (k : OnlyCodes t u) : OnlyCodes s u where
  only := by
    obtain ⟨_, _, _, rfl⟩ := h.only
    obtain ⟨_, _, _, rfl⟩ := k.only
    exact ⟨_, _, _, rfl⟩
  frame p := (k.frame p).trans (h.frame p)
  regs a ha := (k.regs a ha).trans (h.regs a ha)

theorem OnlyCodes.ite {s t u : State} {c : Prop} [Decidable c] (h : OnlyCodes s t) (k : OnlyCodes s u) :
    OnlyCodes s (if c then t else u) := by
  split
  · exact h
  · exact k

theorem OnlyCodes.rset {s t : State} (h : OnlyCodes s t) {a : Nat} (ha : 0x70000 ≤ a) (v : Word32) :
    OnlyCodes s (t.rset a v) :=
  h.trans ⟨⟨_, _, _, rfl⟩, fun _ => rfl, fun b hb => State.rget_rset_ne t (by omega) v⟩

theorem OnlyCodes.modFrec {s t : State} (h : OnlyCodes s t) (n : Nat) (f : FrameRec → FrameRec) :
    OnlyCodes s (t.modFrec n f) :=
  h.trans ⟨⟨_, _, _, rfl⟩, fun _ => rfl, fun _ _ => rfl⟩

theorem OnlyCodes.modBlock {s t : State} (h : OnlyCodes s t) (blk : Nat) (f : IndexEnt → IndexEnt) :
    OnlyCodes s (modBlock t blk f) :=
  h.modFrec _ _

theorem OnlyCodes.setGather {s t : State} (h : OnlyCodes s t) (k : Nat) (l : List GatherBlk) :
    OnlyCodes s (setGather t k l) :=
  h.trans ⟨⟨_, _, _, rfl⟩, fun _ => rfl, fun _ _ => rfl⟩

/-- COMP and DTSLOT of a page are copied; its frame is not touched. -/
theorem OnlyCodes.syncComp {s t : State} (h : OnlyCodes s t) (f : Nat) : OnlyCodes s (syncComp t f) := by
  refine h.trans ?_
  unfold Machine.syncComp
  split
  next => exact .refl t
  next p _ =>
    refine ⟨⟨_, _, _, rfl⟩, fun q => ?_, fun _ _ => rfl⟩
    rw [State.modPage_page]
    split
    next hq => rw [hq]
    next => rfl

/-- A block coded in one of the two coded forms is counted. -/
theorem OnlyCodes.counted {s t : State} (h : OnlyCodes s t) (blk n f : Nat) (e : IndexEnt → IndexEnt) :
    OnlyCodes s (Machine.syncComp (((Machine.modBlock t blk e).radd Reg.calBlocksCoded 1).radd Reg.calUnitsSaved n) f) :=
  (((h.modBlock blk e).rset (by decide) _).rset (by decide) _).syncComp f

theorem onlyCodes_codeBlock (s : State) (blk : Nat) (rectified poison : Bool) :
    OnlyCodes s (codeBlock s blk rectified poison) := by
  have refl := OnlyCodes.refl s
  unfold codeBlock
  simp only
  refine .ite ((refl.modBlock _ _).syncComp _) (.ite (refl.modBlock _ _) (.ite (refl.counted _ _ _ _)
    (.ite (((refl.modBlock _ _).rset (by decide) _).syncComp _) (.ite ?_ (refl.counted _ _ _ _)))))
  split
  · exact OnlyCodes.counted (.ite refl (refl.modFrec _ _)) _ _ _ _
  · exact refl

theorem onlyCodes_partialBlock (s : State) (blk : Nat) (poison : Bool) : OnlyCodes s (partialBlock s blk poison) := by
  have flagged : OnlyCodes s (if (blockEnt s blk).poison then s.ror (Reg.calStatus (frameStack (blk / 512))) 0x20 else s) :=
    .ite ((OnlyCodes.refl s).rset (by unfold Reg.calStatus; omega) _) (.refl s)
  exact .ite (flagged.modBlock _ _) (flagged.trans (onlyCodes_codeBlock _ _ _ _))

theorem onlyCodes_flushEntry (s : State) (g : GatherBlk) : OnlyCodes s (flushEntry s g) :=
  .ite (onlyCodes_codeBlock s _ _ _) (onlyCodes_partialBlock s _ _)

theorem onlyCodes_gatherWrite (s : State) (blk off n : Nat) (poison : Bool) :
    OnlyCodes s (gatherWrite s blk off n poison) := by
  have set := (OnlyCodes.refl s).setGather
  unfold gatherWrite
  simp only
  split
  next => exact .ite ((set _ _).trans (onlyCodes_flushEntry _ _)) (set _ _)
  next =>
    refine .ite (set _ _) ?_
    split
    next => exact ((set _ _).trans (onlyCodes_flushEntry _ _)).setGather _ _
    next => exact set _ _

/-! Writes -/

theorem memWrite_append (bs cs : List Byte) : ∀ (m : SMap Byte) (a : Nat),
    memWrite (memWrite m a bs) (a + bs.length) cs = memWrite m a (bs ++ cs) := by
  induction bs with
  | nil => intro m a; rfl
  | cons b r ih =>
    intro m a
    rw [memWrite, List.length_cons, show a + (r.length + 1) = a + 1 + r.length by omega, ih, List.cons_append, memWrite]

theorem State.wr_wr_append (s : State) (a : Nat) (bs cs : List Byte) :
    (s.wr a bs).wr (a + bs.length) cs = s.wr a (bs ++ cs) :=
  congrArg (fun m => { s with mem := m }) (memWrite_append bs cs s.mem a)

/-- Coding before a write is coding after it, as far as the bytes go. -/
theorem OnlyCodes.wr {s t : State} (h : OnlyCodes s t) (a : Nat) (bs : List Byte) :
    OnlyCodes (s.wr a bs) (t.wr a bs) := by
  refine ⟨?_, h.frame, h.regs⟩
  obtain ⟨_, _, _, rfl⟩ := h.only
  exact ⟨_, _, _, rfl⟩

/-- Bytes that follow one another are written one part after the other. -/
theorem OnlyCodes.wr_append {s t u : State} {a b : Nat} {bs cs : List Byte} (h : OnlyCodes (s.wr a bs) t)
    (k : OnlyCodes (t.wr b cs) u) (hb : b = a + bs.length) : OnlyCodes (s.wr a (bs ++ cs)) u := by
  subst hb
  rw [← State.wr_wr_append]
  exact (h.wr _ _).trans k

/-- A write within a block is its bytes, and coding. -/
theorem onlyCodes_calWriteBlock (s : State) (a : Nat) (bs : List Byte) (poison rectified : Bool) :
    OnlyCodes (s.wr a bs) (calWriteBlock s a bs poison rectified) := by
  have written := OnlyCodes.refl (s.wr a bs)
  have marked : OnlyCodes (s.wr a bs)
      (if poison then modBlock (s.wr a bs) (a / 4096) fun e => { e with poison := true } else s.wr a bs) :=
    .ite (written.modBlock _ _) written
  exact .ite (OnlyCodes.trans (.ite (written.setGather _ _) written) (onlyCodes_codeBlock _ _ _ _))
    (.ite (marked.trans (onlyCodes_gatherWrite _ _ _ _ _)) (marked.trans (onlyCodes_partialBlock _ _ _)))

/-- A write of blocks is the bytes that its fuel reaches, and coding. -/
theorem onlyCodes_calWrite (poison rectified : Bool) : ∀ (n : Nat) (s : State) (a : Nat) (bs : List Byte),
    ∃ cs, OnlyCodes (s.wr a cs) (calWrite n s a bs poison rectified) ∧
      (a % 4096 + bs.length ≤ 4096 * n → cs = bs) := by
  intro n
  induction n with
  | zero => exact fun s a bs => ⟨[], .refl s, fun h => (List.eq_nil_of_length_eq_zero (by omega)).symm⟩
  | succ n ih =>
    intro s a bs
    rw [calWrite]
    by_cases hb : bs = []
    · subst hb; exact ⟨[], .refl s, fun _ => rfl⟩
    rw [if_neg (by simpa using hb)]
    simp only
    generalize hh : 4096 - a % 4096 = h
    have first := onlyCodes_calWriteBlock s a (bs.take h) poison rectified
    by_cases hl : bs.length ≤ h
    · rw [List.drop_eq_nil_of_le hl, List.take_of_length_le hl] at *
      refine ⟨bs, first.trans ?_, fun _ => rfl⟩
      cases n <;> exact .refl _
    · obtain ⟨cs, hcs, eq⟩ := ih (calWriteBlock s a (bs.take h) poison rectified) (a + h) (bs.drop h)
      refine ⟨bs.take h ++ cs, first.wr_append hcs (by rw [List.length_take]; omega), fun hf => ?_⟩
      rw [eq (by rw [List.length_drop]; omega), List.take_append_drop]

theorem onlyCodes_devWr (s : State) (a : Nat) {bs : List Byte} (h : bs.length ≤ 4096 * 1023) :
    OnlyCodes (s.wr a bs) (s.devWr a bs) := by
  obtain ⟨cs, hcs, eq⟩ := onlyCodes_calWrite false false 1024 s a bs
  rw [eq (by omega)] at hcs
  exact hcs

end Sys2Proof.Machine

/-! SUPPORT. What leaves the links alone. Answers, notices, entries of the error ring, writes of the device and the
teardown of a context touch neither a link nor the chain layer nor flash, and of the registers neither READY nor the boot
phase: `ChainStands` says so, and is proved once for each of these operations. -/
namespace Sys2Proof.Machine

/-- The links and the two registers that say how far bring-up has come are the same. -/
structure LinksStand (s t : State) : Prop where
  links : t.links = s.links
  ready : t.rget Reg.plnReady = s.rget Reg.plnReady
  phase : t.rget Reg.plnBootPhase = s.rget Reg.plnBootPhase

theorem LinksStand.trans {s t u : State} (h : LinksStand s t) (k : LinksStand t u) : LinksStand s u :=
  ⟨k.links.trans h.links, k.ready.trans h.ready, k.phase.trans h.phase⟩

theorem LinksStand.link {s t : State} (h : LinksStand s t) (n : Nat) : t.link n = s.link n := by
  rw [State.link, h.links, State.link]

theorem LinksStand.afterBringUp {s t : State} (h : LinksStand s t) : afterBringUp t = afterBringUp s := by
  simp only [Machine.afterBringUp, State.rbit, State.rfld, State.rnat, h.ready, h.phase]

/-- The chain layer and flash are the same too. -/
structure ChainStands (s t : State) : Prop extends LinksStand s t where
  chain : t.chain = s.chain
  nv : t.nv = s.nv

theorem ChainStands.trans {s t u : State} (h : ChainStands s t) (k : ChainStands t u) : ChainStands s u :=
  ⟨h.toLinksStand.trans k.toLinksStand, k.chain.trans h.chain, k.nv.trans h.nv⟩

/-- A change of other parts of the state. -/
theorem ChainStands.of_same {s t : State} (hl : t.links = s.links) (hr : t.regs = s.regs) (hc : t.chain = s.chain)
    (hn : t.nv = s.nv) : ChainStands s t :=
  ⟨⟨hl, by rw [State.rget, State.rget, hr], by rw [State.rget, State.rget, hr]⟩, hc, hn⟩

theorem ChainStands.refl (s : State) : ChainStands s s := .of_same rfl rfl rfl rfl

theorem ChainStands.ite {s t u : State} {c : Prop} [Decidable c] (h : ChainStands s t) (k : ChainStands s u) :
    ChainStands s (if c then t else u) := by
  split
  · exact h
  · exact k

/-- A change that is made only under a condition. -/
theorem ChainStands.when {s t : State} {f : State → State} {c : Prop} [Decidable c] (h : ChainStands s t)
    (hf : ∀ u, ChainStands u (f u)) : ChainStands s (if c then f t else t) :=
  .ite (h.trans (hf t)) h

theorem ChainStands.foldl {β : Type} {f : State → β → State} (h : ∀ s b, ChainStands s (f s b)) :
    ∀ (l : List β) (s : State), ChainStands s (l.foldl f s)
  | [], s => .refl s
  | b :: r, s => (h s b).trans (ChainStands.foldl h r (f s b))

theorem OnlyCodes.chainStands {s t : State} (h : OnlyCodes s t) : ChainStands s t := by
  refine ⟨⟨?_, h.regs _ (by decide), h.regs _ (by decide)⟩, ?_, ?_⟩ <;> obtain ⟨_, _, _, rfl⟩ := h.only <;> rfl

/-! Registers -/

theorem chainStands_rset {a : Nat} (hr : Reg.plnReady ≠ a) (hp : Reg.plnBootPhase ≠ a) (s : State) (v : Word32) :
    ChainStands s (s.rset a v) :=
  ⟨⟨rfl, State.rget_rset_ne s hr v, State.rget_rset_ne s hp v⟩, rfl, rfl⟩

theorem chainStands_ror {a : Nat} (hr : Reg.plnReady ≠ a) (hp : Reg.plnBootPhase ≠ a) (b : Nat) (s : State) :
    ChainStands s (s.ror a b) :=
  chainStands_rset hr hp s _

theorem chainStands_radd {a : Nat} (hr : Reg.plnReady ≠ a) (hp : Reg.plnBootPhase ≠ a) (n : Nat) (s : State) :
    ChainStands s (s.radd a n) :=
  chainStands_rset hr hp s _

/-! Answers, notices and entries of the error ring (R438, R451, R456, R578) -/

theorem chainStands_notify (s : State) (m : Nat) : ChainStands s (notify s m) :=
  .ite (.refl s) (.ite (.refl s) (.ite (chainStands_ror (by decide) (by decide) _ s) (.of_same rfl rfl rfl rfl)))

theorem chainStands_sendSnoop (s : State) (line : Nat) (inv : Bool) : ChainStands s (sendSnoop s line inv) :=
  .ite (.refl s) ((chainStands_radd (a := Reg.cchSnoopsOut) (by decide) (by decide) 1 s).trans (.of_same rfl rfl rfl rfl))

theorem chainStands_flushOutbox : ∀ (n : Nat) (s : State) (m : Nat), ChainStands s (flushOutbox n s m)
  | 0, s, _ => .refl s
  | n + 1, s, m => by
    unfold flushOutbox
    split
    next => exact .refl s
    next l r _ =>
      have written : ChainStands s ((s.wr (csAddr (rspOff m (s.box m).rspWrite.toNat)) (lineBytes l)).modBox m
          fun b => { b with outbox := r, rspWrite := b.rspWrite + 1 }) := .of_same rfl rfl rfl rfl
      exact .ite (chainStands_sendSnoop s _ _)
        ((written.trans (chainStands_notify _ m)).trans (chainStands_flushOutbox n _ m))

theorem chainStands_writeRsp (s : State) (m : Nat) (l : Line) : ChainStands s (writeRsp s m l) :=
  ChainStands.trans (t := s.modBox m fun b => { b with outbox := b.outbox ++ [l] }) (.of_same rfl rfl rfl rfl)
    (chainStands_flushOutbox 64 _ m)

/-- An event is folded into its last entry, or appended with its marks: lost, interrupting, retired, transient. -/
theorem chainStands_ringPut (s : State) (e : Event) : ChainStands s (ringPut s e).1 := by
  have marked : ∀ b (u : State), ChainStands u (u.ror Reg.plnErrStatus b) := chainStands_ror (by decide) (by decide)
  unfold ringPut
  simp only
  split
  next => exact .of_same rfl rfl rfl rfl
  next =>
    have held (a : ArmSt) : ChainStands s { s with arm := a } := .of_same rfl rfl rfl rfl
    have appended (a : ArmSt) (v w : Word32) := ((held a).trans (chainStands_rset (a := Reg.plnErrSeq) (by decide)
      (by decide) _ v)).trans (chainStands_rset (a := Reg.plnErrHead) (by decide) (by decide) _ w)
    exact ((((appended _ _ _).when (marked 1)).when fun u =>
      (marked 2 u).trans (chainStands_radd (a := Reg.plnInterrupts) (by decide) (by decide) 1 _)).when fun u =>
      (marked 4 u).trans (chainStands_radd (a := Reg.plnRetirements) (by decide) (by decide) 1 _)).when
      (chainStands_radd (a := Reg.plnTransients) (by decide) (by decide) 1)

theorem chainStands_postNotice (s : State) (m : Nat) (l : Line) : ChainStands s (postNotice s m l) :=
  .ite ((chainStands_writeRsp s m l).trans (chainStands_radd (by decide) (by decide) 1 _))
    (.ite (.of_same rfl rfl rfl rfl)
      ((chainStands_ror (by decide) (by decide) 1 s).trans (chainStands_ringPut _ _)))

theorem chainStands_ringAdd (s : State) (e : Event) : ChainStands s (ringAdd s e) := by
  have put := chainStands_ringPut s e
  unfold ringAdd
  split
  next s1 i hp =>
    rw [hp] at put
    exact put.when fun u => chainStands_postNotice u 0 _
  next s1 hp =>
    rw [hp] at put
    exact put

/-- An answer, and the answer to the revoker once it was the mailbox's last. -/
theorem chainStands_respond (s : State) (m sn : Nat) (a : Ans) : ChainStands s (respond s m sn a) := by
  have answer (u : State) (k : Nat) (l : Line) : ChainStands u ((writeRsp u k l).radd Reg.plnCmdDone 1) :=
    (chainStands_writeRsp u k l).trans (chainStands_radd (by decide) (by decide) 1 _)
  have box (u : State) (k : Nat) (f : Mailbox → Mailbox) : ChainStands u (u.modBox k f) := .of_same rfl rfl rfl rfl
  have flag : ∀ b (u : State), ChainStands u (u.ror Reg.plnArmStatus b) := chainStands_ror (by decide) (by decide)
  unfold respond
  split
  next => exact .refl s
  next ip _ =>
    extract_lets s1 s2 s3 s4
    have answered : ChainStands s s2 := (box s m _).trans (answer s1 m _)
    have flagged : ChainStands s s4 := (answered.when (c := a.status = stInvalid) (flag 2)).when (flag 4)
    refine flagged.trans ?_
    split
    next =>
      refine .ite ?_ (.refl _)
      simp only
      split
      next => exact box _ _ _
      next => exact ((box _ m _).trans (box _ _ _)).trans (answer _ _ _)
    next => exact .refl _

/-! Writes of the device (R429, R482) -/

theorem chainStands_calWrite (n : Nat) (s : State) (a : Nat) (bs : List Byte) (poison rectified : Bool) :
    ChainStands s (calWrite n s a bs poison rectified) := by
  obtain ⟨cs, h, _⟩ := onlyCodes_calWrite poison rectified n s a bs
  exact ChainStands.trans (t := s.wr a cs) (.of_same rfl rfl rfl rfl) h.chainStands

theorem chainStands_armWrite (s : State) (a : Nat) (bs : List Byte) (x : Nat) : ChainStands s (armWrite s a bs x) := by
  unfold armWrite
  split
  next => exact chainStands_calWrite _ _ _ _ _ _
  next =>
    have sent (u : State) (l : Nat × Nat × List Byte) (p : CchPkt) (y : CchUse) :
        ChainStands u (requestCch (dropCached u (l.1 - compBase) 64) p y) := .of_same rfl rfl rfl rfl
    exact ChainStands.trans (t := s.wr a bs) (.of_same rfl rfl rfl rfl) (.foldl (fun u l => sent u l _ _) _ _)
  next => exact .of_same rfl rfl rfl rfl

/-! Streams (R270, R272, R277) -/

theorem chainStands_toIdle (s : State) (id : Nat) : ChainStands s (toIdle s id) :=
  ChainStands.trans (t := clearSlot s (eCore (strGet s id)) (eSlot (strGet s id))) (.of_same rfl rfl rfl rfl)
    (chainStands_calWrite _ _ _ _ _ _)

theorem chainStands_rollbackStream (s : State) (id : Nat) : ChainStands s (rollbackStream s id) :=
  .ite ((chainStands_toIdle s id).trans (chainStands_ror (by decide) (by decide) 1 _))
    (.ite (chainStands_toIdle s id) (.refl s))

theorem chainStands_freeStream (s : State) (id : Nat) : ChainStands s (freeStream s id) := by
  have cleared : ChainStands s (if 2 ≤ eState (strGet s id) ∧ eState (strGet s id) ≤ 4
      then clearSlot s (eCore (strGet s id)) (eSlot (strGet s id)) else s) := .ite (.of_same rfl rfl rfl rfl) (.refl s)
  exact (cleared.trans (chainStands_calWrite _ _ _ _ _ _)).trans (.of_same rfl rfl rfl rfl)

/-! Teardown (R27, R43, R161, R477, R497) -/

theorem chainStands_clearCore (s : State) (c : Nat) : ChainStands s (clearCore s c) := by
  unfold clearCore
  extract_lets old s1 keep s2
  have zeroed : ChainStands s s1 := .of_same rfl rfl rfl rfl
  have freed : ChainStands s1 s2 := .foldl (fun _ _ => by exact .of_same rfl rfl rfl rfl) _ s1
  exact (zeroed.trans freed).trans (.of_same rfl rfl rfl rfl)

theorem chainStands_stopQuires (s : State) (quires : BitVec 128) : ChainStands s (stopQuires s quires) := by
  unfold stopQuires
  extract_lets s1
  have cleared : ChainStands s s1 := .foldl (fun u c => by
    have dropped : ChainStands u (dropQueued u c) := .foldl (fun v _ => chainStands_calWrite _ v _ _ _ _) _ u
    have rolled := dropped.trans (.foldl chainStands_rollbackStream (residentOn u c) _)
    exact .ite rolled (rolled.trans (chainStands_clearCore _ c))) _ s
  exact cleared.trans (.foldl (fun _ _ => by exact .of_same rfl rfl rfl rfl) _ s1)

theorem chainStands_endLaunch (s : State) (w : Work) (status detail : Nat) :
    ChainStands s (endLaunch s w status detail) := by
  have ended := (chainStands_armWrite s (w.block + 48) (leBytes 2 status) w.ctx).trans
    (chainStands_armWrite _ (w.block + 50) [BitVec.ofNat 8 (if w.st = .waiting then 2 else 3)] w.ctx)
  exact .ite (ended.when fun u => chainStands_armWrite u _ _ _) (.refl s)

theorem chainStands_dropWorks (s : State) (p x code : Nat) : ChainStands s (dropWorks s p x code) := by
  unfold dropWorks
  extract_lets P run wait s1 s2 base s3
  have stopped : ChainStands s s1 := .foldl (fun u w => by
    have quires : ChainStands u (if w.2.st = .running ∨ w.2.st = .preempting then stopQuires u w.2.quires else u) :=
      (ChainStands.refl u).when fun v => chainStands_stopQuires v _
    exact quires.trans (chainStands_endLaunch _ _ _ _)) run s
  have ended : ChainStands s1 s2 := .foldl (fun u w => chainStands_endLaunch u w _ _) wait s1
  exact (stopped.trans ended).trans (.of_same rfl rfl rfl rfl)

theorem chainStands_dropGroup (s : State) (g code : Nat) : ChainStands s (dropGroup s g code) := by
  unfold dropGroup
  extract_lets s1 s2 P
  have answered : ChainStands s s1 := .foldl (fun u r => chainStands_respond u _ _ _) _ s
  have released : ChainStands s1 s2 := .foldl
    (fun u b => (chainStands_freeStream u b).trans (by exact .of_same rfl rfl rfl rfl)) _ s1
  clear_value s2
  exact (answered.trans released).trans (.of_same rfl rfl rfl rfl)

theorem chainStands_failCommands (s : State) (x code : Nat) : ChainStands s (failCommands s x code) :=
  .foldl (fun u _ => .foldl (fun v _ => chainStands_respond v _ _ _) _ u) _ s

theorem chainStands_finishRevokes (s : State) : ChainStands s (finishRevokes s) := by
  refine .foldl (fun u ip => ?_) _ s
  have erased (l : List Nat) (first : Nat) : ChainStands u (l.foldl (fun v i => eraseFrame v (first + i)) u) :=
    .foldl (fun _ _ => by exact .of_same rfl rfl rfl rfl) l u
  exact .ite ((erased _ _).trans (chainStands_respond _ _ _ _)) (.of_same rfl rfl rfl rfl)

theorem chainStands_teardownStart (s : State) (x code : Nat) (byFault : Bool) :
    ChainStands s (teardownStart s x code byFault) := by
  unfold teardownStart
  extract_lets s1 s2 own s3 mine act vat s4
  have marked : ChainStands s s1 := .of_same rfl rfl rfl rfl
  have dropped : ChainStands s1 s2 := .foldl (fun u p => chainStands_dropWorks u p x code) _ s1
  have rolled : ChainStands s2 (own.foldl rollbackStream s2) := .foldl chainStands_rollbackStream own s2
  have closed : ChainStands (own.foldl rollbackStream s2) s3 := .foldl (fun u g => chainStands_dropGroup u g code) _ _
  have unqueued : ChainStands s3 s4 := .of_same rfl rfl rfl rfl
  exact ((marked.trans dropped).trans (rolled.trans closed)).trans (unqueued.trans
    ((chainStands_failCommands s4 x code).trans (chainStands_finishRevokes _)))

theorem chainStands_faultCtx (s : State) (x code : Nat) (core : Option Nat) (origin : Nat) :
    ChainStands s (faultCtx s x code core origin) := by
  unfold faultCtx
  extract_lets first s1 arm s2 s3 part s4 s5
  have flagged : ChainStands s s1 := .ite (.refl s) (chainStands_ror (by decide) (by decide) 8 s)
  have seen : ChainStands s1 s2 := .ite (.of_same rfl rfl rfl rfl) (.refl s1)
  have recorded : ChainStands s2 s3 := .of_same rfl rfl rfl rfl
  have torn : ChainStands s3 s5 := (chainStands_ringAdd s3 _).trans (chainStands_teardownStart s4 x code true)
  exact .ite (.refl s) (((flagged.trans seen).trans (recorded.trans torn)).trans (chainStands_postNotice s5 _ _))

end Sys2Proof.Machine

/-! SUPPORT. The training of links (R400 to R402, R416, R420, R421, R441): lane groups and width, the retirement of
groups, a link that finds no peer, and what follows EXCHANGE. -/
namespace Sys2Proof.Machine

/-! Lane groups and width (R402) -/

/-- The groups that a chain link uses do not depend on which link it is. -/
theorem useGroups_of_lt {l : Nat} (h : l < 32) (u : Nat) : useGroups l u = useGroups 0 u := by
  simp only [useGroups, show ¬(l = 32 ∧ (bitsOf 8 u).length = 8) by omega,
    show ¬((0 : Nat) = 32 ∧ (bitsOf 8 u).length = 8) by omega]

theorem useGroups_testBit : ∀ u, u < 16 → ∀ g, g < 4 →
    (useGroups 0 u).testBit g = (u.testBit g && (popCount 4 u == 4 || decide (popCount g u < 2))) := by
  decide

theorem widthCode_useGroups : ∀ u, u < 16 → (popCount 4 u = 4 → widthCode (useGroups 0 u) = 3) ∧
    (popCount 4 u = 2 ∨ popCount 4 u = 3 → widthCode (useGroups 0 u) = 2) ∧
    (popCount 4 u = 1 → widthCode (useGroups 0 u) = 1) := by
  decide

/-! One link changes -/

/-- Of the links only `n` differs. -/
def OnlyLink (n : Nat) (s t : State) : Prop := ∀ k, k ≠ n → t.link k = s.link k

theorem OnlyLink.trans {n : Nat} {s t u : State} (h : OnlyLink n s t) (k : OnlyLink n t u) : OnlyLink n s u :=
  fun j hj => (k j hj).trans (h j hj)

theorem onlyLink_modLink (s : State) (n : Nat) (f : Link → Link) : OnlyLink n s (s.modLink n f) :=
  fun _ hk => s.modLink_link_ne n f hk

theorem OnlyLink.of_links {n : Nat} {s t : State} (h : t.links = s.links) : OnlyLink n s t :=
  fun k _ => by rw [State.link, h, State.link]

theorem link_of_links {s t : State} (h : t.links = s.links) (n : Nat) : t.link n = s.link n := by
  rw [State.link, h, State.link]

/-- A flag of a link is a bit of one of its registers. -/
theorem chainStands_linkFlag (s : State) (l b : Nat) : ChainStands s (linkFlag s l b) := by
  have couch : ∀ b (u : State), ChainStands u (u.ror Reg.cchStatus b) := chainStands_ror (by decide) (by decide)
  exact .ite (.ite (couch _ s) (.ite (couch _ s) (.refl s)))
    (chainStands_ror (by unfold Reg.plnReady Reg.chnLinkFlags; omega)
      (by unfold Reg.plnBootPhase Reg.chnLinkFlags; omega) _ s)

/-! Retired lane groups (R400, R401) -/

theorem setFld_one_testBit (v g i : Nat) : (setFld v g 1 1).testBit i = (v.testBit i || decide (i = g)) := by
  have low : v % 2 ^ g < 2 ^ g := Nat.mod_lt _ (Nat.two_pow_pos g)
  have eq : setFld v g 1 1 = 2 ^ g * (2 * (v / 2 ^ (g + 1)) + 1) + v % 2 ^ g := by
    rw [setFld, Nat.pow_succ, Nat.mul_add, Nat.mul_one, Nat.one_mod_eq_one.mpr (by decide), Nat.one_mul,
      Nat.mul_comm (v / _), Nat.mul_assoc]
  rw [eq, Nat.testBit_two_pow_mul_add _ low]
  split
  next h => rw [Nat.testBit_mod_two_pow, decide_eq_true h, Bool.true_and, decide_eq_false (by omega), Bool.or_false]
  next h =>
    obtain ⟨j, rfl⟩ := Nat.exists_eq_add_of_le (Nat.le_of_not_lt h)
    cases j with
    | zero => simp
    | succ j =>
      have skip : g + (j + 1) - g = j + 1 := by omega
      have above : (2 * (v / 2 ^ (g + 1)) + 1) / 2 = v / 2 ^ (g + 1) := by omega
      rw [skip, Nat.testBit_succ, above, Nat.testBit_div_two_pow, decide_eq_false (by omega), Bool.or_false,
        show j + (g + 1) = g + (j + 1) by omega]

/-- One lane group is retired, with its flag and its entry in the error ring. -/
def retireGroup (l cause : Nat) (s : State) (g : Nat) : State :=
  if bit (s.link l).retired.toNat g then s else
  let s1 := linkFlag (s.modLink l fun L => { L with retired := BitVec.ofNat 8 (setFld L.retired.toNat g 1 1) }) l 3
  ringAdd s1 { kind := 0x31, cls := .permanent, unitType := if l = 32 then 10 else 9
               unit := if l = 32 then g else l * 4 + g, detail := detailOf [(28, 1, cause)], retired := true }

theorem retireGroups_eq (s : State) (l mask cause : Nat) :
    retireGroups s l mask cause = (bitsOf 8 mask).foldl (retireGroup l cause) s := rfl

theorem retireGroup_link {l g : Nat} (cause : Nat) {s : State} (h : bit (s.link l).retired.toNat g = false) (k : Nat) :
    (retireGroup l cause s g).link k =
      (s.modLink l fun L => { L with retired := BitVec.ofNat 8 (setFld L.retired.toNat g 1 1) }).link k := by
  rw [retireGroup, if_neg (by simp [h])]
  exact ((chainStands_linkFlag _ l 3).trans (chainStands_ringAdd _ _)).link k

theorem retireGroup_retired {g : Nat} (hg : g < 8) (l cause : Nat) (s : State) (i : Nat) :
    ((retireGroup l cause s g).link l).retired.toNat.testBit i =
      ((s.link l).retired.toNat.testBit i || decide (i = g)) := by
  cases h : bit (s.link l).retired.toNat g with
  | true =>
    rw [retireGroup, if_pos h]
    by_cases hi : i = g
    · rw [hi, ← bit_eq_testBit, h, Bool.true_or]
    · rw [decide_eq_false hi, Bool.or_false]
  | false =>
    rw [retireGroup_link cause h, State.modLink_link_same, BitVec.toNat_ofNat, Nat.testBit_mod_two_pow,
      setFld_one_testBit]
    by_cases hi : i < 8
    · rw [decide_eq_true hi, Bool.true_and]
    · rw [decide_eq_false hi, Bool.false_and, BitVec.testBit_toNat, BitVec.getLsbD_of_ge _ _ (by omega),
        decide_eq_false (by omega), Bool.or_false]

theorem onlyLink_retireGroup (l cause : Nat) (s : State) (g : Nat) : OnlyLink l s (retireGroup l cause s g) := by
  cases h : bit (s.link l).retired.toNat g with
  | true => rw [retireGroup, if_pos h]; exact fun _ _ => rfl
  | false => exact fun k hk => by rw [retireGroup_link cause h, State.modLink_link_ne _ _ _ hk]

theorem onlyLink_retireGroups (s : State) (l mask cause : Nat) : OnlyLink l s (retireGroups s l mask cause) := by
  rw [retireGroups_eq]
  generalize bitsOf 8 mask = gs
  induction gs generalizing s with
  | nil => exact fun _ _ => rfl
  | cons g r ih => exact (onlyLink_retireGroup l cause s g).trans (ih _)

theorem foldl_retireGroup_retired (l cause i : Nat) (gs : List Nat) : ∀ s : State, (∀ g, g ∈ gs → g < 8) →
    ((gs.foldl (retireGroup l cause) s).link l).retired.toNat.testBit i =
      ((s.link l).retired.toNat.testBit i || decide (i ∈ gs)) := by
  induction gs with
  | nil => intro s _; simp
  | cons g r ih =>
    intro s hg
    rw [List.foldl_cons, ih _ fun k hk => hg k (List.mem_cons_of_mem _ hk),
      retireGroup_retired (hg g List.mem_cons_self), Bool.or_assoc]
    simp [List.mem_cons]

/-- The groups of a mask are retired, and those retired before stay so. -/
theorem retireGroups_retired {mask : Nat} (hm : mask < 256) (s : State) (l cause : Nat) :
    ((retireGroups s l mask cause).link l).retired.toNat = (s.link l).retired.toNat ||| mask := by
  refine Nat.eq_of_testBit_eq fun i => ?_
  have mem : i ∈ bitsOf 8 mask ↔ mask.testBit i = true := by
    rw [bitsOf, List.mem_filter, List.mem_range, bit_eq_testBit, and_iff_right_iff_imp]
    intro h
    refine Nat.lt_of_not_le fun h8 => ?_
    rw [Nat.testBit_lt_two_pow (Nat.lt_of_lt_of_le hm (Nat.pow_le_pow_right (n := 2) (by decide) h8))] at h
    cases h
  have small : ∀ g, g ∈ bitsOf 8 mask → g < 8 := fun g hg => List.mem_range.mp (List.mem_filter.mp hg).1
  rw [retireGroups_eq, foldl_retireGroup_retired l cause i _ s small, Nat.testBit_or]
  congr 1
  rw [Bool.eq_iff_iff, decide_eq_true_eq, mem]

/-! A link without a peer (R401) -/

theorem topoMismatch_links (s : State) : (topoMismatch s).links = s.links := by
  unfold topoMismatch
  exact (chainStands_ringAdd _ _).links

theorem trainDown_links (s : State) (l : Nat) :
    (trainDown s l).links = (s.modLink l fun L => { L with st := .down }).links := by
  have flagged := (chainStands_linkFlag (s.modLink l fun L => { L with st := .down }) l 4).links
  unfold trainDown
  extract_lets s1 s2
  have entered : s2.links = s1.links := (chainStands_ringAdd _ _).links
  split
  next => exact (chainStands_ringAdd _ _).links.trans flagged
  next =>
    split
    next => exact (topoMismatch_links _).trans (entered.trans flagged)
    next => exact entered.trans flagged

theorem trainDown_link (s : State) (l : Nat) : (trainDown s l).link l = { s.link l with st := .down } := by
  rw [link_of_links (trainDown_links s l), State.modLink_link_same]

theorem onlyLink_trainDown (s : State) (l : Nat) : OnlyLink l s (trainDown s l) :=
  (onlyLink_modLink s l _).trans (.of_links (trainDown_links s l))

theorem startTraining_link (s : State) (l : Nat) :
    ((startTraining s l).link l).st = .detect ∧ ((startTraining s l).link l).retired = (s.link l).retired := by
  rw [startTraining, State.modLink_link_same]
  exact ⟨rfl, rfl⟩

/-! Enabling and disabling (R401, R421) -/

theorem rput_zero_getLsbD (s : State) (a : Nat) (b : Bool) : ((s.rput a 0 b).rget a).getLsbD 0 = b := by
  have h := rfld_rsetFld_zero (n := 1) (by decide) s a (b2n b)
  rw [State.rfld, fld_zero, State.rnat] at h
  rw [BitVec.getLsbD, State.rput, Nat.testBit_zero, show (2 : Nat) = 2 ^ 1 from rfl, h]
  cases b <;> rfl

/-- Link `n` changes as `f` says, its enable bit is `b`, and no other part of the state but registers differs. -/
structure Switched (n : Nat) (b : Bool) (f : Link → Link) (s t : State) : Prop where
  only : ∃ g ls, t = { s with regs := g, links := ls }
  others : OnlyLink n s t
  own : t.link n = f (s.link n)
  bit : (t.rget (Reg.chnLinkCtl n)).getLsbD 0 = b

theorem switched_modLink (s : State) (n : Nat) (b : Bool) (f : Link → Link) :
    Switched n b f s ((s.rput (Reg.chnLinkCtl n) 0 b).modLink n f) :=
  ⟨⟨_, _, rfl⟩, onlyLink_modLink (s.rput (Reg.chnLinkCtl n) 0 b) n f, State.modLink_link_same _ n f,
    rput_zero_getLsbD s _ b⟩

theorem switched_rput (s : State) (n : Nat) (b : Bool) : Switched n b id s (s.rput (Reg.chnLinkCtl n) 0 b) :=
  ⟨⟨_, _, rfl⟩, fun _ _ => rfl, rfl, rput_zero_getLsbD s _ b⟩

theorem Switched.congr {n : Nat} {b : Bool} {f g : Link → Link} {s t : State} (h : Switched n b f s t)
    (hg : f (s.link n) = g (s.link n)) : Switched n b g s t :=
  { h with own := h.own.trans hg }

theorem Switched.rest {n : Nat} {b : Bool} {f : Link → Link} {s t : State} (h : Switched n b f s t) :
    (∀ k, k ≠ n → t.link k = s.link k) ∧ SameMemory s t ∧ t.arm = s.arm ∧ t.roll = s.roll := by
  refine ⟨h.others, ?_⟩
  obtain ⟨_, _, rfl⟩ := h.only
  exact ⟨⟨rfl, rfl, rfl⟩, rfl, rfl⟩

/-- A link once it has been enabled. -/
def enabled (L : Link) : Link :=
  match L.st with
  | .off => { (default : Link) with st := .detect, retired := L.retired, held := L.held, expHeld := L.expHeld }
  | .draining => { L with enableRec := true }
  | .retrain => { L with disableRec := false }
  | _ => L

/-- A link once it has been disabled. -/
def disabled (L : Link) : Link :=
  match L.st with
  | .up | .degraded => { L with st := .draining, enableRec := false }
  | .retrain => { L with disableRec := true }
  | .draining => { L with enableRec := false }
  | _ => L

theorem enableLink_switched (s : State) (n : Nat) : Switched n true enabled s (enableLink s n).1 := by
  unfold enableLink
  cases h : (s.link n).st with
  | off | draining | retrain => exact (switched_modLink s n true _).congr (by rw [enabled, h])
  | _ => exact (switched_rput s n true).congr (by rw [enabled, h]; rfl)

theorem disableLink_switched (s : State) (n : Nat) : Switched n false disabled s (disableLink s n) := by
  unfold disableLink
  cases h : (s.link n).st with
  | up | degraded | retrain | draining => exact (switched_modLink s n false _).congr (by rw [disabled, h])
  | _ => exact (switched_rput s n false).congr (by rw [disabled, h]; rfl)

theorem enabled_off {L : Link} (h : L.st = .off) : (enabled L).st = .detect ∧ (enabled L).retired = L.retired := by
  rw [enabled, h]; exact ⟨rfl, rfl⟩

theorem enabled_draining {L : Link} (h : L.st = .draining) :
    (enabled L).st = .draining ∧ (enabled L).enableRec = true := by
  rw [enabled, h]; exact ⟨rfl, rfl⟩

theorem enabled_not_off {L : Link} (h : L.st ≠ .off) : (enabled L).st = L.st := by
  unfold enabled
  split
  next off => exact absurd off h
  next => rfl
  next => rfl
  next => rfl

theorem disabled_up {L : Link} (h : L.isUp = true) : (disabled L).st = .draining := by
  have up : L.st = .up ∨ L.st = .degraded := by simpa [Link.isUp] using h
  obtain h | h := up <;> rw [disabled, h]

theorem disabled_not_up {L : Link} (h : L.isUp = false) : (disabled L).st = L.st := by
  have not_up : L.st ≠ .up ∧ L.st ≠ .degraded := by simpa [Link.isUp] using h
  unfold disabled
  split
  next up => exact absurd up not_up.1
  next degraded => exact absurd degraded not_up.2
  next => rfl
  next => rfl
  next => rfl

theorem disabled_retrain {L : Link} (h : L.st = .retrain) : (disabled L).disableRec = true := by
  rw [disabled, h]

/-! Steps of training (R401) -/

section
variable {l : LinkId} {s : State}

theorem exec_detect_next {g : BitVec 8} (h : (s.link l.val).st = .detect) (hg : g.toNat &&& offered s l.val ≠ 0) :
    exec (.detect l g) s = .next (s.modLink l.val fun L =>
      { L with st := .equalize, good := BitVec.ofNat 8 (g.toNat &&& offered s l.val) }) :=
  if_pos ⟨h, hg⟩

theorem exec_detect_idle {g : BitVec 8} (h : (s.link l.val).st ≠ .detect ∨ g.toNat &&& offered s l.val = 0) :
    exec (.detect l g) s = .next s :=
  if_neg fun ⟨hd, hg⟩ => h.elim (· hd) hg

theorem exec_alignDone_none {g : BitVec 8} (h : (s.link l.val).st = .align)
    (hu : (s.link l.val).good.toNat &&& (255 - (s.link l.val).retired.toNat) &&& g.toNat = 0) :
    exec (.alignDone l g) s = .next (trainDown (retireGroups s l.val
      ((s.link l.val).good.toNat &&& (255 - (s.link l.val).retired.toNat) &&& (255 - g.toNat)) 2) l.val) := by
  show execAlignDone l g s = _
  unfold execAlignDone
  rw [if_neg (not_not_intro h), if_pos hu]

theorem exec_alignDone_some {g : BitVec 8} (h : (s.link l.val).st = .align)
    (hu : (s.link l.val).good.toNat &&& (255 - (s.link l.val).retired.toNat) &&& g.toNat ≠ 0) :
    exec (.alignDone l g) s = .next ((retireGroups s l.val
      ((s.link l.val).good.toNat &&& (255 - (s.link l.val).retired.toNat) &&& (255 - g.toNat)) 2).modLink l.val fun L =>
        let usable := (s.link l.val).good.toNat &&& (255 - (s.link l.val).retired.toNat) &&& g.toNat
        { L with st := .exchange, good := BitVec.ofNat 8 usable
                 groups := BitVec.ofNat 8 (useGroups l.val usable) }) := by
  show execAlignDone l g s = _
  unfold execAlignDone
  rw [if_neg (not_not_intro h), if_neg hu]

theorem exec_downRetry_next (h : (s.link l.val).st = .down) (ht : l.val = 32 ∨ s.rbit Reg.chnCtrl 10 = true) :
    exec (.downRetry l) s = .next (startTraining s l.val) :=
  if_pos ⟨h, ht⟩

theorem exec_downRetry_idle (h : (s.link l.val).st ≠ .down ∨ l.val ≠ 32 ∧ s.rbit Reg.chnCtrl 10 = false) :
    exec (.downRetry l) s = .next s := by
  refine if_neg fun ⟨hd, ht⟩ => ?_
  obtain h | ⟨hn, hb⟩ := h
  · exact h hd
  · exact ht.elim hn fun on => Bool.false_ne_true (hb.symm.trans on)

/-- A drained link: OFF, with what outlasts a training. -/
def drainedLink (L : Link) : Link :=
  { (default : Link) with st := .off, retired := L.retired, held := L.held, expHeld := L.expHeld }

theorem exec_drainComplete_next (h : (s.link l.val).st = .draining) (hr : (s.link l.val).retry = []) :
    exec (.drainComplete l) s = .next (if (s.link l.val).enableRec then startTraining (s.modLink l.val drainedLink) l.val
      else s.modLink l.val drainedLink) :=
  if_pos ⟨h, by rw [hr]; rfl⟩

theorem exec_drainComplete_idle (h : (s.link l.val).st ≠ .draining ∨ (s.link l.val).retry ≠ []) :
    exec (.drainComplete l) s = .next s :=
  if_neg fun ⟨hd, hr⟩ => h.elim (· hd) fun hn => hn (List.isEmpty_iff.mp hr)

end

/-! EXCHANGE (R401, R416, R420, R441) -/

/-- Link `n` differs at most in its state, its keys and its acceptance, and the other links are the same. -/
structure LinkOpens (n : Nat) (s t : State) : Prop where
  own : ∃ a k m b, t.link n = { s.link n with st := a, key := k, transcript := m, accepted := b }
  others : OnlyLink n s t

theorem LinkOpens.trans {n : Nat} {s t u : State} (h : LinkOpens n s t) (k : LinkOpens n t u) : LinkOpens n s u := by
  refine ⟨?_, h.others.trans k.others⟩
  obtain ⟨_, _, _, _, hs⟩ := h.own
  obtain ⟨_, _, _, _, ht⟩ := k.own
  exact ⟨_, _, _, _, by rw [ht, hs]⟩

theorem LinkOpens.of_links {n : Nat} {s t : State} (h : t.links = s.links) : LinkOpens n s t :=
  ⟨⟨_, _, _, _, link_of_links h n⟩, .of_links h⟩

theorem linkOpens_modLink {n : Nat} {f : Link → Link} (s : State)
    (h : ∃ a k m b, f (s.link n) = { s.link n with st := a, key := k, transcript := m, accepted := b }) :
    LinkOpens n s (s.modLink n f) :=
  ⟨by rw [State.modLink_link_same]; exact h, onlyLink_modLink s n f⟩

theorem linkOpens_leaveHeld (s : State) (n : Nat) : LinkOpens n s (leaveHeld s n) := by
  unfold leaveHeld
  simp only
  split
  next => exact linkOpens_modLink s ⟨_, _, _, _, rfl⟩
  next => exact .of_links rfl

theorem linkOpens_lateLink (s : State) (n : Nat) : LinkOpens n s (lateLink s n) := by
  unfold lateLink
  split
  next => exact .of_links rfl
  split
  next =>
    have accepted : LinkOpens n s (s.modLink n fun L => { L with accepted := true }) :=
      linkOpens_modLink s ⟨_, _, _, _, rfl⟩
    have agreed := accepted.trans (.of_links (t := topoLink (s.modLink n fun L => { L with accepted := true }) n true) rfl)
    exact agreed.trans (linkOpens_leaveHeld _ n)
  next => exact .of_links (chainStands_linkFlag s n 5).links

theorem linkOpens_startKeys (s : State) (n : Nat) : LinkOpens n s (startKeys s n) := by
  unfold startKeys
  extract_lets L cert s1
  have started : LinkOpens n s s1 := linkOpens_modLink s ⟨_, _, _, _, rfl⟩
  split
  next => exact .of_links rfl
  next => exact started.trans (.of_links rfl)

/-- The start of a key exchange leaves the link's state alone. -/
theorem startKeys_st (s : State) (n : Nat) : ((startKeys s n).link n).st = (s.link n).st := by
  unfold startKeys
  simp only
  split
  next => rfl
  next =>
    show ((s.modLink n _).link n).st = _
    rw [State.modLink_link_same]

theorem startKeys_afterBringUp (s : State) (n : Nat) : afterBringUp (startKeys s n) = afterBringUp s := by
  unfold startKeys
  simp only
  split <;> rfl

theorem lateLink_before {s : State} (h : afterBringUp s = false) (n : Nat) : lateLink s n = s := by
  rw [lateLink, h]
  rfl

/-! What a device hears of the manager (R419, R420) -/

theorem linksStand_chain (s : State) (c : ChainSt) : LinksStand s { s with chain := c } := ⟨rfl, rfl, rfl⟩

theorem LinksStand.ite {s t u : State} {c : Prop} [Decidable c] (h : LinksStand s t) (k : LinksStand s u) :
    LinksStand s (if c then t else u) := by
  split
  · exact h
  · exact k

theorem linksStand_demote (s : State) (epoch slot : Nat) : LinksStand s (demote s epoch slot) := by
  unfold demote
  extract_lets gs s1 chain s2
  have dropped : LinksStand s s1 := (ChainStands.foldl (fun u g => chainStands_dropGroup u g 0) gs s).toLinksStand
  have left : LinksStand s1 s2 := LinksStand.trans (t := { s1 with chain := { chain with role := 0 } })
    (linksStand_chain s1 _) (chainStands_ror (a := Reg.chnStatus) (by decide) (by decide) 4 _).toLinksStand
  exact (dropped.trans left).trans (chainStands_ringAdd s2 _).toLinksStand

theorem linksStand_seeManager (s : State) (slot : Nat) (isMgr : Bool) (epoch : Nat) :
    LinksStand s (seeManager s slot isMgr epoch) := by
  have refl : LinksStand s s := (ChainStands.refl s).toLinksStand
  have demoted := linksStand_demote s epoch slot
  exact .ite refl (.ite ((LinksStand.ite demoted refl).trans (linksStand_chain _ _)) (.ite refl
    (.ite (.ite (demoted.trans (linksStand_chain _ _)) refl) (.ite (linksStand_chain s _) refl))))

theorem linksStand_seeCtrl (s : State) (f : CtrlFlit) : LinksStand s (seeCtrl s f) := by
  have seen := linksStand_seeManager s (f.srcDev.toNat % 16) (f.role = 1) f.epoch.toNat
  exact .ite (ChainStands.refl s).toLinksStand (.ite (seen.trans (linksStand_chain _ _)) seen)

/-- What a device makes of the CTRL flits of a peer that it finds at EXCHANGE: strapped as manager or standby it follows a
manager of a higher epoch, and otherwise it takes the flits as any others (R420). -/
def meetPeer (s : State) (peer : CtrlFlit) : State :=
  let strap := fld s.mod.straps.toNat 0 2
  let slot := peer.srcDev.toNat % 16
  let pod := peer.srcDev.toNat / 16 == myPod s
  if pod ∧ peer.role = 1 ∧ peer.epoch ≠ 0 ∧ (strap = 1 ∨ strap = 2) ∧ s.chain.epoch < peer.epoch then
    let s3 := if s.chain.role = 1 then demote s peer.epoch.toNat slot else s
    { s3 with chain := { s3.chain with role := 2, epoch := peer.epoch, mgrValid := true
                                       mgrSlot := BitVec.ofNat 4 slot, mgrBeatAt := s3.now } }
  else seeCtrl s peer

theorem linksStand_meetPeer (s : State) (peer : CtrlFlit) : LinksStand s (meetPeer s peer) :=
  .ite ((LinksStand.ite (linksStand_demote s _ _) (ChainStands.refl s).toLinksStand).trans (linksStand_chain _ _))
    (linksStand_seeCtrl s peer)

/-! What EXCHANGE records (R401, R402, R416) -/

/-- The groups that both ends report. -/
def bothGroups (s : State) (l : Nat) (p : CtrlFlit) : Nat := (s.link l).good.toNat &&& p.groups.toNat

/-- A link once the CTRL flits of its peer have been recorded; `own`: this end asks for encryption. -/
def exchanged (n both : Nat) (own : Bool) (peer : CtrlFlit) (L : Link) : Link :=
  { L with
    groups := BitVec.ofNat 8 (useGroups n both), good := BitVec.ofNat 8 both
    peerDev := peer.srcDev, peerLink := peer.link, peerRole := peer.role, peerEpoch := peer.epoch
    peerEnc := peer.enc, enc := own && peer.enc, encDiffers := decide (n < 32) && own != peer.enc
    txNext := 0, rxNext := 0, retry := [], nakSent := false, rxHeld := default, owed := default
    credits := { req := peer.creditReq.toNat, rsp := peer.creditRsp.toNat, exp := peer.creditExp.toNat }
    gcmTx := 0, replays := 0, discards := [], key := .none, accepted := false
    oldWidth := widthCode (useGroups n both) }

/-- This end of link `n` asks for encryption (R416). -/
def asksEnc (s : State) (n : Nat) : Bool := decide (n < 32) && s.rbit (Reg.chnLinkCtl n) 1

/-- The state once link `n` has recorded its peer. -/
def recordPeer (s : State) (n : Nat) (p : CtrlFlit) : State :=
  s.modLink n (exchanged n (bothGroups s n p) (asksEnc s n) p)

/-- A chain link is HELD once it has its peer, and flagged where the ends differ in encryption (R401, R416). -/
def holdLink (s : State) (n : Nat) : State :=
  let s1 := s.modLink n fun L => { L with st := .held }
  if (s1.link n).encDiffers then linkFlag s1 n 6 else s1

section
variable {l : LinkId} {p : CtrlFlit} {s : State} (h : (s.link l.val).st = .exchange)
include h

theorem exec_exchangeDone_none (hb : bothGroups s l.val p = 0) :
    exec (.exchangeDone l p) s = .next (trainDown s l.val) := by
  show execExchangeDone l p s = _
  unfold execExchangeDone
  rw [if_neg (not_not_intro h)]
  exact if_pos hb

theorem exec_exchangeDone_couch (hb : bothGroups s l.val p ≠ 0) (hl : l.val = 32) :
    exec (.exchangeDone l p) s = .next ((((recordPeer s l.val p).rset Reg.cchCompFrames
      (BitVec.ofNat 32 p.compFrames.toNat)).rclr Reg.plnAlertCause 8).modLink l.val fun L =>
        { L with st := upState s l.val (useGroups l.val (bothGroups s l.val p)) }) := by
  show execExchangeDone l p s = _
  unfold execExchangeDone
  rw [if_neg (not_not_intro h)]
  exact (if_neg hb).trans (if_pos hl)

theorem exec_exchangeDone_chain (hb : bothGroups s l.val p ≠ 0) (hl : l.val ≠ 32) :
    exec (.exchangeDone l p) s =
      .next (lateLink (startKeys (meetPeer (holdLink (recordPeer s l.val p) l.val) p) l.val) l.val) := by
  show execExchangeDone l p s = _
  unfold execExchangeDone
  rw [if_neg (not_not_intro h)]
  exact (if_neg hb).trans (if_neg hl)

end

theorem linksStand_holdLink (s : State) (n : Nat) :
    LinksStand (s.modLink n fun L => { L with st := .held }) (holdLink s n) :=
  .ite (chainStands_linkFlag _ n 6).toLinksStand (ChainStands.refl _).toLinksStand

theorem linkOpens_exchange (s : State) (n : Nat) (p : CtrlFlit) :
    LinkOpens n s (lateLink (startKeys (meetPeer (holdLink s n) p) n) n) := by
  have held : LinkOpens n s (s.modLink n fun L => { L with st := .held }) := linkOpens_modLink s ⟨_, _, _, _, rfl⟩
  have met := (linksStand_holdLink s n).trans (linksStand_meetPeer (holdLink s n) p)
  exact ((held.trans (.of_links met.links)).trans (linkOpens_startKeys _ n)).trans (linkOpens_lateLink _ n)

/-- Before bring-up is over a link stays HELD. -/
theorem exchange_held {s : State} (h : afterBringUp s = false) (n : Nat) (p : CtrlFlit) :
    ((lateLink (startKeys (meetPeer (holdLink s n) p) n) n).link n).st = .held := by
  have met := (linksStand_holdLink s n).trans (linksStand_meetPeer (holdLink s n) p)
  rw [lateLink_before ((startKeys_afterBringUp _ n).trans (met.afterBringUp.trans h)), startKeys_st, met.link,
    State.modLink_link_same]

/-- At ALIGN the groups that do not align are retired, and the others go on to EXCHANGE. -/
theorem alignDone_steps {l : LinkId} {g : BitVec 8} {s : State} (h : (s.link l.val).st = .align) :
    let L := s.link l.val
    let tried := L.good.toNat &&& (255 - L.retired.toNat)
    let usable := tried &&& g.toNat
    ∃ t, exec (.alignDone l g) s = .next t ∧ OnlyLink l.val s t ∧
      (t.link l.val).retired.toNat = (L.retired.toNat ||| (tried &&& (255 - g.toNat))) ∧
      (usable = 0 → (t.link l.val).st = .down) ∧
      (usable ≠ 0 → (t.link l.val).st = .exchange ∧ (t.link l.val).good = BitVec.ofNat 8 usable ∧
        (t.link l.val).groups = BitVec.ofNat 8 (useGroups l.val usable)) := by
  intro L tried usable
  have untried : tried &&& (255 - g.toNat) < 256 :=
    Nat.lt_of_le_of_lt (Nat.le_trans Nat.and_le_left Nat.and_le_left) L.good.isLt
  by_cases hu : usable = 0
  · refine ⟨_, exec_alignDone_none h hu, (onlyLink_retireGroups s _ _ 2).trans (onlyLink_trainDown _ _), ?_,
      fun _ => ?_, fun hn => absurd hu hn⟩ <;> rw [trainDown_link]
    exact retireGroups_retired untried s _ 2
  · refine ⟨_, exec_alignDone_some h hu, (onlyLink_retireGroups s _ _ 2).trans (onlyLink_modLink _ _ _), ?_,
      fun hz => absurd hz hu, fun _ => ?_⟩ <;> rw [State.modLink_link_same]
    · exact retireGroups_retired untried s _ 2
    · exact ⟨rfl, rfl, rfl⟩

/-- A drained link trains again where that has been asked for, and is OFF otherwise. -/
theorem drainComplete_steps {l : LinkId} {s : State} (h : (s.link l.val).st = .draining) (hr : (s.link l.val).retry = []) :
    ∃ t, exec (.drainComplete l) s = .next t ∧
      (t.link l.val).st = (if (s.link l.val).enableRec then .detect else .off) ∧ t.regs = s.regs ∧ OnlyLink l.val s t := by
  refine ⟨_, exec_drainComplete_next h hr, ?_⟩
  have drained := onlyLink_modLink s l.val drainedLink
  cases (s.link l.val).enableRec with
  | true => exact ⟨(startTraining_link _ _).1, rfl, drained.trans (onlyLink_modLink _ _ _)⟩
  | false =>
    refine ⟨?_, rfl, drained⟩
    show ((s.modLink l.val drainedLink).link l.val).st = .off
    rw [State.modLink_link_same]
    rfl

/-- At EXCHANGE the Couch link takes up traffic with what it has recorded of its peer. -/
theorem exchangeDone_couch {p : CtrlFlit} {s : State} (h : (s.link 32).st = .exchange) (hb : bothGroups s 32 p ≠ 0) :
    ∃ t, exec (.exchangeDone 32 p) s = .next t ∧
      t.link 32 = { exchanged 32 (bothGroups s 32 p) (asksEnc s 32) p (s.link 32) with
        st := upState s 32 (useGroups 32 (bothGroups s 32 p)) } ∧
      t.rget Reg.cchCompFrames = BitVec.ofNat 32 p.compFrames.toNat ∧ OnlyLink 32 s t := by
  have apart : Reg.cchCompFrames ≠ Reg.plnAlertCause := by decide
  have peer : (recordPeer s 32 p).link 32 = exchanged 32 (bothGroups s 32 p) (asksEnc s 32) p (s.link 32) :=
    State.modLink_link_same s _ _
  have recorded : OnlyLink 32 s (recordPeer s 32 p) := onlyLink_modLink s 32 _
  have noted : OnlyLink 32 (recordPeer s 32 p) (((recordPeer s 32 p).rset Reg.cchCompFrames
      (BitVec.ofNat 32 p.compFrames.toNat)).rclr Reg.plnAlertCause 8) := .of_links rfl
  refine ⟨_, exec_exchangeDone_couch (l := 32) h hb rfl, ?_, ?_, (recorded.trans noted).trans (onlyLink_modLink _ 32 _)⟩
  · exact (State.modLink_link_same _ 32 _).trans (by rw [State.rclr_link, State.rset_link, ← peer]; rfl)
  · rw [State.modLink_rget, State.rget_rclr_ne _ apart, State.rget_rset_same]

/-- At EXCHANGE a chain link records its peer; what follows changes its state, its keys and its acceptance only. -/
theorem exchangeDone_chain {l : LinkId} {p : CtrlFlit} {s : State} (h : (s.link l.val).st = .exchange)
    (hb : bothGroups s l.val p ≠ 0) (hl : l.val ≠ 32) :
    ∃ t, exec (.exchangeDone l p) s = .next t ∧ LinkOpens l.val (recordPeer s l.val p) t ∧
      (afterBringUp s = false → (t.link l.val).st = .held) :=
  ⟨_, exec_exchangeDone_chain h hb hl, linkOpens_exchange (recordPeer s l.val p) l.val p,
    fun hup => exchange_held (s := recordPeer s l.val p) hup l.val p⟩

/-- Settles O52: groups and widths are counted out; enabling and disabling change one link and its enable bit; each step of
training changes one link, and whatever else follows EXCHANGE leaves what the link has recorded alone. -/
theorem linkTraining : Obligations.LinkTraining := by
  unfold Obligations.LinkTraining
  refine ⟨fun l u g hl hu hg => ?_, fun l u hl hu => ?_, fun n s => ⟨?_, ?_⟩, fun l g s => ?_, fun l p s => ?_⟩
  · rw [useGroups_of_lt hl]
    exact useGroups_testBit u hu g hg
  · rw [useGroups_of_lt hl]
    exact widthCode_useGroups u hu
  · have switched := enableLink_switched s n.val
    refine ⟨_, rfl, switched.bit, ?_, ?_, ?_, switched.rest⟩ <;> rw [switched.own]
    · exact enabled_off
    · exact enabled_draining
    · exact enabled_not_off
  · have switched := disableLink_switched s n.val
    refine ⟨_, rfl, switched.bit, ?_, ?_, ?_, switched.rest⟩ <;> rw [switched.own]
    · exact disabled_up
    · exact disabled_not_up
    · exact disabled_retrain
  · have small : g.toNat &&& offered s l.val < 256 := Nat.lt_of_le_of_lt Nat.and_le_left g.isLt
    extract_lets L seen tried usable
    refine ⟨fun h hg => ⟨_, exec_detect_next h hg, ?_, ?_, rfl, onlyLink_modLink s _ _⟩, exec_detect_idle,
      fun h => ⟨_, if_pos h, ?_, onlyLink_trainDown s _⟩, fun h => if_neg h,
      fun h => ⟨_, if_pos h, ?_, ?_, (onlyLink_retireGroups s _ _ 2).trans (onlyLink_modLink _ _ _)⟩, fun h => if_neg h,
      alignDone_steps, fun h => if_pos h,
      fun h ht => ⟨_, exec_downRetry_next h ht, (startTraining_link s _).1, (startTraining_link s _).2, rfl,
        onlyLink_modLink s _ _⟩, exec_downRetry_idle,
      drainComplete_steps, exec_drainComplete_idle⟩
    · rw [State.modLink_link_same]
    · rw [State.modLink_link_same]
    · rw [trainDown_link]
    · rw [State.modLink_link_same]
    · rw [State.modLink_link_same]
      exact retireGroups_retired small s _ 2
  · refine ⟨fun h => if_pos h, fun h hb => ⟨_, exec_exchangeDone_none h hb, ?_, onlyLink_trainDown s _⟩, fun h hb => ?_⟩
    · rw [trainDown_link]
    by_cases hl : l.val = 32
    · obtain rfl : l = 32 := Fin.ext hl
      obtain ⟨t, run, own, frames, others⟩ := exchangeDone_couch h hb
      refine ⟨t, run, ?_⟩
      rw [show t.link (32 : LinkId).val = _ from own]
      exact ⟨rfl, rfl, rfl, rfl, rfl, rfl, rfl, rfl, rfl, rfl, rfl, rfl, fun _ => ⟨congrArg Link.st own, frames⟩,
        fun hn => absurd hl hn, others⟩
    · obtain ⟨t, run, opens, held⟩ := exchangeDone_chain h hb hl
      obtain ⟨a, k, m, b, own⟩ := opens.own
      rw [recordPeer, State.modLink_link_same] at own
      refine ⟨t, run, ?_⟩
      rw [own] at held ⊢
      exact ⟨rfl, rfl, rfl, rfl, rfl, rfl, rfl, rfl, rfl, rfl, rfl, rfl, fun hc => absurd hc hl,
        fun _ => held, (onlyLink_modLink s _ _).trans opens.others⟩

end Sys2Proof.Machine

/-! SUPPORT. Rows of stacked memory, and fields of entries: a row written is its bytes and coding, a row read is its bytes,
and a field of an entry reads back as it was placed (R7, R343, R355). -/
namespace Sys2Proof.Machine

/-! Rows of stacked memory -/

theorem region_stacked {a : Nat} (h : a < stackedTop) : region a = .stacked (a / stackBytes) := if_pos h

/-- Bytes written block by block are written whole: each step of `f` writes its own piece of `d`, which starts at `a`. -/
theorem foldl_cutRange_codes {a : Nat} {d : List Mark} {f : State → Nat × Nat → State}
    (hf : ∀ t x n, a ≤ x → 0 < n → x + n ≤ a + d.length →
      OnlyCodes (t.wr x (((d.drop (x - a)).take n).map (·.1))) (f t (x, n))) :
    ∀ (k x n : Nat) (s : State), a ≤ x → x + n = a + d.length → x % 4096 + n ≤ 4096 * k →
      OnlyCodes (s.wr x ((d.drop (x - a)).map (·.1))) ((cutRange 4096 k x n).foldl f s) := by
  have done (k x : Nat) (s : State) (hx : x = a + d.length) :
      OnlyCodes (s.wr x ((d.drop (x - a)).map (·.1))) ((cutRange 4096 k x 0).foldl f s) := by
    rw [cutRange_zero, List.drop_eq_nil_of_le (by omega)]
    exact .refl s
  intro k
  induction k with
  | zero =>
    intro x n s _ hn hk
    obtain rfl : n = 0 := by omega
    exact done 0 x s (by omega)
  | succ k ih =>
    intro x n s ha hn hk
    by_cases h0 : n = 0
    · subst h0; exact done _ x s (by omega)
    rw [cutRange_succ _ _ _ h0, List.foldl_cons]
    generalize hh : min n (4096 - x % 4096) = h
    have first := hf s x h ha (by omega) (by omega)
    have rest (t : State) : OnlyCodes (t.wr (x + h) ((d.drop (x + h - a)).map (·.1)))
        ((cutRange 4096 k (x + h) (n - h)).foldl f t) := by
      by_cases hr : n - h = 0
      · rw [hr]; exact done k _ t (by omega)
      · exact ih _ _ t (by omega) (by omega) (by omega)
    have len : (((d.drop (x - a)).take h).map (·.1)).length = h := by simp; omega
    have whole := first.wr_append (rest _) (by rw [len])
    rwa [← List.map_append, show x + h - a = x - a + h by omega, ← List.drop_drop, List.take_append_drop] at whole

/-- A row written into stacked memory is its bytes, and coding. -/
theorem onlyCodes_writeRow (s : State) {a : Nat} {d : List Mark} (ha : a + d.length ≤ stackedTop)
    (tag : Nat → Nat → Bool) (desc : Nat) : OnlyCodes (s.wr a (d.map (·.1))) (writeRow s a d tag desc) := by
  by_cases hd : d = []
  · subst hd
    unfold writeRow pieces
    simp only [List.length_nil, cutRange_zero]
    exact .refl s
  have pos : 0 < d.length := List.length_pos_iff.mpr hd
  unfold writeRow pieces
  simp only [region_stacked (show a < stackedTop by omega)]
  have whole := foldl_cutRange_codes (a := a) (d := d) (f := ?_) ?_ (d.length / 4096 + 2) a d.length s (Nat.le_refl a) rfl
    (by omega)
  · rw [Nat.sub_self, List.drop_zero] at whole
    exact whole
  · intro t x n _ hn hx
    simp only [region_stacked (show x < stackedTop by omega)]
    exact onlyCodes_calWriteBlock t x _ _ _

theorem State.rd_add (s : State) (a m n : Nat) : s.rd a (m + n) = s.rd a m ++ s.rd (a + m) n := by
  simp only [State.rd, List.range_add, List.map_append, List.map_map, Function.comp_def, Nat.add_assoc]

/-- The bytes of a row of stacked memory are the bytes of memory. -/
theorem readRow_bytes (s : State) {a n : Nat} (h : a + n ≤ stackedTop) : (readRow s a n).map (·.1) = s.rd a n := by
  have cut : ∀ k a n, a + n ≤ stackedTop → a % 64 + n ≤ 64 * k →
      ((cutRange 64 k a n).flatMap fun p => readPiece s p.1 p.2).map (·.1) = s.rd a n := by
    intro k
    induction k with
    | zero =>
      intro a n _ hk
      obtain rfl : n = 0 := by omega
      rfl
    | succ k ih =>
      intro a n ht hk
      by_cases h0 : n = 0
      · subst h0
        rw [cutRange_zero]
        rfl
      rw [cutRange_succ _ _ _ h0]
      generalize hh : min n (64 - a % 64) = h
      have piece : (readPiece s a h).map (·.1) = s.rd a h := by
        rw [readPiece, region_stacked (by omega)]
        simp only [List.map_map, Function.comp_def, List.map_id']
      have rest : ((cutRange 64 k (a + h) (n - h)).flatMap fun p => readPiece s p.1 p.2).map (·.1) =
          s.rd (a + h) (n - h) := by
        by_cases hr : n - h = 0
        · rw [hr, cutRange_zero]
          rfl
        · exact ih _ _ (by omega) (by omega)
      rw [List.flatMap_cons, List.map_append, piece, rest, ← State.rd_add, show h + (n - h) = n by omega]
  exact cut _ a n h (by omega)

theorem marksOf_bytes (data : List Byte) (mask : BitVec 64) : (marksOf data mask).map (·.1) = data := by
  refine List.ext_getElem (by simp [marksOf]) fun i h _ => ?_
  have hi : i < data.length := by simpa [marksOf] using h
  simp [marksOf, hi]

theorem marksOf_length (data : List Byte) (mask : BitVec 64) : (marksOf data mask).length = data.length := by
  simp [marksOf]

/-- A part of the bytes written is read at its place. -/
theorem State.rd_wr_part (s : State) (a : Nat) {bs : List Byte} {k n : Nat} (h : k + n ≤ bs.length) :
    (s.wr a bs).rd (a + k) n = (bs.drop k).take n := by
  refine List.ext_getElem (by simp [State.rd]; omega) fun i hi _ => ?_
  have hn : i < n := by simpa [State.rd] using hi
  simp only [State.rd, List.getElem_map, List.getElem_range, List.getElem_take, List.getElem_drop]
  rw [Nat.add_assoc, State.wr_get_in s a bs (by omega), List.getD_eq_getElem?_getD, List.getElem?_eq_getElem (by omega),
    Option.getD_some]

theorem rd_of_mem {s t : State} (h : t.mem = s.mem) (a n : Nat) : t.rd a n = s.rd a n := by
  rw [State.rd, h, State.rd]

theorem rdN_of_mem {s t : State} (h : t.mem = s.mem) (a n : Nat) : t.rdN a n = s.rdN a n := by
  rw [State.rdN, rd_of_mem h, State.rdN]

/-! Fields of numbers and of entries (R7) -/

theorem leBytes_length (n : Nat) : ∀ v, (leBytes n v).length = n := by
  induction n with
  | zero => intro _; rfl
  | succ n ih => intro v; rw [leBytes, List.length_cons, ih]

theorem leNat_leBytes (n : Nat) : ∀ v, leNat (leBytes n v) = v % 256 ^ n := by
  induction n with
  | zero => intro v; rw [Nat.pow_zero, Nat.mod_one]; rfl
  | succ n ih =>
    intro v
    rw [leBytes, leNat, ih, BitVec.toNat_ofNat, Nat.pow_succ _ n, Nat.mul_comm _ 256, Nat.mod_mul]

theorem leBytes_take (k : Nat) : ∀ n v, k ≤ n → (leBytes n v).take k = leBytes k v := by
  induction k with
  | zero => intro _ _ _; rfl
  | succ k ih =>
    intro n v h
    cases n with
    | zero => omega
    | succ n => rw [leBytes, List.take_succ_cons, ih n _ (by omega), leBytes]

theorem leBytes_drop (k : Nat) : ∀ n v, (leBytes n v).drop k = leBytes (n - k) (v / 256 ^ k) := by
  induction k with
  | zero => intro n v; rw [List.drop_zero, Nat.sub_zero, Nat.pow_zero, Nat.div_one]
  | succ k ih =>
    intro n v
    cases n with
    | zero => rw [Nat.zero_sub]; rfl
    | succ n =>
      rw [leBytes, List.drop_succ_cons, ih, Nat.div_div_eq_div_mul, Nat.pow_succ, Nat.mul_comm 256,
        show n + 1 - (k + 1) = n - k by omega]

/-- Bytes `k` to `k + n` of a number are one of its fields. -/
theorem leNat_leBytes_field {k n m : Nat} (v : Nat) (h : k + n ≤ m) :
    leNat (((leBytes m v).drop k).take n) = fld v (8 * k) (8 * n) := by
  rw [leBytes_drop, leBytes_take _ _ _ (by omega), leNat_leBytes, fld, Nat.pow_mul, Nat.pow_mul]

/-- A number of at most `n` bytes that is written reads back. -/
theorem State.rdN_wr_leBytes (s : State) (a : Nat) {n v : Nat} (h : v < 256 ^ n) :
    (s.wr a (leBytes n v)).rdN a n = v := by
  have whole := State.rd_wr_same s a (leBytes n v)
  rw [leBytes_length] at whole
  rw [State.rdN, whole, leNat_leBytes, Nat.mod_eq_of_lt h]

/-! The decoder -/

/-- From `s` to `t` memory, the cores, the links and what has gone out on them are the same. -/
structure SameTraffic (s t : State) : Prop where
  mem : t.mem = s.mem
  cores : t.cores = s.cores
  links : t.links = s.links
  out : t.out.chn = s.out.chn

theorem SameTraffic.refl (s : State) : SameTraffic s s := ⟨rfl, rfl, rfl, rfl⟩

theorem SameTraffic.trans {s t u : State} (h : SameTraffic s t) (k : SameTraffic t u) : SameTraffic s u :=
  ⟨k.mem.trans h.mem, k.cores.trans h.cores, k.links.trans h.links, k.out.trans h.out⟩

theorem OnlyAnswers.chn {s t : State} (h : OnlyAnswers s t) : t.out.chn = s.out.chn := by
  obtain ⟨_, _, _, _, _, _, _, _, _, _, _, _, _, _, _, _, _, chn, _⟩ := h
  exact chn

/-- A block that does not decode is poisoned and entered in the error ring, with no notice. -/
theorem sameTraffic_decodeCheck (s : State) (blk : Nat) : SameTraffic s (decodeCheck s blk) := by
  unfold decodeCheck
  split
  next =>
    simp only
    rw [ringAdd_without_notice _ (show ErrClass.event ≠ .permanent by decide) rfl (show (0x25 : Nat) ≠ 0x37 by decide)]
    have entered (u : State) (e : Event) : SameTraffic u (ringPut u e).1 :=
      ⟨(onlyReports_ringPut u e).mem, (onlyReports_ringPut u e).cores, (chainStands_ringPut u e).links,
        (onlyAnswers_ringPut u e).chn⟩
    refine SameTraffic.trans ?_ (entered _ _)
    exact ⟨rfl, rfl, rfl, rfl⟩
  next => exact .refl s

theorem sameTraffic_decodeRange (s : State) (a n : Nat) : SameTraffic s (decodeRange s a n) := by
  unfold decodeRange
  split
  next =>
    generalize (List.range _).map _ = blks
    induction blks generalizing s with
    | nil => exact .refl s
    | cons b r ih => exact (sameTraffic_decodeCheck s b).trans (ih _)
  next => exact .refl s

end Sys2Proof.Machine

/-! SUPPORT. Packets of other devices (R395, R407, R409 to R414): a packet leaves the receive buffer, an answer goes out on
its link or waits there, and a read, a write or an expert's row takes its effect between the two. -/
namespace Sys2Proof.Machine

/-! Packets in and out (R397, R407, R410) -/

/-- From `s` to `t` nothing has gone out on a link, the packets that wait on link `n` still wait, and no other link
differs. -/
structure QueuesStand (n : Nat) (s t : State) : Prop where
  out : t.out.chn = s.out.chn
  held : (t.link n).held = (s.link n).held
  expHeld : (t.link n).expHeld = (s.link n).expHeld
  others : OnlyLink n s t

theorem QueuesStand.trans {n : Nat} {s t u : State} (h : QueuesStand n s t) (k : QueuesStand n t u) : QueuesStand n s u :=
  ⟨k.out.trans h.out, k.held.trans h.held, k.expHeld.trans h.expHeld, h.others.trans k.others⟩

theorem QueuesStand.of_links {n : Nat} {s t : State} (hl : t.links = s.links) (ho : t.out.chn = s.out.chn) :
    QueuesStand n s t :=
  ⟨ho, by rw [link_of_links hl], by rw [link_of_links hl], .of_links hl⟩

theorem OnlyCodes.queues {s t : State} (h : OnlyCodes s t) (n : Nat) : QueuesStand n s t := by
  obtain ⟨_, _, _, rfl⟩ := h.only
  exact .of_links rfl rfl

/-- Packet `q` has gone out on link `n`, or waits there behind others, and no other link differs. -/
structure Sends (n : Nat) (q : ChnPkt) (s t : State) : Prop where
  sent : SentChn s t n q
  expHeld : (t.link n).expHeld = (s.link n).expHeld
  others : OnlyLink n s t

theorem QueuesStand.sends {n : Nat} {q : ChnPkt} {s t u : State} (h : QueuesStand n s t) (k : Sends n q t u) :
    Sends n q s u := by
  refine ⟨?_, k.expHeld.trans h.expHeld, h.others.trans k.others⟩
  rw [SentChn, ← h.out, ← h.held]
  exact k.sent

/-- Only links, registers and what has gone out differ. -/
def OnlyTraffic (s t : State) : Prop := ∃ ls o g, t = { s with links := ls, out := o, regs := g }

theorem OnlyTraffic.trans {s t u : State} (h : OnlyTraffic s t) (k : OnlyTraffic t u) : OnlyTraffic s u := by
  obtain ⟨_, _, _, rfl⟩ := h
  obtain ⟨_, _, _, rfl⟩ := k
  exact ⟨_, _, _, rfl⟩

theorem OnlyTraffic.sameMemory {s t : State} (h : OnlyTraffic s t) : SameMemory s t := by
  obtain ⟨_, _, _, rfl⟩ := h
  exact ⟨rfl, rfl, rfl⟩

theorem OnlyTraffic.mem {s t : State} (h : OnlyTraffic s t) : t.mem = s.mem := h.sameMemory.1

theorem OnlyTraffic.cores {s t : State} (h : OnlyTraffic s t) : t.cores = s.cores := by
  obtain ⟨_, _, _, rfl⟩ := h
  rfl

theorem consume_queues (s : State) (n : Nat) (p : ChnPkt) : QueuesStand n s (consume s n p) := by
  refine ⟨rfl, ?_, ?_, onlyLink_modLink s n _⟩ <;> rw [consume, State.modLink_link_same]

theorem consume_onlyTraffic (s : State) (n : Nat) (p : ChnPkt) : OnlyTraffic s (consume s n p) := ⟨_, _, _, rfl⟩

theorem sendOn_sends (s : State) (n : Nat) (p : ChnPkt) : Sends n p s (sendOn s n p) := by
  unfold sendOn
  simp only
  split
  next =>
    refine ⟨.inl rfl, ?_, onlyLink_modLink s n _⟩
    show ((s.modLink n _).link n).expHeld = _
    rw [State.modLink_link_same]
  next =>
    refine ⟨.inr ?_, ?_, onlyLink_modLink s n _⟩ <;> rw [State.modLink_link_same]

theorem sendOn_onlyTraffic (s : State) (n : Nat) (p : ChnPkt) : OnlyTraffic s (sendOn s n p) := by
  unfold sendOn
  simp only
  split
  next => exact ⟨_, _, _, rfl⟩
  next => exact ⟨_, _, _, rfl⟩

/-- Packet `q` answers request `p` with a type. -/
def Answering (p q : ChnPkt) (typ : Nat) : Prop := q.typ = BitVec.ofNat 4 typ ∧ q.dst = p.src ∧ q.tag = p.tag

theorem answering_of_fields {p q : ChnPkt} {typ : Nat} (ht : q.typ = BitVec.ofNat 4 typ)
    (hd : q.dst = BitVec.ofNat 14 p.src.toNat) (hg : q.tag = BitVec.ofNat 16 p.tag.toNat) : Answering p q typ := by
  rw [BitVec.ofNat_toNat, BitVec.setWidth_eq] at hd hg
  exact ⟨ht, hd, hg⟩

/-- A response goes out with the bytes given to it. -/
theorem answerChn_sends (s : State) (n : Nat) (p : ChnPkt) (typ : Nat) (data : List Mark) :
    ∃ q, Sends n q s (answerChn s n p typ data) ∧ Answering p q typ ∧ q.data = data.map (·.1) := by
  unfold answerChn
  refine ⟨_, sendOn_sends s n _, answering_of_fields ?_ ?_ ?_, ?_⟩ <;> rfl

theorem answerChn_onlyTraffic (s : State) (n : Nat) (p : ChnPkt) (typ : Nat) (data : List Mark) :
    OnlyTraffic s (answerChn s n p typ data) :=
  sendOn_onlyTraffic s n _

/-- The flag of CHN_STATUS that goes with a reason (R410). -/
def nackFlagged (s : State) (reason : Nat) : State :=
  if reason = 1 then s.ror Reg.chnStatus 0x10 else if reason = 7 then s.ror Reg.chnStatus 0x40 else s

theorem nackFlagged_regs (s : State) (reason : Nat) : ∃ g, nackFlagged s reason = { s with regs := g } := by
  unfold nackFlagged
  split
  · exact ⟨_, rfl⟩
  split
  · exact ⟨_, rfl⟩
  · exact ⟨_, rfl⟩

/-- A refusal goes out with its reason. -/
theorem nackChn_sends (s : State) (n : Nat) (p : ChnPkt) (reason : Nat) :
    ∃ q, Sends n q s (nackChn s n p reason) ∧ Answering p q 10 ∧ q.reason = BitVec.ofNat 8 reason := by
  have flagged : QueuesStand n s (nackFlagged s reason) := by
    obtain ⟨_, flags⟩ := nackFlagged_regs s reason
    rw [flags]
    exact .of_links rfl rfl
  unfold nackChn
  refine ⟨_, flagged.sends (sendOn_sends _ n _), answering_of_fields ?_ ?_ ?_, ?_⟩ <;> rfl

theorem nackChn_onlyTraffic (s : State) (n : Nat) (p : ChnPkt) (reason : Nat) : OnlyTraffic s (nackChn s n p reason) := by
  have flagged : OnlyTraffic s (nackFlagged s reason) := by
    obtain ⟨_, flags⟩ := nackFlagged_regs s reason
    rw [flags]
    exact ⟨_, _, _, rfl⟩
  exact flagged.trans (sendOn_onlyTraffic _ n _)

/-! Reads and writes of other devices (R409 to R411) -/

theorem inboundRefusal_consume (s : State) (n : Nat) (q : ChnPkt) (write : Bool) (p : ChnPkt) (len : Nat) :
    inboundRefusal (consume s n q) write p len = inboundRefusal s write p len := rfl

/-- A packet for another device has no route. -/
theorem inboundRefusal_elsewhere {s : State} {p : ChnPkt} (h : p.dst.toNat ≠ myDev s) (write : Bool) (len : Nat) :
    inboundRefusal s write p len = some 7 := if_pos h

/-- What is granted lies in stacked memory. -/
theorem granted_stacked {s : State} {write : Bool} {p : ChnPkt} {n : Nat} (h : inboundRefusal s write p n = none) :
    p.addr.toNat + n ≤ stackedTop := by
  refine Nat.le_of_not_lt fun high => ?_
  simp only [inboundRefusal, decide_eq_true high, Bool.or_true, if_true] at h
  split at h
  · cases h
  split at h
  · cases h
  split at h <;> cases h

section
variable {n : ChainId} {p : ChnPkt} {s : State}

theorem chnRd_refused (hp : p.fits = true) (hc : carries s n.val = true) {r : Nat}
    (hr : inboundRefusal s false p p.len.toNat = some r) :
    exec (.chnRd n p) s = .next (nackChn (consume s n.val { p with typ := 0 }) n.val p r) := by
  show execChnRd n p s = _
  simp only [execChnRd, hp, hc, Bool.not_true, Bool.false_eq_true, if_true, if_false, inboundRefusal_consume, hr]

theorem chnRd_granted (hp : p.fits = true) (hc : carries s n.val = true)
    (hr : inboundRefusal s false p p.len.toNat = none) {u : State}
    (hu : decodeRange (consume s n.val { p with typ := 0 }) p.addr.toNat p.len.toNat = u) :
    exec (.chnRd n p) s = .next (answerChn u n.val p 8 (readRow u p.addr.toNat p.len.toNat)) := by
  subst hu
  show execChnRd n p s = _
  simp only [execChnRd, hp, hc, Bool.not_true, Bool.false_eq_true, if_true, if_false, inboundRefusal_consume, hr]

theorem chnWr_refused (hp : p.fits = true) (hc : carries s n.val = true) {r : Nat}
    (hr : inboundRefusal s true p p.data.length = some r) :
    exec (.chnWr n p) s = .next (nackChn (consume s n.val { p with typ := 1 }) n.val p r) := by
  show execChnWr n p s = _
  simp only [execChnWr, hp, hc, Bool.not_true, Bool.false_eq_true, if_true, if_false, inboundRefusal_consume, hr]

theorem chnWr_granted (hp : p.fits = true) (hc : carries s n.val = true)
    (hr : inboundRefusal s true p p.data.length = none) {u : State}
    (hu : writeRow (consume s n.val { p with typ := 1 }) p.addr.toNat (marksOf p.data p.poison) (fun _ _ => false) 0 = u) :
    exec (.chnWr n p) s = .next (answerChn u n.val p 9 []) := by
  subst hu
  show execChnWr n p s = _
  simp only [execChnWr, hp, hc, Bool.not_true, Bool.false_eq_true, if_true, if_false, inboundRefusal_consume, hr]

theorem chnExpd_elsewhere (hp : p.fits = true) (hc : carries s n.val = true) (hd : p.dst.toNat ≠ myDev s) :
    exec (.chnExpd n p) s = .next (nackChn (consume s n.val { p with typ := 3 }) n.val { p with typ := 3 } 7) := by
  show execChnExpd n p s = _
  rw [execChnExpd, if_pos hp, if_neg (by rw [hc]; decide)]
  exact if_pos hd

/-- On a link that carries nothing a packet changes nothing. -/
theorem chain_packets_idle (hp : p.fits = true) (hc : carries s n.val = false) :
    exec (.chnRd n p) s = .next s ∧ exec (.chnWr n p) s = .next s ∧ exec (.chnExpd n p) s = .next s ∧
      exec (.chnRddata n p) s = .next s ∧ exec (.chnWrack n p) s = .next s ∧ exec (.chnNack n p) s = .next s := by
  have idle : (!carries s n.val) = true := by rw [hc]; rfl
  refine ⟨?_, ?_, ?_, ?_, ?_, ?_⟩ <;> exact (if_pos hp).trans (if_pos idle)

/-- The state `t` in which a packet `p` that came on link `n` has been refused with a reason. -/
structure Refused (s t : State) (n : Nat) (p q : ChnPkt) (reason : Nat) : Prop where
  sends : Sends n q s t
  answers : Answering p q 10
  reason : q.reason = BitVec.ofNat 8 reason
  memory : SameMemory s t
  cores : t.cores = s.cores

theorem nackChn_consume (s : State) (n : Nat) (p p' : ChnPkt) (reason : Nat) :
    ∃ q, Refused s (nackChn (consume s n p') n p reason) n p q reason := by
  obtain ⟨q, sends, answers, why⟩ := nackChn_sends (consume s n p') n p reason
  have only := (consume_onlyTraffic s n p').trans (nackChn_onlyTraffic _ n p reason)
  exact ⟨q, (consume_queues s n p').sends sends, answers, why, only.sameMemory, only.cores⟩

theorem elsewhere_refused (hp : p.fits = true) (hc : carries s n.val = true) (hd : p.dst.toNat ≠ myDev s) {i : Instr}
    (hi : i ∈ [Instr.chnRd n p, Instr.chnWr n p, Instr.chnExpd n p]) :
    ∃ t q, exec i s = .next t ∧ Refused s t n.val p q 7 := by
  simp only [List.mem_cons, List.not_mem_nil, or_false] at hi
  obtain rfl | rfl | rfl := hi
  · obtain ⟨q, refused⟩ := nackChn_consume s n.val p { p with typ := 0 } 7
    exact ⟨_, q, chnRd_refused hp hc (inboundRefusal_elsewhere hd _ _), refused⟩
  · obtain ⟨q, refused⟩ := nackChn_consume s n.val p { p with typ := 1 } 7
    exact ⟨_, q, chnWr_refused hp hc (inboundRefusal_elsewhere hd _ _), refused⟩
  · obtain ⟨q, sends, answers, why, memory, cores⟩ := nackChn_consume s n.val { p with typ := 3 } { p with typ := 3 } 7
    exact ⟨_, q, chnExpd_elsewhere hp hc hd, sends, answers, why, memory, cores⟩

theorem read_refused (hp : p.fits = true) (hc : carries s n.val = true) {r : Nat}
    (hr : inboundRefusal s false p p.len.toNat = some r) :
    ∃ t q, exec (.chnRd n p) s = .next t ∧ Refused s t n.val p q r := by
  obtain ⟨q, refused⟩ := nackChn_consume s n.val p { p with typ := 0 } r
  exact ⟨_, q, chnRd_refused hp hc hr, refused⟩

theorem write_refused (hp : p.fits = true) (hc : carries s n.val = true) {r : Nat}
    (hr : inboundRefusal s true p p.data.length = some r) :
    ∃ t q, exec (.chnWr n p) s = .next t ∧ Refused s t n.val p q r := by
  obtain ⟨q, refused⟩ := nackChn_consume s n.val p { p with typ := 1 } r
  exact ⟨_, q, chnWr_refused hp hc hr, refused⟩

theorem SameTraffic.queues {s t : State} (h : SameTraffic s t) (n : Nat) : QueuesStand n s t := .of_links h.links h.out

/-- A granted read is answered with the bytes of memory, which stays as it is. -/
theorem read_answered (hp : p.fits = true) (hc : carries s n.val = true)
    (hr : inboundRefusal s false p p.len.toNat = none) :
    ∃ t q, exec (.chnRd n p) s = .next t ∧ Sends n.val q s t ∧ Answering p q 8 ∧
      q.data = s.rd p.addr.toNat p.len.toNat ∧ t.mem = s.mem ∧ t.cores = s.cores := by
  have taken := consume_onlyTraffic s n.val { p with typ := 0 }
  have decoded := sameTraffic_decodeRange (consume s n.val { p with typ := 0 }) p.addr.toNat p.len.toNat
  generalize hu : decodeRange (consume s n.val { p with typ := 0 }) p.addr.toNat p.len.toNat = u at decoded
  have mem : u.mem = s.mem := decoded.mem.trans taken.mem
  have answered := answerChn_onlyTraffic u n.val p 8 (readRow u p.addr.toNat p.len.toNat)
  obtain ⟨q, sends, answers, data⟩ := answerChn_sends u n.val p 8 (readRow u p.addr.toNat p.len.toNat)
  refine ⟨_, q, chnRd_granted hp hc hr hu, ((consume_queues s n.val _).trans (decoded.queues _)).sends sends, answers, ?_,
    answered.mem.trans mem, answered.cores.trans (decoded.cores.trans taken.cores)⟩
  rw [data, readRow_bytes u (granted_stacked hr), rd_of_mem mem]

theorem OnlyCodes.mem {s t : State} (h : OnlyCodes s t) : t.mem = s.mem := by
  obtain ⟨_, _, _, rfl⟩ := h.only
  rfl

theorem OnlyCodes.cores {s t : State} (h : OnlyCodes s t) : t.cores = s.cores := by
  obtain ⟨_, _, _, rfl⟩ := h.only
  rfl

theorem queuesStand_wr (n : Nat) (s : State) (a : Nat) (bs : List Byte) : QueuesStand n s (s.wr a bs) :=
  .of_links rfl rfl

/-- A granted write stores its bytes and nothing else, and is acknowledged. -/
theorem write_acknowledged (hp : p.fits = true) (hc : carries s n.val = true)
    (hr : inboundRefusal s true p p.data.length = none) :
    ∃ t q, exec (.chnWr n p) s = .next t ∧ Sends n.val q s t ∧ Answering p q 9 ∧
      t.mem = (s.wr p.addr.toNat p.data).mem ∧ t.cores = s.cores := by
  have written := onlyCodes_writeRow (consume s n.val { p with typ := 1 }) (d := marksOf p.data p.poison)
    (by rw [marksOf_length]; exact granted_stacked hr) (fun _ _ => false) 0
  rw [marksOf_bytes] at written
  generalize hu : writeRow (consume s n.val { p with typ := 1 }) p.addr.toNat (marksOf p.data p.poison) (fun _ _ => false) 0
    = u at written
  have answered := answerChn_onlyTraffic u n.val p 9 []
  obtain ⟨q, sends, answers, -⟩ := answerChn_sends u n.val p 9 []
  have stand := ((consume_queues s n.val { p with typ := 1 }).trans (queuesStand_wr _ _ _ _)).trans (written.queues _)
  exact ⟨_, q, chnWr_granted hp hc hr hu, stand.sends sends, answers,
    answered.mem.trans written.mem, answered.cores.trans written.cores⟩

end

/-! Experts' rows (R412 to R414) -/

/-- What precedes an expert's row in its inbox entry (R413). -/
def expertHead (p : ChnPkt) : Line :=
  mkLine [(0, 2, p.src.toNat), (2, 2, p.expert.toNat), (4, 2, p.data.length), (8, 8, p.addr.toNat),
    (16, 8, p.poison.toNat)]

theorem expertHead_bytes_length (p : ChnPkt) : (lineBytes (expertHead p)).length = 64 := leBytes_length 64 _

/-- A field of a number that is cut above the field. -/
theorem fld_mod_pow {lo n m : Nat} (h : lo + n ≤ m) (v : Nat) : fld (v % 2 ^ m) lo n = fld v lo n := by
  obtain ⟨k, rfl⟩ := Nat.exists_eq_add_of_le (show lo ≤ m by omega)
  rw [fld, fld, Nat.pow_add, Nat.mod_mul_right_div_self, Nat.mod_mod_of_dvd _ (Nat.pow_dvd_pow 2 (by omega))]

theorem fld_mkLine (fs : List (Nat × Nat × Nat)) {lo n : Nat} (h : lo + n ≤ 512) :
    fld (mkLine fs).toNat lo n = fld (fs.foldl (fun acc f => acc + at_ (8 * f.1) (8 * f.2.1) f.2.2) 0) lo n := by
  rw [mkLine, BitVec.toNat_ofNat]
  exact fld_mod_pow h _

/-- A field placed above a smaller number and below a multiple reads back. -/
theorem fld_at_ {low lo : Nat} (h : low < 2 ^ lo) (n x high : Nat) :
    fld (low + at_ lo n x + 2 ^ (lo + n) * high) lo n = x % 2 ^ n := by
  have sum : low + at_ lo n x + 2 ^ (lo + n) * high = low + 2 ^ lo * (x % 2 ^ n + 2 ^ n * high) := by
    rw [at_, Nat.pow_add, Nat.mul_add, Nat.mul_comm (x % 2 ^ n), Nat.mul_assoc, Nat.add_assoc]
  rw [fld, sum, Nat.add_mul_div_left _ _ (Nat.two_pow_pos _), Nat.div_eq_of_lt h, Nat.zero_add, Nat.add_mul_mod_self_left,
    Nat.mod_mod]

theorem at_lt (lo n x : Nat) : at_ lo n x < 2 ^ (lo + n) := by
  rw [at_, Nat.add_comm, Nat.pow_add]
  exact Nat.mul_lt_mul_of_pos_right (Nat.mod_lt _ (Nat.two_pow_pos _)) (Nat.two_pow_pos _)

/-- The source stands in the first two bytes of the head. -/
theorem expertHead_src (p : ChnPkt) : fld (expertHead p).toNat 0 16 = p.src.toNat := by
  rw [expertHead, fld_mkLine _ (by decide), List.foldl_cons, List.foldl_cons, List.foldl_cons, List.foldl_cons,
    List.foldl_cons, List.foldl_nil]
  have placed := fld_at_ (low := 0) (lo := 0) (by decide) 16 p.src.toNat
    (p.expert.toNat % 2 ^ 16 + 2 ^ 16 * (p.data.length % 2 ^ 16) + 2 ^ 48 * (p.addr.toNat % 2 ^ 64) +
      2 ^ 112 * (p.poison.toNat % 2 ^ 64))
  rw [Nat.mod_eq_of_lt (Nat.lt_trans p.src.isLt (by decide))] at placed
  refine Eq.trans (congrArg (fld · 0 16) ?_) placed
  simp only [at_]
  omega

/-- The number of bytes stands in the fifth and the sixth byte of the head. -/
theorem expertHead_length (p : ChnPkt) (h : p.data.length < 2 ^ 16) : fld (expertHead p).toNat 32 16 = p.data.length := by
  rw [expertHead, fld_mkLine _ (by decide), List.foldl_cons, List.foldl_cons, List.foldl_cons, List.foldl_cons,
    List.foldl_cons, List.foldl_nil]
  have low : at_ 0 16 p.src.toNat + at_ 16 16 p.expert.toNat < 2 ^ 32 := by
    have := at_lt 0 16 p.src.toNat
    have := Nat.mod_lt p.expert.toNat (show 0 < 2 ^ 16 by decide)
    rw [at_, at_] at *
    omega
  have placed := fld_at_ low 16 p.data.length (2 ^ 16 * (p.addr.toNat % 2 ^ 64) + 2 ^ 80 * (p.poison.toNat % 2 ^ 64))
  rw [Nat.mod_eq_of_lt h] at placed
  refine Eq.trans (congrArg (fld · 32 16) ?_) placed
  simp only [at_]
  omega

theorem inboxFor_bounds {s : State} {p : ChnPkt} {ring log units : Nat} (h : inboxFor s p = some (ring, log, units)) :
    log ≤ 20 ∧ 2 ≤ units ∧ units ≤ 65 ∧ p.data.length ≤ (units - 1) * 64 ∧
      ring + 64 + 2 ^ log * units * 64 ≤ stackedTop := by
  unfold inboxFor at h
  simp only at h
  split at h
  next valid =>
    cases h
    obtain ⟨-, -, -, log, units, units', length, top⟩ := valid
    exact ⟨log, units, units', length, top⟩
  next => cases h

/-- The memory of `t` is that of `s` with a row's entry at `a` and the write index of the inbox at `ring`. -/
def RowEntered (s t : State) (p : ChnPkt) (ring a index : Nat) : Prop :=
  t.mem = (((s.wr a (lineBytes (expertHead p))).wr (a + 64) p.data).wr ring (leBytes 4 index)).mem

section
variable {s t : State} {p : ChnPkt} {ring a w : Nat}

theorem RowEntered.index (h : RowEntered s t p ring a w) (hi : w < 2 ^ 32) : t.rdN ring 4 = w := by
  rw [rdN_of_mem h, State.rdN_wr_leBytes _ _ (by omega)]

theorem RowEntered.rd_entry (h : RowEntered s t p ring a w) (ha : ring + 4 ≤ a) {b n : Nat} (hb : a ≤ b) :
    t.rd b n = ((s.wr a (lineBytes (expertHead p))).wr (a + 64) p.data).rd b n := by
  rw [rd_of_mem h, State.rd_wr_apart _ _ _ (.inr (by rw [leBytes_length]; omega))]

theorem RowEntered.row (h : RowEntered s t p ring a w) (ha : ring + 4 ≤ a) :
    t.rd (a + 64) p.data.length = p.data := by
  rw [h.rd_entry ha (by omega), State.rd_wr_same]

/-- The header of the entry stands before the row. -/
theorem RowEntered.head (h : RowEntered s t p ring a w) (ha : ring + 4 ≤ a) {k n : Nat} (hk : k + n ≤ 64) :
    t.rd (a + k) n = ((lineBytes (expertHead p)).drop k).take n := by
  rw [h.rd_entry ha (by omega), State.rd_wr_apart _ _ _ (.inl (by omega)),
    State.rd_wr_part _ _ (by rw [expertHead_bytes_length]; exact hk)]

theorem RowEntered.src (h : RowEntered s t p ring a w) (ha : ring + 4 ≤ a) : t.rdN a 2 = p.src.toNat := by
  have head := h.head ha (k := 0) (n := 2) (by decide)
  rw [Nat.add_zero] at head
  rw [State.rdN, head, lineBytes, leNat_leBytes_field _ (by decide), expertHead_src]

theorem RowEntered.length (h : RowEntered s t p ring a w) (ha : ring + 4 ≤ a) (hl : p.data.length < 2 ^ 16) :
    t.rdN (a + 4) 2 = p.data.length := by
  rw [State.rdN, h.head ha (by decide), lineBytes, leNat_leBytes_field _ (by decide), expertHead_length p hl]

end

section
variable {s : State} {p : ChnPkt} {ring log units : Nat}

theorem putInbox_full (n : Nat) (hi : inboxFor s p = some (ring, log, units))
    (full : (s.rdN ring 4 % 2 ^ log + 1) % 2 ^ log = s.rdN (ring + 4) 4 % 2 ^ log) : putInbox s n p = (s, false) := by
  simp only [putInbox, hi, full, if_true]

/-- An entry of the inbox lies after its header and within stacked memory. -/
theorem entry_stacked (hi : inboxFor s p = some (ring, log, units)) {w : Nat} (hw : w < 2 ^ log) :
    ring + 64 + w * units * 64 + 64 + p.data.length ≤ stackedTop := by
  obtain ⟨-, _, _, length, top⟩ := inboxFor_bounds hi
  have within : (w + 1) * units ≤ 2 ^ log * units := Nat.mul_le_mul_right _ hw
  rw [Nat.add_mul] at within
  omega

/-- With a free entry the row and the write index are written, and the row is acknowledged. -/
theorem putInbox_free (n : Nat) (hi : inboxFor s p = some (ring, log, units))
    (free : (s.rdN ring 4 % 2 ^ log + 1) % 2 ^ log ≠ s.rdN (ring + 4) 4 % 2 ^ log) :
    ∃ t q, putInbox s n p = (t, true) ∧ Sends n q s t ∧ Answering p q 9 ∧
      RowEntered s t p ring (ring + 64 + s.rdN ring 4 % 2 ^ log * units * 64)
        ((s.rdN ring 4 % 2 ^ log + 1) % 2 ^ log) := by
  generalize hw : s.rdN ring 4 % 2 ^ log = w at free
  have stacked := entry_stacked hi (w := w) (by rw [← hw]; exact Nat.mod_lt _ (Nat.two_pow_pos _))
  generalize ha : ring + 64 + w * units * 64 = a at stacked
  generalize hx : (w + 1) % 2 ^ log = index at free
  let s1 := s.devWr a (lineBytes (expertHead p))
  let s2 := writeRow s1 (a + 64) (marksOf p.data p.poison) (fun _ _ => false) 0
  let s3 := s2.devWr ring (leBytes 4 index)
  have run : putInbox s n p = (answerChn (consume s3 n p) n p 9 [], true) := by
    simp only [putInbox, hi, hw, hx, if_neg free, ha]
    rfl
  have head : OnlyCodes (s.wr a (lineBytes (expertHead p))) s1 :=
    onlyCodes_devWr s a (by rw [expertHead_bytes_length]; decide)
  have row : OnlyCodes (s1.wr (a + 64) p.data) s2 := by
    have written := onlyCodes_writeRow s1 (a := a + 64) (d := marksOf p.data p.poison)
      (by rw [marksOf_length]; exact stacked) (fun _ _ => false) 0
    rwa [marksOf_bytes] at written
  have advanced : OnlyCodes (s2.wr ring (leBytes 4 index)) s3 :=
    onlyCodes_devWr s2 ring (by rw [leBytes_length]; decide)
  have whole := (((head.wr (a + 64) p.data).trans row).wr ring (leBytes 4 index)).trans advanced
  have stand : QueuesStand n s s3 :=
    (((queuesStand_wr n s _ _).trans (queuesStand_wr n _ _ _)).trans (queuesStand_wr n _ _ _)).trans (whole.queues n)
  have taken := consume_onlyTraffic s3 n p
  have answered := answerChn_onlyTraffic (consume s3 n p) n p 9 []
  obtain ⟨q, sends, answers, -⟩ := answerChn_sends (consume s3 n p) n p 9 []
  exact ⟨_, q, run, (stand.trans (consume_queues s3 n p)).sends sends, answers,
    answered.mem.trans (taken.mem.trans whole.mem)⟩

end

section
variable {n : ChainId} {p : ChnPkt} {s : State}

theorem chnExpd_delivered (hp : p.fits = true) (hc : carries s n.val = true) (hd : p.dst.toNat = myDev s)
    (hr : s.rbit Reg.plnReady 3 = true) (he : (s.link n.val).expHeld = []) {t : State}
    (hput : putInbox s n.val { p with typ := 3 } = (t, true)) : exec (.chnExpd n p) s = .next t := by
  show execChnExpd n p s = _
  simp only [execChnExpd, hp, hc, hr, he, hput, if_true, Bool.not_true, Bool.false_eq_true, if_false, List.isEmpty_nil]
  exact if_neg (not_not_intro hd)

theorem chnExpd_held (hp : p.fits = true) (hc : carries s n.val = true) (hd : p.dst.toNat = myDev s)
    (hr : s.rbit Reg.plnReady 3 = true) (he : (s.link n.val).expHeld = [])
    (hput : putInbox s n.val { p with typ := 3 } = (s, false)) :
    exec (.chnExpd n p) s = .next (holdExpert s n.val { p with typ := 3 }) := by
  show execChnExpd n p s = _
  simp only [execChnExpd, hp, hc, hr, he, hput, if_true, Bool.not_true, Bool.false_eq_true, if_false, List.isEmpty_nil]
  exact if_neg (not_not_intro hd)

theorem holdExpert_expHeld (s : State) (n : Nat) (p : ChnPkt) :
    ((holdExpert s n p).link n).expHeld = (s.link n).expHeld ++ [p] := by
  rw [holdExpert, State.ror_link, State.modLink_link_same]

theorem holdExpert_flag (s : State) (n : Nat) (p : ChnPkt) :
    ((holdExpert s n p).rget Reg.chnStatus).getLsbD 5 = true := by
  rw [holdExpert, State.rget_ror_same, BitVec.getLsbD_or]
  exact Bool.or_eq_true_iff.mpr (.inr (by decide))

theorem inboxDeliver_idle (h : (s.link n.val).expHeld = []) : exec (.inboxDeliver n) s = .next s := by
  show execInboxDeliver n s = _
  rw [execInboxDeliver, h]

theorem inboxDeliver_waits {rest : List ChnPkt} (h : (s.link n.val).expHeld = p :: rest) {t : State}
    (hput : putInbox s n.val p = (t, false)) : exec (.inboxDeliver n) s = .next s := by
  show execInboxDeliver n s = _
  simp only [execInboxDeliver, h, hput]

theorem inboxDeliver_delivered {rest : List ChnPkt} (h : (s.link n.val).expHeld = p :: rest) {t : State}
    (hput : putInbox s n.val p = (t, true)) :
    exec (.inboxDeliver n) s = .next (t.modLink n.val fun L => { L with expHeld := rest }) := by
  show execInboxDeliver n s = _
  simp only [execInboxDeliver, h, hput]

end

/-- A row that finds a free entry goes into its inbox and is acknowledged; nothing waits on the link. -/
theorem expert_delivered {n : ChainId} {p : ChnPkt} {s : State} (hp : p.fits = true) (hc : carries s n.val = true)
    (hd : p.dst.toNat = myDev s) (hr : s.rbit Reg.plnReady 3 = true) (he : (s.link n.val).expHeld = [])
    {ring log units : Nat} (hi : inboxFor s p = some (ring, log, units))
    (free : (s.rdN ring 4 % 2 ^ log + 1) % 2 ^ log ≠ s.rdN (ring + 4) 4 % 2 ^ log) :
    ∃ t q, exec (.chnExpd n p) s = .next t ∧ Sends n.val q s t ∧ Answering p q 9 ∧
      RowEntered s t p ring (ring + 64 + s.rdN ring 4 % 2 ^ log * units * 64) ((s.rdN ring 4 % 2 ^ log + 1) % 2 ^ log) := by
  obtain ⟨t, q, put, sends, answers, entered⟩ := putInbox_free (p := { p with typ := 3 }) n.val hi free
  exact ⟨t, q, chnExpd_delivered hp hc hd hr he put, sends, answers, entered⟩

/-- A row that finds its inbox full waits on its link. -/
theorem expert_held {n : ChainId} {p : ChnPkt} {s : State} (hp : p.fits = true) (hc : carries s n.val = true)
    (hd : p.dst.toNat = myDev s) (hr : s.rbit Reg.plnReady 3 = true) (he : (s.link n.val).expHeld = [])
    {ring log units : Nat} (hi : inboxFor s p = some (ring, log, units))
    (full : (s.rdN ring 4 % 2 ^ log + 1) % 2 ^ log = s.rdN (ring + 4) 4 % 2 ^ log) :
    exec (.chnExpd n p) s = .next (holdExpert s n.val { p with typ := 3 }) :=
  chnExpd_held hp hc hd hr he (putInbox_full (p := { p with typ := 3 }) n.val hi full)

/-- The next write index is one of the ring. -/
theorem next_index_lt {s : State} {p : ChnPkt} {ring log units : Nat} (h : inboxFor s p = some (ring, log, units))
    (w : Nat) : (w + 1) % 2 ^ log < 2 ^ 32 :=
  Nat.lt_of_lt_of_le (Nat.mod_lt _ (Nat.two_pow_pos _))
    (Nat.pow_le_pow_right (by decide) (Nat.le_trans (inboxFor_bounds h).1 (by decide)))

/-- A row that waits on its link goes into its inbox once that has a free entry. -/
theorem held_delivered {n : ChainId} {p : ChnPkt} {rest : List ChnPkt} {s : State}
    (hh : (s.link n.val).expHeld = p :: rest) {ring log units : Nat} (hi : inboxFor s p = some (ring, log, units))
    (free : (s.rdN ring 4 % 2 ^ log + 1) % 2 ^ log ≠ s.rdN (ring + 4) 4 % 2 ^ log) :
    ∃ t, exec (.inboxDeliver n) s = .next t ∧ (t.link n.val).expHeld = rest ∧
      RowEntered s t p ring (ring + 64 + s.rdN ring 4 % 2 ^ log * units * 64) ((s.rdN ring 4 % 2 ^ log + 1) % 2 ^ log) := by
  obtain ⟨t, q, put, -, -, entered⟩ := putInbox_free n.val hi free
  exact ⟨_, inboxDeliver_delivered hh put, by rw [State.modLink_link_same], entered⟩

end Sys2Proof.Machine

/-! SUPPORT. Responses (R395, R410): a response ends its transfer, and the data of a read reach their descriptor. -/
namespace Sys2Proof.Machine

/-! Descriptors in flight -/

/-- From `s` to `t` every core's descriptors in flight, the chain and the frames of the pages are the same. -/
structure FlightsStand (s t : State) : Prop where
  inflight : ∀ c, (t.core c).inflight = (s.core c).inflight
  chain : t.chain = s.chain
  frame : ∀ p, (t.page p).frame = (s.page p).frame

theorem FlightsStand.refl (s : State) : FlightsStand s s := ⟨fun _ => rfl, rfl, fun _ => rfl⟩

theorem FlightsStand.trans {s t u : State} (h : FlightsStand s t) (k : FlightsStand t u) : FlightsStand s u :=
  ⟨fun c => (k.inflight c).trans (h.inflight c), k.chain.trans h.chain, fun p => (k.frame p).trans (h.frame p)⟩

theorem FlightsStand.of_same {s t : State} (hc : t.cores = s.cores) (hn : t.chain = s.chain) (hv : t.vat = s.vat) :
    FlightsStand s t :=
  ⟨fun c => by rw [State.core, hc, State.core], hn, fun p => by rw [State.page, hv, State.page]⟩

theorem FlightsStand.foldl {β : Type} {f : State → β → State} (h : ∀ s b, FlightsStand s (f s b)) :
    ∀ (l : List β) (s : State), FlightsStand s (l.foldl f s)
  | [], s => .refl s
  | b :: r, s => (h s b).trans (FlightsStand.foldl h r (f s b))

theorem flightsStand_gather (s : State) (c : Nat) (g : List GatherEnt → List GatherEnt) :
    FlightsStand s (s.modCore c fun x => { x with gather := g x.gather }) := by
  refine ⟨fun k => ?_, rfl, fun _ => rfl⟩
  rw [State.modCore_core]
  split
  next h => rw [h]
  next => rfl

theorem OnlyCodes.flightsStand {s t : State} (h : OnlyCodes s t) : FlightsStand s t := by
  refine ⟨fun c => ?_, ?_, h.frame⟩
  · rw [State.core, h.cores, State.core]
  · obtain ⟨_, _, _, rfl⟩ := h.only
    rfl

theorem SpdWrites.flightsStand {c : Nat} {parts : List (Nat × List Byte)} {s t : State} (h : SpdWrites c parts s t) :
    FlightsStand s t := by
  refine ⟨fun k => ?_, ?_, fun p => ?_⟩
  · by_cases hk : k = c
    · obtain ⟨_, own⟩ := h.own
      rw [hk, own]
    · rw [h.others k hk]
  · obtain ⟨_, _, _, _, rfl⟩ := h.only
    rfl
  · obtain ⟨_, _, _, _, rfl⟩ := h.only
    rfl

/-! A write of any length leaves them alone -/

theorem flightsStand_narrowWrite (s : State) (c off : Nat) (bs : List Byte) (poison desc : Nat) :
    FlightsStand s (narrowWrite s c off bs poison desc) := by
  cases h : gatherAt s c (off / 64) with
  | some e =>
    rw [narrowWrite_merge h]
    exact (flightsStand_gather s c (mergeInto off bs poison desc)).trans (flushFull_writes _ c _).flightsStand
  | none =>
    rw [narrowWrite_open h]
    have opened := flightsStand_gather (evictOldest s c) c (· ++ [freshEntry off bs poison desc])
    exact ((evictOldest_writes s c).flightsStand.trans opened).trans (flushFull_writes _ c _).flightsStand

theorem flightsStand_lineWrite (s : State) (c off : Nat) (bs : List Byte) (poison : Nat) (hint : Bool) :
    FlightsStand s (lineWrite s c off bs poison hint) := by
  refine (flightsStand_gather s c (·.filter (·.line.val != off / 64))).trans ?_
  exact .of_same rfl rfl rfl

theorem flightsStand_writePart (s : State) (c off : Nat) (part : List Byte) (poison : Nat) (hint : Bool) (desc : Nat) :
    FlightsStand s (writePart s c off part poison hint desc) := by
  unfold writePart
  split
  · exact flightsStand_lineWrite s c off part poison hint
  · have narrow := flightsStand_narrowWrite s c off part poison desc
    cases hint with
    | true => exact narrow
    | false => exact narrow.trans (.of_same rfl rfl rfl)

theorem flightsStand_spdWriteN (c poison : Nat) (hint : Bool) (desc : Nat) : ∀ (n : Nat) (s : State) (off : Nat)
    (bs : List Byte), FlightsStand s (spdWriteN n s c off bs poison hint desc) := by
  intro n
  induction n with
  | zero => intro s off bs; exact .refl s
  | succ n ih =>
    intro s off bs
    by_cases h : bs = []
    · rw [h, spdWriteN_nil]
      exact .refl s
    · rw [spdWriteN_succ n s c off poison hint desc h]
      exact (flightsStand_writePart s c off _ poison hint desc).trans (ih _ _ _)

theorem flightsStand_qsrWrite (s : State) (q off : Nat) (bs : List Byte) (poison : Nat) :
    FlightsStand s (qsrWrite s q off bs poison) := by
  unfold qsrWrite
  refine FlightsStand.trans (t := s.wr (qsrAddr q off) bs) (.of_same rfl rfl rfl) (.foldl (fun t l => ?_) _ _)
  split
  · exact .of_same rfl rfl rfl
  split
  · exact .of_same rfl rfl rfl
  · exact .refl t

theorem flightsStand_writeRow (s : State) (a : Nat) (d : List Mark) (tag : Nat → Nat → Bool) (desc : Nat) :
    FlightsStand s (writeRow s a d tag desc) := by
  unfold writeRow
  refine .foldl (fun t p => ?_) _ s
  simp only
  split
  next =>
    exact FlightsStand.trans (t := t.wr p.1 _) (.of_same rfl rfl rfl) (onlyCodes_calWriteBlock t p.1 _ _ _).flightsStand
  next => exact flightsStand_qsrWrite t _ _ _ _
  next => exact flightsStand_spdWriteN _ _ _ _ _ t _ _
  next => exact .refl t

/-! The flight of a descriptor -/

theorem flightOf_id {s : State} {c id : Nat} {f : InFlight} (h : flightOf s c id = some f) : f.id = id := by
  simpa using List.find?_some h

theorem FlightsStand.flightOf {s t : State} (h : FlightsStand s t) (c id : Nat) :
    Machine.flightOf t c id = Machine.flightOf s c id := by
  rw [Machine.flightOf, h.inflight, Machine.flightOf]

/-- A change of a descriptor in flight that keeps its number is found under that number. -/
theorem flightOf_modInFlight {s : State} {c id : Nat} {f : InFlight} (h : flightOf s c id = some f)
    {g : InFlight → InFlight} (hg : ∀ d, d.id = id → (g d).id = id) :
    flightOf (modInFlight s c id g) c id = some (g f) := by
  have same : ((·.id == id) ∘ fun d => if d.id = id then g d else d) = fun d : InFlight => d.id == id := by
    funext d
    rw [Function.comp]
    split
    next hd => rw [hg d hd, hd]
    next => rfl
  rw [flightOf, modInFlight, State.modCore_core_same]
  rw [flightOf] at h
  rw [List.find?_map, same, h, Option.map_some, if_pos (by simpa using List.find?_some h)]

theorem modInFlight_memory (s : State) (c id : Nat) (g : InFlight → InFlight) : SameMemory s (modInFlight s c id g) :=
  ⟨rfl, rfl, rfl⟩

theorem modInFlight_chain (s : State) (c id : Nat) (g : InFlight → InFlight) : (modInFlight s c id g).chain = s.chain := rfl

/-! Staged bytes (R197) -/

/-- Induction along a list from its front, element by element at the end, as bytes are staged. -/
theorem snoc_induction {α : Type} {P : List α → Prop} (nil : P []) (snoc : ∀ l b, P l → P (l ++ [b])) (l : List α) :
    P l := by
  have reversed (r : List α) : P r.reverse := by
    induction r with
    | nil => exact nil
    | cons b r ih =>
      rw [List.reverse_cons]
      exact snoc _ b ih
  rw [← List.reverse_reverse l]
  exact reversed _

theorem stage_append (d : InFlight) (lin : Nat) (bs : List Mark) (b : Mark) :
    stage d lin (bs ++ [b]) = { stage d lin bs with
      buf := (stage d lin bs).buf.set (lin + bs.length) b.1
      marks := (stage d lin bs).marks.set (lin + bs.length) b.2 } := by
  rw [stage, List.length_append, List.length_singleton, List.range_succ, List.zip_append (by simp), List.foldl_append]
  rfl

/-- Staging fills the buffer of a descriptor and changes nothing else of it. -/
theorem stage_only (d : InFlight) (lin : Nat) (bs : List Mark) :
    ∃ b m, stage d lin bs = { d with buf := b, marks := m } := by
  induction bs using snoc_induction with
  | nil => exact ⟨_, _, rfl⟩
  | snoc bs b ih =>
    obtain ⟨_, _, eq⟩ := ih
    rw [stage_append, eq]
    exact ⟨_, _, rfl⟩

theorem stage_buf (d : InFlight) (lin : Nat) (bs : List Mark) {i : Nat} (h : i < bs.length) :
    (stage d lin bs).buf.get (lin + i) = bs[i].1 := by
  induction bs using snoc_induction with
  | nil => cases h
  | snoc bs b ih =>
    rw [List.length_append, List.length_singleton] at h
    rw [stage_append]
    by_cases hi : i = bs.length
    · subst hi
      simp
    · rw [SMap.get_set_ne (by omega), ih (by omega), List.getElem_append_left]

/-- What a descriptor in flight is once a packet of its data has arrived. -/
def staged (f : InFlight) (lin : Nat) (bs : List Mark) : InFlight := { stage f lin bs with wait := f.wait - 1 }

theorem staged_id (f : InFlight) (lin : Nat) (bs : List Mark) : (staged f lin bs).id = f.id := by
  obtain ⟨_, _, eq⟩ := stage_only f lin bs
  rw [staged, eq]

theorem stage_word (f : InFlight) (lin : Nat) (bs : List Mark) : (stage f lin bs).word = f.word := by
  obtain ⟨_, _, eq⟩ := stage_only f lin bs
  rw [eq]

theorem stage_dsts (f : InFlight) (lin : Nat) (bs : List Mark) : (stage f lin bs).dsts = f.dsts := by
  obtain ⟨_, _, eq⟩ := stage_only f lin bs
  rw [eq]

/-! The destination of a MOVE on the device -/

theorem landChk_congr {s t : State} (hs : ∀ c b, spdBank t c b = spdBank s c b)
    (hq : ∀ q b, qsrBank t q b = qsrBank s q b) (hf : ∀ p, (t.page p).frame = (s.page p).frame) (word : Nat)
    (dsts : List (Nat × Nat)) : landChk t word dsts = landChk s word dsts := by
  simp only [landChk, rowAddr, spdChk, qsrChk, hs, hq, hf]

theorem landChk_modInFlight (s : State) (c id : Nat) (g : InFlight → InFlight) (word : Nat) (dsts : List (Nat × Nat)) :
    landChk (modInFlight s c id g) word dsts = landChk s word dsts := by
  have banks (k b : Nat) : spdBank (modInFlight s c id g) k b = spdBank s k b := by
    rw [spdBank, modInFlight, State.modCore_core, spdBank]
    split
    next h => rw [h]
    next => rfl
  exact landChk_congr banks (fun _ _ => rfl) (fun _ => rfl) word dsts

theorem FlightsStand.rowAddr {s t : State} (h : FlightsStand s t) (r : Nat × Nat) :
    Machine.rowAddr t r = Machine.rowAddr s r := by
  rw [Machine.rowAddr, h.frame, Machine.rowAddr]

theorem region_below_companion {a : Nat} (h : a < compBase) (o : Nat) : region a ≠ .companion o := by
  unfold region
  split
  · nofun
  split
  · nofun
  split
  · split <;> nofun
  split
  · nofun
  split
  · nofun
  rw [if_neg (by omega)]
  nofun

/-- Data for rows on the device are written at once: nothing is outstanding. -/
theorem deliver_here {s : State} {c word : Nat} {dsts : List (Nat × Nat)} (hm : dDstMode word ≠ 2)
    (hc : dMcast word = false) (hf : farSlot c word = none) (hr : ∀ r, r ∈ dsts → rowAddr s r < compBase) (id : Nat)
    (rows : List (List Mark)) (tag : Nat → Nat → Nat → Bool) :
    FlightsStand s (deliver s c id word [] dsts rows tag).1 ∧ (deliver s c id word [] dsts rows tag).2 = 0 := by
  simp only [deliver, hc, Bool.false_eq_true, if_false, if_neg hm, hf]
  refine List.foldlRecOn (motive := fun r : State × Nat => FlightsStand s r.1 ∧ r.2 = 0) _ _ ⟨.refl s, rfl⟩
    fun r ⟨stand, same⟩ x hx => ?_
  have row : x.2.1 ∈ dsts := (List.of_mem_zip (List.of_mem_zip hx).2).1
  have below : rowAddr r.1 x.2.1 < compBase := by
    rw [stand.rowAddr]
    exact hr _ row
  split
  next o ho => exact absurd ho (region_below_companion below o)
  next => exact ⟨stand.trans (flightsStand_writeRow _ _ _ _ _), same⟩

/-- Without remote rows no packet lacks a link. -/
theorem remoteReady_here (s : State) {word : Nat} (h : dDstMode word ≠ 2) : remoteReady s word [] = none := by
  simp only [remoteReady, h, false_and, if_false, List.any_nil, Bool.false_eq_true]

/-! The arrival of data (R197) -/

section
variable {s : State} {c id : Nat} {f : InFlight} (h : flightOf s c id = some f)
include h

/-- While packets are outstanding the data are staged. -/
theorem dmvArrived_waits (hw : 2 ≤ f.wait) (lin : Nat) (bs : List Mark) :
    dmvArrived s c id lin bs = modInFlight s c id fun _ => staged f lin bs := by
  have more : f.wait - 1 ≠ 0 := by omega
  simp only [dmvArrived, h]
  exact if_pos more

/-- The last data go on to their rows on the device. -/
theorem dmvArrived_lands (hw : f.wait = 1) (hm : dDstMode f.word.toNat ≠ 2)
    (hl : landChk s f.word.toNat f.dsts = .ok) (lin : Nat) (bs : List Mark) :
    dmvArrived s c id lin bs =
      let s1 := modInFlight s c id fun _ => staged f lin bs
      let rows := destData f.word.toNat (stagedRows (staged f lin bs))
      let r := deliver s1 c id f.word.toNat [] f.dsts rows (fun _ _ _ => false)
      modInFlight r.1 c id fun d => { d with pending := false, wait := r.2, buf := ⟨[]⟩, marks := ⟨[]⟩ } := by
  have arrived : { stage f lin bs with wait := f.wait - 1 } = staged f lin bs := rfl
  have last : ¬f.wait - 1 ≠ 0 := by omega
  simp only [dmvArrived, h, arrived]
  simp only [if_neg last, stage_word, stage_dsts, landChk_modInFlight, hl, if_neg hm,
    remoteReady_here _ hm]

theorem dmvArrived_flight_waits (hw : 2 ≤ f.wait) (lin : Nat) (bs : List Mark) :
    SameMemory s (dmvArrived s c id lin bs) ∧ (dmvArrived s c id lin bs).chain = s.chain ∧
      flightOf (dmvArrived s c id lin bs) c id = some (staged f lin bs) := by
  rw [dmvArrived_waits h hw]
  exact ⟨modInFlight_memory s c id _, modInFlight_chain s c id _,
    flightOf_modInFlight h fun _ _ => (staged_id f lin bs).trans (flightOf_id h)⟩

theorem dmvArrived_flight_lands (hw : f.wait = 1) (hm : dDstMode f.word.toNat ≠ 2) (hmc : dMcast f.word.toNat = false)
    (hfar : farSlot c f.word.toNat = none) (hl : landChk s f.word.toNat f.dsts = .ok)
    (hr : ∀ r, r ∈ f.dsts → rowAddr s r < compBase) (lin : Nat) (bs : List Mark) :
    (dmvArrived s c id lin bs).chain = s.chain ∧
      ∃ g, flightOf (dmvArrived s c id lin bs) c id = some g ∧ g.wait = 0 ∧ g.pending = false := by
  rw [dmvArrived_lands h hw hm hl]
  have chain := modInFlight_chain s c id fun _ => staged f lin bs
  have flight := flightOf_modInFlight h (g := fun _ => staged f lin bs) fun _ _ => (staged_id f lin bs).trans (flightOf_id h)
  have below : ∀ r, r ∈ f.dsts → rowAddr (modInFlight s c id fun _ => staged f lin bs) r < compBase := hr
  generalize modInFlight s c id (fun _ => staged f lin bs) = s1 at chain flight below
  simp only
  obtain ⟨stand, none_left⟩ := deliver_here hm hmc hfar below id (destData f.word.toNat (stagedRows (staged f lin bs)))
    fun _ _ _ => false
  generalize deliver s1 c id f.word.toNat [] f.dsts (destData f.word.toNat (stagedRows (staged f lin bs)))
    (fun _ _ _ => false) = r at stand none_left
  exact ⟨stand.chain.trans chain, _, flightOf_modInFlight ((stand.flightOf c id).trans flight) fun _ same => same, none_left,
    rfl⟩

end

/-! Transfers (R395, R410) -/

/-- The state once the response `q` to transfer `x` has been taken from link `n`. -/
def tookXfer (s : State) (n : Nat) (q : ChnPkt) (x : Xfer) : State :=
  let s1 := consume s n q
  { s1 with chain := { s1.chain with xfers := s1.chain.xfers.filter (·.tag != x.tag) } }

theorem takeXfer_consume {s : State} {p : ChnPkt} {x : Xfer} (h : xferOf s p = some x) (n : Nat) (q : ChnPkt) :
    takeXfer (consume s n q) p = (tookXfer s n q x, some x) := by
  have same : xferOf (consume s n q) p = some x := h
  rw [takeXfer, same]
  rfl

theorem tookXfer_xfers (s : State) (n : Nat) (q : ChnPkt) (x : Xfer) :
    ∀ y, y ∈ (tookXfer s n q x).chain.xfers → y.tag ≠ x.tag := by
  intro y hy
  simpa using (List.mem_filter.mp hy).2

theorem tookXfer_memory (s : State) (n : Nat) (q : ChnPkt) (x : Xfer) : SameMemory s (tookXfer s n q x) := ⟨rfl, rfl, rfl⟩

theorem flightOf_tookXfer (s : State) (n : Nat) (q : ChnPkt) (x : Xfer) (c id : Nat) :
    flightOf (tookXfer s n q x) c id = flightOf s c id := rfl

theorem landChk_tookXfer (s : State) (n : Nat) (q : ChnPkt) (x : Xfer) (word : Nat) (dsts : List (Nat × Nat)) :
    landChk (tookXfer s n q x) word dsts = landChk s word dsts := rfl

theorem blame_dmvRemote (s : State) (status die : Nat) : blame s status die Fc.dmvRemote = s := by
  unfold blame
  rw [if_neg (by decide), if_neg (by decide), if_neg (by decide), if_neg (by decide)]

/-- A transfer that fails is gone, with all others of its descriptor. -/
theorem failXfer_chain (s : State) (x : Xfer) :
    (∀ y, y ∈ (failXfer s x).chain.xfers → ¬(y.core = x.core ∧ y.desc = x.desc)) ∧ (failXfer s x).nv = s.nv := by
  let s1 : State := { s with chain := { s.chain with
    xfers := s.chain.xfers.filter fun y => !(y.core == x.core && y.desc == x.desc) } }
  have stands : ChainStands s1 (failXfer s x) := by
    unfold failXfer
    refine .ite ?_ (.refl s1)
    rw [coreFault, blame_dmvRemote]
    exact (chainStands_radd (by decide) (by decide) 1 s1).trans (chainStands_faultCtx _ _ _ _ _)
  refine ⟨fun y hy => ?_, stands.nv⟩
  rw [stands.chain] at hy
  rintro ⟨hcore, hdesc⟩
  have other := (List.mem_filter.mp hy).2
  simp [hcore, hdesc] at other

section
variable {n : ChainId} {p : ChnPkt} {s : State} {x : Xfer} {f : InFlight}
  (hp : p.fits = true) (hc : carries s n.val = true) (hx : xferOf s p = some x) (hf : flightOf s x.core x.desc = some f)
include hp hc hx hf

theorem chnRddata_arrives : exec (.chnRddata n p) s = .next (dmvArrived (tookXfer s n.val { p with typ := 8 } x) x.core
    x.desc x.dest ((marksOf p.data p.poison).take x.len)) := by
  show execChnRddata n p s = _
  simp only [execChnRddata, hp, hc, Bool.not_true, Bool.false_eq_true, if_true, if_false, takeXfer_consume hx,
    flightOf_tookXfer, hf, Option.isNone_some]

theorem chnWrack_acked :
    exec (.chnWrack n p) s = .next (dmvAcked (tookXfer s n.val { p with typ := 9 } x) x.core x.desc) := by
  show execChnWrack n p s = _
  simp only [execChnWrack, hp, hc, Bool.not_true, Bool.false_eq_true, if_true, if_false, takeXfer_consume hx,
    flightOf_tookXfer, hf, Option.isNone_some]

theorem chnNack_fails : exec (.chnNack n p) s = .next (failXfer (tookXfer s n.val { p with typ := 10 } x) x) := by
  show execChnNack n p s = _
  simp only [execChnNack, hp, hc, Bool.not_true, Bool.false_eq_true, if_true, if_false, takeXfer_consume hx,
    flightOf_tookXfer, hf, Option.isNone_some]

/-- Data that are not the last are staged for their descriptor. -/
theorem data_staged (hw : 2 ≤ f.wait) : ∃ t, exec (.chnRddata n p) s = .next t ∧
    (∀ y, y ∈ t.chain.xfers → y.tag ≠ x.tag) ∧ SameMemory s t ∧
    ∃ g, flightOf t x.core x.desc = some g ∧ g.wait = f.wait - 1 ∧
      ∀ i, i < x.len → i < p.data.length → g.buf.get (x.dest + i) = p.data.getD i 0 := by
  have flight : flightOf (tookXfer s n.val { p with typ := 8 } x) x.core x.desc = some f := hf
  obtain ⟨memory, chain, found⟩ := dmvArrived_flight_waits flight hw x.dest ((marksOf p.data p.poison).take x.len)
  refine ⟨_, chnRddata_arrives hp hc hx hf, ?_, memory, _, found, rfl, fun i hi hd => ?_⟩
  · rw [chain]
    exact tookXfer_xfers s n.val _ x
  have length : i < ((marksOf p.data p.poison).take x.len).length := by
    rw [List.length_take, marksOf_length]
    omega
  refine (stage_buf f x.dest _ length).trans ?_
  simp [marksOf, hd]

/-- The last data land, and nothing of the descriptor is outstanding. -/
theorem data_landed (hw : f.wait = 1) (hm : dDstMode f.word.toNat ≠ 2) (hmc : dMcast f.word.toNat = false)
    (hfar : farSlot x.core f.word.toNat = none) (hl : landChk s f.word.toNat f.dsts = .ok)
    (hr : ∀ r, r ∈ f.dsts → rowAddr s r < compBase) : ∃ t, exec (.chnRddata n p) s = .next t ∧
    (∀ y, y ∈ t.chain.xfers → y.tag ≠ x.tag) ∧
    ∃ g, flightOf t x.core x.desc = some g ∧ g.wait = 0 ∧ g.pending = false := by
  have flight : flightOf (tookXfer s n.val { p with typ := 8 } x) x.core x.desc = some f := hf
  obtain ⟨chain, found⟩ := dmvArrived_flight_lands flight hw hm hmc hfar hl hr x.dest ((marksOf p.data p.poison).take x.len)
  refine ⟨_, chnRddata_arrives hp hc hx hf, ?_, found⟩
  rw [chain]
  exact tookXfer_xfers s n.val _ x

theorem write_acked : ∃ t, exec (.chnWrack n p) s = .next t ∧ (∀ y, y ∈ t.chain.xfers → y.tag ≠ x.tag) ∧ SameMemory s t ∧
    ∃ g, flightOf t x.core x.desc = some g ∧ g.wait = f.wait - 1 := by
  have flight : flightOf (tookXfer s n.val { p with typ := 9 } x) x.core x.desc = some f := hf
  exact ⟨_, chnWrack_acked hp hc hx hf, tookXfer_xfers s n.val _ x, tookXfer_memory s n.val { p with typ := 9 } x,
    _, flightOf_modInFlight flight fun _ h => h, rfl⟩

theorem transfer_refused : ∃ t, exec (.chnNack n p) s = .next t ∧
    (∀ y, y ∈ t.chain.xfers → ¬(y.core = x.core ∧ y.desc = x.desc)) ∧ t.nv = s.nv := by
  obtain ⟨gone, flash⟩ := failXfer_chain (tookXfer s n.val { p with typ := 10 } x) x
  exact ⟨_, chnNack_fails hp hc hx hf, gone, flash⟩

end

end Sys2Proof.Machine

/-! SUPPORT. Packets of other devices (R395, R407, R409 to R414): the obligation. -/
namespace Sys2Proof.Machine

/-- Settles O54, by the clauses of each packet type: a refusal is a NACK, a granted packet takes its effect before its
answer, and a response acts on the one transfer that it ends. -/
theorem chainPackets : Obligations.ChainPackets := by
  unfold Obligations.ChainPackets
  refine ⟨fun n p s hp => ⟨chain_packets_idle hp, fun hc => ⟨?_, ?_, ?_, ?_, ?_, ?_, ?_⟩⟩, fun n s => ⟨inboxDeliver_idle, ?_⟩⟩
  · intro hd i hi
    obtain ⟨t, q, run, sends, ⟨typ, dst, tag⟩, why, memory, cores⟩ := elsewhere_refused hp hc hd hi
    exact ⟨t, q, run, sends.sent, typ, dst, tag, why, sends.others, memory, cores⟩
  · intro r hr
    obtain ⟨t, q, run, sends, ⟨typ, dst, tag⟩, why, memory, cores⟩ := read_refused hp hc hr
    exact ⟨t, q, run, sends.sent, typ, dst, tag, why, memory, cores⟩
  · intro hr _
    obtain ⟨t, q, run, sends, ⟨typ, dst, tag⟩, data, mem, cores⟩ := read_answered hp hc hr
    exact ⟨t, q, run, sends.sent, typ, dst, tag, data, fun a _ => by rw [mem], cores⟩
  · intro r hr
    obtain ⟨t, q, run, sends, ⟨typ, dst, tag⟩, why, memory, cores⟩ := write_refused hp hc hr
    exact ⟨t, q, run, sends.sent, typ, dst, tag, why, memory, cores⟩
  · intro hr _
    obtain ⟨t, q, run, sends, ⟨typ, dst, tag⟩, mem, cores⟩ := write_acknowledged hp hc hr
    refine ⟨t, q, run, sends.sent, typ, dst, tag, ?_, fun a ha => ?_, cores⟩
    · rw [rd_of_mem mem, State.rd_wr_same]
    · rw [mem, State.wr_get_out _ _ _ ha]
  · intro hd hr he ring log units hi
    refine ⟨fun free => ?_, fun full => ?_⟩
    · obtain ⟨t, q, run, sends, ⟨typ, dst, tag⟩, entered⟩ := expert_delivered hp hc hd hr he hi free
      have length : p.data.length < 2 ^ 16 := Nat.lt_of_le_of_lt (of_decide_eq_true hp) (by decide)
      exact ⟨t, q, run, sends.sent, typ, dst, tag, entered.index (next_index_lt hi _), entered.row (by omega),
        entered.src (by omega), entered.length (by omega) length, sends.expHeld.trans he⟩
    · refine ⟨_, expert_held hp hc hd hr he hi full, ?_, holdExpert_flag s n.val _, ⟨rfl, rfl, rfl⟩, rfl⟩
      rw [holdExpert_expHeld, he, List.nil_append]
  · intro x hx f hf
    exact ⟨data_staged hp hc hx hf, data_landed hp hc hx hf, write_acked hp hc hx hf, transfer_refused hp hc hx hf⟩
  · intro p r ring log units hh hi
    refine ⟨fun full => inboxDeliver_waits hh (putInbox_full n.val hi full), fun free => ?_⟩
    obtain ⟨t, run, rest, entered⟩ := held_delivered hh hi free
    exact ⟨t, run, rest, entered.index (next_index_lt hi _), entered.row (by omega)⟩

end Sys2Proof.Machine

/-! SUPPORT. The companion refuses an export (R313, R439, R442): the page returns to LIVE, and a page without references
is freed at once; a frame that waited for its retirement is retired then, and counted. -/
namespace Sys2Proof.Machine

/-- A frame that waits for its retirement is counted as it loses its page (R313). -/
theorem unbind_retiredPages {s : State} {f : Nat} (h : s.vat.toRetire.contains f = true) :
    (unbind s f).rget Reg.vatRetiredPages = s.rget Reg.vatRetiredPages + 1 := by
  have counted (u : State) : ((u.radd Reg.vatRetiredPages 1).ror Reg.vatStatus 0x10).rget Reg.vatRetiredPages =
      u.rget Reg.vatRetiredPages + 1 := by
    rw [State.rget_ror_ne _ (by decide), State.rget_radd_same]
    rfl
  unfold unbind
  refine (congrArg (State.rget · _) (if_pos h)).trans ?_
  unfold bindRetired
  simp only
  split
  next => exact counted _
  next => exact counted _

/-- A LIVE page that nothing references is freed, and its frame loses it (R289, R301). -/
theorem settle_live_rget {s : State} {p : Nat} (hc : (s.page p).count = 0) (hl : (s.page p).st = .live) (a : Nat) :
    (settle s p).rget a = (unbind s (s.page p).frame.toNat).rget a := by
  simp only [settle, hc, hl, if_true, freePage]
  split
  next => rfl
  next => rfl

/-- A failed export of a page without references retires a frame that waits for it. -/
theorem exportFails_retiredPages {s : State} {p : Nat} (hc : (s.page p).count = 0)
    (hr : s.vat.toRetire.contains (s.page p).frame.toNat = true) :
    (exportFails s p).rget Reg.vatRetiredPages = s.rget Reg.vatRetiredPages + 1 := by
  unfold exportFails
  simp only
  generalize hu : { s with vat := { s.vat with
    map := s.vat.map.mod p fun e => { e with st := .live, other := 0 }
    swap := s.vat.swap.set (s.page p).other 0
    swapPoison := s.vat.swapPoison.set (s.page p).other 0 } } = u
  have returned : u.page p = { s.page p with st := .live, other := 0 } := by
    rw [← hu]
    exact SMap.get_mod_same _ _ _
  have waits : u.vat.toRetire.contains (u.page p).frame.toNat = true := by
    rw [returned, ← hu]
    exact hr
  have free : (u.page p).count = 0 := by
    rw [returned]
    exact hc
  rw [settle_live_rget free (by rw [returned]), unbind_retiredPages waits, ← hu]
  rfl

/-- COUCH_NACK of an export takes its request off the list and ends the export (R439). -/
theorem couchNack_vatExport {p : CchPkt} {s : State} {r : CchReq} {page : Nat} (hp : p.fits = true)
    (hup : (s.link 32).isUp = true) (hr : s.couch.reqs.find? (·.tag == p.tag) = some r) (hu : r.use = .vatExport page) :
    exec (.couchNack p) s = .next (exportFails (takeReq (consumeCch s 14 p) p).1 page) := by
  have found : (consumeCch s 14 p).couch.reqs.find? (·.tag == p.tag) = some r := hr
  show execCouchNack p s = _
  simp only [execCouchNack, arrive, hp, hup, if_true, Bool.not_true, Bool.false_eq_true, if_false, couchNackBody, takeReq,
    found, hu]

/-- The companion is asked to take page 7. The page's context is gone, and with it every reference, and its frame 64 waits
for its retirement. -/
def exportOfRetiringPage : State :=
  let s := (State.reset.modLink 32 fun L => { L with st := .up }).modPage 7 fun e =>
    { e with st := .exporting, frame := 64, other := 3 }
  { s with
    vat := { s.vat with toRetire := [64] }
    couch := { s.couch with reqs := [{ tag := 5, addr := 0, use := .vatExport 7 }] } }

/-- Refutes O57: the NACK of an export is to leave every register alone, but when the page has lost its references
meanwhile and its frame waits for its retirement, the frame is retired and VAT_RETIRED_PAGES counts it (R313). -/
theorem not_companionAnswers : ¬ Obligations.CompanionAnswers := by
  unfold Obligations.CompanionAnswers
  rintro ⟨-, answers, -⟩
  let nack : CchPkt := { (default : CchPkt) with typ := 14, tag := 5 }
  let asked : CchReq := { tag := 5, addr := 0, use := .vatExport 7 }
  have up : (exportOfRetiringPage.link 32).isUp = true := by decide
  have found : exportOfRetiringPage.couch.reqs.find? (·.tag == nack.tag) = some asked := by decide
  obtain ⟨-, -, -, -, -, refused⟩ := answers nack exportOfRetiringPage asked (by decide) up found
  obtain ⟨t, run, -, regs, -⟩ := refused 7 rfl
  rw [couchNack_vatExport (by decide) up found rfl] at run
  have retired := exportFails_retiredPages (s := (takeReq (consumeCch exportOfRetiringPage 14 nack) nack).1) (p := 7)
    (by decide) (by decide)
  injection run with ended
  rw [ended] at retired
  have kept : t.rget Reg.vatRetiredPages = exportOfRetiringPage.rget Reg.vatRetiredPages := by
    rw [State.rget, regs, State.rget]
  exact absurd (kept.symm.trans retired) (by decide)

end Sys2Proof.Machine

/-! SUPPORT. The power governor, the junctions and the coolant (R551, R560, R570, R573). What the module shows of its
sensors is described once, by `OnlyShows`: registers, the levels last seen and messages on the management bus change. -/

namespace Sys2Proof.Machine

/-! Bits of a register (R7) -/

theorem bit_setFld_same (v i : Nat) (b : Bool) : bit (setFld v i 1 (b2n b)) i = b := by
  have parts : setFld v i 1 (b2n b) = v % 2 ^ i + (v / 2 ^ (i + 1) * 2 + b2n b % 2) * 2 ^ i := by
    rw [setFld, Nat.pow_one, Nat.pow_succ, Nat.add_mul, Nat.mul_assoc _ 2, Nat.mul_comm 2, Nat.add_comm]
  rw [bit, parts, Nat.add_mul_div_right _ _ (Nat.two_pow_pos i), Nat.div_eq_of_lt (Nat.mod_lt _ (Nat.two_pow_pos i)),
    Nat.zero_add, Nat.mul_add_mod_self_right, Nat.mod_mod]
  cases b <;> rfl

theorem rbit_rput_same (s : State) (a : Nat) {i : Nat} (hi : i < 32) (b : Bool) : (s.rput a i b).rbit a i = b := by
  rw [State.rbit, State.rput, rnat_rsetFld_same, bit_eq_testBit, Nat.testBit_mod_two_pow, decide_eq_true hi,
    Bool.true_and, ← bit_eq_testBit, bit_setFld_same]

/-! What the module shows of its sensors (R563, R573) -/

/-- A part of the state that neither a message on the bus nor the levels last seen touch stands as events are sent. -/
theorem sensorEvents_keeps {α : Type} {f : State → α} (sent : ∀ s m, f (smbusOut s m) = f s)
    (seen : ∀ (s : State) c, f { s with mod := { s.mod with crossed := c } } = f s) (s : State) :
    f (sensorEvents s) = f s := by
  unfold sensorEvents
  simp only
  split
  · exact List.foldlRecOn (motive := fun t => f t = f s) _ _ (seen _ _) fun t same _ _ => (sent t _).trans same
  · exact seen _ _

@[simp] theorem sensorEvents_rget (s : State) (a : Nat) : (sensorEvents s).rget a = s.rget a :=
  sensorEvents_keeps (f := (·.rget a)) (fun _ _ => rfl) (fun _ _ => rfl) s

/-- From `s` to `t` memory, flash, the Armature, the cores and all of the module but the levels last seen are the same. -/
structure OnlyShows (s t : State) : Prop where
  mod : { t.mod with crossed := [] } = { s.mod with crossed := [] }
  mem : t.mem = s.mem
  nv : t.nv = s.nv
  arm : t.arm = s.arm
  cores : t.cores = s.cores

theorem OnlyShows.refl (s : State) : OnlyShows s s := ⟨rfl, rfl, rfl, rfl, rfl⟩

/-- Of the module, all but the levels last seen reads as before. -/
theorem OnlyShows.reads {s t : State} (h : OnlyShows s t) {α : Type} {f : ModSt → α}
    (unseen : ∀ m, f { m with crossed := [] } = f m) : f t.mod = f s.mod := by
  rw [← unseen, h.mod, unseen]

theorem OnlyShows.rset {s t : State} (h : OnlyShows s t) (a : Nat) (v : Word32) : OnlyShows s (t.rset a v) :=
  ⟨h.mod, h.mem, h.nv, h.arm, h.cores⟩

theorem OnlyShows.rorIf {s t : State} (h : OnlyShows s t) (c : Prop) [Decidable c] (a b : Nat) :
    OnlyShows s (if c then t.ror a b else t) := by
  split
  · exact h.rset _ _
  · exact h

theorem OnlyShows.sensorEvents {s t : State} (h : OnlyShows s t) : OnlyShows s (sensorEvents t) where
  mod := (sensorEvents_keeps (f := fun s => { s.mod with crossed := [] }) (fun _ _ => rfl) (fun _ _ => rfl) t).trans h.mod
  mem := (sensorEvents_keeps (f := State.mem) (fun _ _ => rfl) (fun _ _ => rfl) t).trans h.mem
  nv := (sensorEvents_keeps (f := State.nv) (fun _ _ => rfl) (fun _ _ => rfl) t).trans h.nv
  arm := (sensorEvents_keeps (f := State.arm) (fun _ _ => rfl) (fun _ _ => rfl) t).trans h.arm
  cores := (sensorEvents_keeps (f := State.cores) (fun _ _ => rfl) (fun _ _ => rfl) t).trans h.cores

/-! Input power and the power clock (R551) -/

/-- A measurement joins the 1 ms average. -/
def takeSample (s : State) (watts : BitVec 16) (mainDv : BitVec 10) : State :=
  { s with mod := { s.mod with mainDv := mainDv, samples := (watts :: s.mod.samples).take 100 } }

/-- All that a measurement does beyond joining the average is to be shown. -/
theorem exec_powerSample {s : State} (on : s.mod.converters = true) (w : BitVec 16) (v : BitVec 10) :
    ∃ t, exec (.powerSample w v) s = .next t ∧ OnlyShows (takeSample s w v) t :=
  ⟨_, if_neg (by simp [on]), ((((OnlyShows.refl _).rorIf _ _ _).rset _ _).rset _ _).sensorEvents⟩

/-- The power clock after one more evaluation of the governor. -/
def governedClock (s : State) : Nat :=
  if s.rnat Reg.thmPwrLimit < avgPower s then max 12 (s.mod.powerClock.toNat - 1)
  else if avgPower s * 100 < s.rnat Reg.thmPwrLimit * 97 then min 48 (s.mod.powerClock.toNat + 1)
  else s.mod.powerClock.toNat

/-- The power clock stands at `k`. -/
def setPowerClock (s : State) (k : Nat) : State := { s with mod := { s.mod with powerClock := BitVec.ofNat 6 k } }

theorem OnlyShows.setPowerClock {s t : State} (h : OnlyShows s t) (k : Nat) :
    OnlyShows (setPowerClock s k) (setPowerClock t k) :=
  ⟨congrArg (fun m : ModSt => { m with powerClock := BitVec.ofNat 6 k }) h.mod, h.mem, h.nv, h.arm, h.cores⟩

/-- All that the governor does beyond setting the power clock is to be shown. -/
theorem exec_powerGovernor (s : State) :
    ∃ t, exec .powerGovernor s = .next t ∧ OnlyShows (setPowerClock s (governedClock s)) t :=
  ⟨_, rfl, (((OnlyShows.refl s).rorIf _ _ _).setPowerClock _).rset _ _⟩

/-! A junction reading (R560) -/

/-- From `s` to `t` the reading `d` has joined the last six of quire `q`, an emergency has dropped its limit, and memory,
flash and the cores are the same. -/
structure JunctionTaken (s t : State) (q : Nat) (d : BitVec 8) : Prop where
  junc : t.mod.junc.get q = (d :: s.mod.junc.get q).take 6
  hot : 105 ≤ d.toInt → t.mod.juncDrop.get q = 36
  mem : t.mem = s.mem
  nv : t.nv = s.nv
  cores : t.cores = s.cores

theorem JunctionTaken.shown {s t u : State} {q : Nat} {d : BitVec 8} (h : JunctionTaken s t q d) (g : OnlyShows t u) :
    JunctionTaken s u q d where
  junc := (g.reads (f := (·.junc.get q)) fun _ => rfl).trans h.junc
  hot hd := (g.reads (f := (·.juncDrop.get q)) fun _ => rfl).trans (h.hot hd)
  mem := g.mem.trans h.mem
  nv := g.nv.trans h.nv
  cores := g.cores.trans h.cores

/-- The entry of an emergency asks for no notice (R579) and takes nothing of a reading back. -/
theorem JunctionTaken.ringAdd {s t : State} {q : Nat} {d : BitVec 8} (h : JunctionTaken s t q d) (n v : Nat) :
    JunctionTaken s (ringAdd t { kind := 0x42, cls := .event, unitType := 2, unit := n, detail := v }) q d := by
  rw [ringAdd_without_notice t (show ErrClass.event ≠ .permanent by decide) rfl (show (0x42 : Nat) ≠ 0x37 by decide)]
  have reports := onlyReports_ringPut t { kind := 0x42, cls := .event, unitType := 2, unit := n, detail := v }
  obtain ⟨-, -, -, -, -, ⟨-, -, mod, -⟩, -⟩ :=
    onlyAnswers_ringPut t { kind := 0x42, cls := .event, unitType := 2, unit := n, detail := v }
  exact ⟨by rw [mod, h.junc], fun hd => by rw [mod, h.hot hd], reports.mem.trans h.mem, reports.nv.trans h.nv,
    reports.cores.trans h.cores⟩

/-- A reading is taken with the emergency it begins, the one it ends, or neither; the rest is shown. -/
theorem exec_junctionRead (q : QuireId) (d : BitVec 8) (s : State) :
    ∃ t, exec (.junctionRead q d) s = .next t ∧ JunctionTaken s t q.val d := by
  refine ⟨_, rfl, JunctionTaken.shown ?_ ((OnlyShows.refl _).rset _ _).sensorEvents⟩
  have joined : ∀ m : SMap (List (BitVec 8)), (m.mod q.val fun l => (d :: l).take 6).get q.val =
    (d :: m.get q.val).take 6 := fun m => SMap.get_mod_same m q.val _
  split
  next hot =>
    have dropped := SMap.get_set_same s.mod.juncDrop q.val (36 : BitVec 6)
    split
    · exact ⟨joined _, fun _ => dropped, rfl, rfl, rfl⟩
    · refine JunctionTaken.ringAdd ?_ _ _
      exact ⟨joined _, fun _ => dropped, rfl, rfl, rfl⟩
  next cool =>
    split
    · exact ⟨joined _, fun hot => absurd hot cool, rfl, rfl, rfl⟩
    · exact ⟨joined _, fun hot => absurd hot cool, rfl, rfl, rfl⟩

/-! The steps of the junction limits (R560) -/

/-- The steps that a quire's junction limit stands below 1.2 GHz after one more step. -/
def nextJuncDrop (s : State) (q : Nat) : BitVec 6 :=
  match (s.mod.junc.get q).map degC with
  | [] => s.mod.juncDrop.get q
  | r :: rs =>
    if (s.rnat Reg.thmJuncHi : Int) ≤ rs.foldl max r then BitVec.ofNat 6 (min 36 ((s.mod.juncDrop.get q).toNat + 1))
    else if rs.foldl max r ≤ (s.rnat Reg.thmJuncLo : Int) then BitVec.ofNat 6 ((s.mod.juncDrop.get q).toNat - 1)
    else s.mod.juncDrop.get q

theorem nextJuncDrop_of_no_reading {s : State} {q : Nat} (h : s.mod.junc.get q = []) :
    nextJuncDrop s q = s.mod.juncDrop.get q := by
  simp only [nextJuncDrop, h, List.map_nil]

theorem nextJuncDrop_of_readings {s : State} {q : Nat} {r : Int} {rs : List Int}
    (h : (s.mod.junc.get q).map degC = r :: rs) :
    nextJuncDrop s q =
      if (s.rnat Reg.thmJuncHi : Int) ≤ rs.foldl max r then BitVec.ofNat 6 (min 36 ((s.mod.juncDrop.get q).toNat + 1))
      else if rs.foldl max r ≤ (s.rnat Reg.thmJuncLo : Int) then BitVec.ofNat 6 ((s.mod.juncDrop.get q).toNat - 1)
      else s.mod.juncDrop.get q := by
  simp only [nextJuncDrop, h]

/-- From `s` to `t` the limits of the first `n` quires have stepped; the limits of the others, all that a step is judged
by, memory, flash, the Armature and the cores are the same. -/
structure JunctionsStepped (s t : State) (n : Nat) : Prop where
  stepped : ∀ q, q < n → t.mod.juncDrop.get q = nextJuncDrop s q
  rest : ∀ q, n ≤ q → t.mod.juncDrop.get q = s.mod.juncDrop.get q
  junc : t.mod.junc = s.mod.junc
  hi : t.rnat Reg.thmJuncHi = s.rnat Reg.thmJuncHi
  lo : t.rnat Reg.thmJuncLo = s.rnat Reg.thmJuncLo
  mem : t.mem = s.mem
  nv : t.nv = s.nv
  arm : t.arm = s.arm
  cores : t.cores = s.cores

theorem JunctionsStepped.next_eq {s t : State} {n : Nat} (h : JunctionsStepped s t n) :
    nextJuncDrop t n = nextJuncDrop s n := by
  simp only [nextJuncDrop, h.junc, h.hi, h.lo, h.rest n (Nat.le_refl n)]

/-- One more limit is set. -/
theorem JunctionsStepped.set {s t : State} {n : Nat} (h : JunctionsStepped s t n) {v : BitVec 6}
    (hv : v = nextJuncDrop t n) :
    JunctionsStepped s { t with mod := { t.mod with juncDrop := t.mod.juncDrop.set n v } } (n + 1) := by
  rw [hv, h.next_eq]
  refine ⟨fun q hq => ?_, fun q hq => ?_, h.junc, h.hi, h.lo, h.mem, h.nv, h.arm, h.cores⟩
  · rcases Nat.lt_succ_iff_lt_or_eq.mp hq with before | rfl
    · exact (SMap.get_set_ne (Nat.ne_of_lt before) _ _).trans (h.stepped q before)
    · exact SMap.get_set_same _ _ _
  · exact (SMap.get_set_ne (by omega) _ _).trans (h.rest q (by omega))

/-- One more limit stands where it stood. -/
theorem JunctionsStepped.stay {s t : State} {n : Nat} (h : JunctionsStepped s t n)
    (hv : t.mod.juncDrop.get n = nextJuncDrop t n) : JunctionsStepped s t (n + 1) := by
  refine ⟨fun q hq => ?_, fun q hq => h.rest q (by omega), h.junc, h.hi, h.lo, h.mem, h.nv, h.arm, h.cores⟩
  rcases Nat.lt_succ_iff_lt_or_eq.mp hq with before | rfl
  · exact h.stepped q before
  · rw [hv, h.next_eq]

/-- A limit that falls is recorded in THM_STATUS, which judges no step. -/
theorem JunctionsStepped.ror_thmStatus {s t : State} {n : Nat} (h : JunctionsStepped s t n) (b : Nat) :
    JunctionsStepped s (t.ror Reg.thmStatus b) n where
  stepped := h.stepped
  rest := h.rest
  junc := h.junc
  hi := (congrArg BitVec.toNat (State.rget_ror_ne t (by decide) b)).trans h.hi
  lo := (congrArg BitVec.toNat (State.rget_ror_ne t (by decide) b)).trans h.lo
  mem := h.mem
  nv := h.nv
  arm := h.arm
  cores := h.cores

/-- What a quire's step is judged by, the steps before it have left alone. -/
theorem JunctionsStepped.juncStep {s t : State} {n : Nat} (h : JunctionsStepped s t n) :
    JunctionsStepped s (juncStep t n) (n + 1) := by
  unfold Machine.juncStep
  split
  next none => exact h.stay (nextJuncDrop_of_no_reading (List.map_eq_nil_iff.mp none)).symm
  next r rs readings =>
    have next := nextJuncDrop_of_readings readings
    simp only
    split
    next hot => exact (h.set (next.trans (if_pos hot)).symm).ror_thmStatus 1
    next notHot =>
      rw [if_neg notHot] at next
      split
      next cool => exact h.set (next.trans (if_pos cool)).symm
      next between => exact h.stay (next.trans (if_neg between)).symm

theorem junctionsStepped_range (s : State) : ∀ n, JunctionsStepped s ((List.range n).foldl juncStep s) n
  | 0 => ⟨fun _ h => absurd h (Nat.not_lt_zero _), fun _ _ => rfl, rfl, rfl, rfl, rfl, rfl, rfl, rfl⟩
  | n + 1 => by
    rw [List.range_succ, List.foldl_append, List.foldl_cons, List.foldl_nil]
    exact (junctionsStepped_range s n).juncStep

theorem JunctionsStepped.of_no_reading {s t : State} {n q : Nat} (h : JunctionsStepped s t n)
    (none : s.mod.junc.get q = []) : t.mod.juncDrop.get q = s.mod.juncDrop.get q := by
  rcases Nat.lt_or_ge q n with hq | hq
  · rw [h.stepped q hq, nextJuncDrop_of_no_reading none]
  · exact h.rest q hq

/-! The coolant (R570) -/

/-- The coolant is outside R570. -/
def coolantBad (i o : BitVec 8) : Bool := decide (35 < i.toInt) || decide (i.toInt + 15 < o.toInt)

/-- The temperatures are kept and stand in THM_COOLANT. -/
def takeCoolant (s : State) (i o : BitVec 8) : State :=
  { s with mod := { s.mod with inlet := i, outlet := o } }.rset Reg.thmCoolant (BitVec.ofNat 32 (i.toNat + 256 * o.toNat))

/-- COOLANT_WARN is set while the coolant is bad. -/
def warnCoolant (s : State) (bad : Bool) : State := if bad then s.ror Reg.thmStatus 8 else s

/-- The reading is taken, and its warning and alert cause are shown. -/
def readCoolant (s : State) (i o : BitVec 8) : State :=
  sensorEvents ((warnCoolant (takeCoolant s i o) (coolantBad i o)).rput Reg.plnAlertCause 7 (coolantBad i o))

theorem exec_coolantRead {s : State} (aux : s.mod.auxOk = true) (i o : BitVec 8) :
    exec (.coolantRead i o) s = .next (readCoolant s i o) :=
  if_neg (by simp [aux])

theorem onlyShows_readCoolant (s : State) (i o : BitVec 8) : OnlyShows (takeCoolant s i o) (readCoolant s i o) :=
  (((OnlyShows.refl _).rorIf _ _ _).rset _ _).sensorEvents

theorem warnCoolant_rget_ne (s : State) (bad : Bool) {a : Nat} (h : a ≠ Reg.thmStatus) :
    (warnCoolant s bad).rget a = s.rget a := by
  cases bad
  · rfl
  · exact State.rget_ror_ne s h 8

theorem warnCoolant_thmStatus (s : State) (i o : BitVec 8) :
    (warnCoolant s (coolantBad i o)).rget Reg.thmStatus =
      if 35 < i.toInt ∨ i.toInt + 15 < o.toInt then s.rget Reg.thmStatus ||| 8 else s.rget Reg.thmStatus := by
  have bad_iff : coolantBad i o = true ↔ 35 < i.toInt ∨ i.toInt + 15 < o.toInt := by
    rw [coolantBad, Bool.or_eq_true, decide_eq_true_eq, decide_eq_true_eq]
  rw [warnCoolant, apply_ite (State.rget · Reg.thmStatus), State.rget_ror_same]
  simp only [bad_iff]
  rfl

theorem readCoolant_thmCoolant (s : State) (i o : BitVec 8) :
    (readCoolant s i o).rget Reg.thmCoolant = BitVec.ofNat 32 (i.toNat + 256 * o.toNat) := by
  rw [readCoolant, sensorEvents_rget, State.rget_rput_ne _ (by decide), warnCoolant_rget_ne _ _ (by decide), takeCoolant,
    State.rget_rset_same]

theorem readCoolant_alertCause (s : State) (i o : BitVec 8) :
    (readCoolant s i o).rbit Reg.plnAlertCause 7 = coolantBad i o := by
  rw [State.rbit, State.rnat, readCoolant, sensorEvents_rget]
  exact rbit_rput_same _ _ (by decide) _

theorem readCoolant_thmStatus (s : State) (i o : BitVec 8) :
    (readCoolant s i o).rget Reg.thmStatus =
      if 35 < i.toInt ∨ i.toInt + 15 < o.toInt then s.rget Reg.thmStatus ||| 8 else s.rget Reg.thmStatus := by
  rw [readCoolant, sensorEvents_rget, State.rget_rput_ne _ (by decide), warnCoolant_thmStatus, takeCoolant,
    State.rget_rset_ne _ (by decide)]
  rfl

/-- Settles O3: the readings are kept first and what follows only shows them; the junction limits step one quire after
the other, and no step changes what the next one is judged by. -/
theorem powerAndCoolant : Obligations.PowerAndCoolant := by
  unfold Obligations.PowerAndCoolant
  refine ⟨fun s w v on => ?_, fun s => ?_, fun s q d => ?_, fun s => ?_, fun s i o aux => ?_⟩
  · obtain ⟨t, run, shown⟩ := exec_powerSample on w v
    exact ⟨t, run, shown.reads (f := ModSt.samples) fun _ => rfl, shown.reads (f := ModSt.mainDv) fun _ => rfl,
      shown.reads (f := ModSt.powerClock) fun _ => rfl, shown.mem, shown.nv, shown.arm, shown.cores⟩
  · obtain ⟨t, run, shown⟩ := exec_powerGovernor s
    exact ⟨t, run, shown.reads (f := ModSt.powerClock) fun _ => rfl, shown.reads (f := ModSt.samples) fun _ => rfl,
      shown.mem, shown.nv, shown.arm, shown.cores⟩
  · obtain ⟨t, run, taken⟩ := exec_junctionRead q d s
    exact ⟨t, run, taken.junc, taken.hot, taken.mem, taken.nv, taken.cores⟩
  · have limits := junctionsStepped_range s 128
    exact ⟨_, rfl, fun q hq r rs readings => (limits.stepped q hq).trans (nextJuncDrop_of_readings readings),
      fun q => limits.of_no_reading, limits.mem, limits.nv, limits.arm, limits.cores⟩
  · have shown := onlyShows_readCoolant s i o
    exact ⟨_, exec_coolantRead aux i o, shown.reads (f := ModSt.inlet) fun _ => rfl,
      shown.reads (f := ModSt.outlet) fun _ => rfl, readCoolant_thmCoolant s i o, readCoolant_alertCause s i o,
      readCoolant_thmStatus s i o, shown.mem, shown.nv, shown.arm, shown.cores⟩

end Sys2Proof.Machine

/-! SUPPORT. What the companion's writes do (R10 to R13, R437, R438, R456, R477, R482, R497): doorbells, registers, the
notices that wait, launches, and the end of a teardown. -/
namespace Sys2Proof.Machine

/-! A mailbox whose rings have changed (R438, R457) -/

/-- The head command is not looked at, or it can be read and the table names its opcode. -/
def HeadQuiet (s : State) (m : Nat) : Prop :=
  headCovered s m = false ∨ (headReadable s m = true ∧ (payload (headOp s m) false).isSome = true)

theorem drainUnknown_quiet {s : State} {m : Nat} (h : HeadQuiet s m) : ∀ n, drainUnknown n s m = s
  | 0 => rfl
  | n + 1 => by
    have stays : (mayStart s m && (payload (headOp s m) false).isNone) = false := by
      obtain covered | ⟨_, named⟩ := h
      · simp [mayStart, covered]
      · simp [Option.isNone_eq_false_iff.mpr named]
    rw [drainUnknown, stays]
    rfl

theorem serve_quiet {s : State} {m : Nat} (h : HeadQuiet s m) : serve s m = s := by
  rw [serve, drainUnknown_quiet h, askHead]
  obtain covered | ⟨readable, _⟩ := h
  · simp [covered]
  · simp [readable]

theorem headCovered_none {s : State} {m : Nat} (h : (s.box m).covered = 0) : headCovered s m = false := by
  simp [headCovered, h]

/-- The doorbell covers commands; the head entry stays where it is. -/
theorem headQuiet_cover {s : State} {m : Nat} (c : BitVec 6)
    (h : s.rbit Reg.plnReady 0 = false ∨ (headReadable s m = true ∧ (payload (headOp s m) false).isSome = true)) :
    HeadQuiet (s.modBox m fun b => { b with covered := c }) m := by
  refine h.imp (fun off => ?_) (fun on => ?_)
  · simp [headCovered, off]
  · simpa [headReadable, headLine, headOp, headEntry] using on

/-! Doorbells (R435, R438) -/

theorem sendSnoop_only (s : State) (line : Nat) (inv : Bool) :
    ∃ g c o, sendSnoop s line inv = { s with regs := g, couch := c, out := o } := by
  unfold sendSnoop
  split
  · exact ⟨_, _, _, rfl⟩
  · exact ⟨_, _, _, rfl⟩

theorem snoopAlias_only (s : State) (m : Nat) :
    ∃ g c o, snoopAlias s m = { s with regs := g, couch := c, out := o } := by
  unfold snoopAlias
  simp only
  split
  · exact sendSnoop_only s _ _
  · exact ⟨_, _, _, rfl⟩

theorem flushOutbox_empty {s : State} {m : Nat} (h : (s.box m).outbox = []) : ∀ n, flushOutbox n s m = s
  | 0 => rfl
  | n + 1 => by rw [flushOutbox, h]

theorem exec_dblCmd_covers {m : BoxId} {v : Word32} {s : State} (on : ctlServes s doorbellBase = true)
    (line : s.couch.dir.get ((0x102000 + 0x10000 * m.val) / 64) = 0)
    (more : (s.box m.val).covered.toNat < (v.toNat % 64 + 64 - (s.box m.val).cmdRead.toNat) % 64)
    (head : s.rbit Reg.plnReady 0 = false ∨
      (headReadable s m.val = true ∧ (payload (headOp s m.val) false).isSome = true)) :
    exec (.dblCmd m v) s = .next (s.modBox m.val fun b =>
      { b with covered := BitVec.ofNat 6 ((v.toNat % 64 + 64 - (s.box m.val).cmdRead.toNat) % 64) }) := by
  change execDblCmd m v s = _
  rw [execDblCmd, if_pos on, ringDoorbell, if_neg (by omega), if_neg (by omega), snoopAlias,
    if_neg (by simpa using line), serve_quiet (headQuiet_cover _ head)]

/-- The parts that a doorbell or a register write can reach are the registers, the mailboxes, and what the Couch link
holds and sends; the device, the work and the memory are none of these. -/
theorem same_of_controls (s : State) (g : SMap Word32) (b : SMap Mailbox) (c : CouchSt) (o : OutSt) :
    SameDevice s { s with regs := g, arm := { s.arm with boxes := b }, couch := c, out := o } ∧
    SameWork s { s with regs := g, arm := { s.arm with boxes := b }, couch := c, out := o } ∧
    SameMemory s { s with regs := g, arm := { s.arm with boxes := b }, couch := c, out := o } :=
  ⟨⟨rfl, rfl, rfl, rfl, rfl, rfl, rfl⟩, ⟨rfl, rfl, rfl, rfl, rfl, rfl, rfl, rfl, rfl, rfl⟩, rfl, rfl, rfl⟩

theorem same_of_rset (s : State) (a : Nat) (v : Word32) :
    SameDevice s (s.rset a v) ∧ SameWork s (s.rset a v) ∧ SameMemory s (s.rset a v) :=
  same_of_controls s _ s.arm.boxes s.couch s.out

theorem dblCmd_refused {m : BoxId} {v : Word32} {s : State} (on : ctlServes s doorbellBase = true)
    (fewer : (v.toNat % 64 + 64 - (s.box m.val).cmdRead.toNat) % 64 < (s.box m.val).covered.toNat) :
    ∃ t, exec (.dblCmd m v) s = .next t ∧ t.rbit Reg.cchStatus 6 = true ∧ t.arm = s.arm ∧ SameDevice s t ∧
      SameWork s t ∧ SameMemory s t := by
  refine ⟨refuseUnmapped s, ?_, ?_, rfl, same_of_rset s _ _⟩
  · change execDblCmd m v s = _
    rw [execDblCmd, if_pos on, ringDoorbell, if_neg (by omega), if_pos fewer]
  · rw [refuseUnmapped, rbit_ror_same, Bool.or_eq_true]
    exact .inr (by decide)

/-- A mailbox whose response entries are free up to index `r`. -/
def rspFreed (r : Nat) (b : Mailbox) : Mailbox := { b with rspRead := BitVec.ofNat 6 (r % 64), notifyPending := false }

theorem takeResponses_eq (s : State) (m r : Nat) :
    takeResponses s m r = serve (flushOutbox 64 (snoopAlias (s.modBox m (rspFreed r)) m) m) m := rfl

/-- With no response and no command waiting, freed entries change nothing but the indices and the companion's copy of
them. -/
theorem dblRspRead_frees {m : BoxId} {v : Word32} {s : State} (on : ctlServes s doorbellBase = true)
    (outbox : (s.box m.val).outbox = []) (covered : (s.box m.val).covered = 0) :
    ∃ t, exec (.dblRspRead m v) s = .next t ∧ t.box m.val = rspFreed v.toNat (s.box m.val) ∧ SameDevice s t ∧
      SameWork s t ∧ SameMemory s t := by
  obtain ⟨g, c, o, snooped⟩ := snoopAlias_only (s.modBox m.val (rspFreed v.toNat)) m.val
  have box : (snoopAlias (s.modBox m.val (rspFreed v.toNat)) m.val).box m.val = rspFreed v.toNat (s.box m.val) := by
    rw [snooped]
    exact State.modBox_box_same s m.val _
  refine ⟨snoopAlias (s.modBox m.val (rspFreed v.toNat)) m.val, ?_, box, ?_⟩
  · change execDblRspRead m v s = _
    rw [execDblRspRead, if_pos on, takeResponses_eq, flushOutbox_empty (by rw [box]; exact outbox),
      serve_quiet (.inl (headCovered_none (by rw [box]; exact covered)))]
  · rw [snooped]
    exact same_of_controls s g _ c o

/-! Registers (R10 to R13) -/

/-- A word of the register range goes to its register. -/
theorem exec_registerWrite {off : BitVec 26} {v : Word32} {s : State} (out : s.mod.inReset = false)
    (on : ctlServes s off.toNat = true) (aligned : off.toNat % 4 = 0) (low : off.toNat < 0x100000)
    (notBoot : off.toNat ≠ Reg.plnBootCtrl) : exec (.registerWrite off v) s = .next (writeReg s off.toNat v.toNat) := by
  have view : ctlView off.toNat = off.toNat := if_neg (by omega)
  have bell : isDoorbell off.toNat = false := by
    rw [isDoorbell, decide_eq_false (by unfold doorbellBase; omega), Bool.false_and]
  have word : ctlWord off.toNat = true := by simp [ctlWord, aligned, low]
  change execRegisterWrite off v s = _
  rw [execRegisterWrite, out, word, on, writeCtl4, view, bell]
  simp [notBoot]

theorem writeReg_w1c {s : State} {off v : Nat} {r : RegRow} (row : regRow off = some r) (acc : r.acc = .w1c) :
    writeReg s off v = s.rset off (s.rget off &&& ~~~(BitVec.ofNat 32 (v &&& r.mask))) := by
  simp only [writeReg, row, acc]

theorem writeReg_ro {s : State} {off v : Nat} {r : RegRow} (row : regRow off = some r) (acc : r.acc = .ro) :
    writeReg s off v = s := by
  simp only [writeReg, row, acc]

/-- The power limit takes the nearest value from 1,500 to 3,600 W (R561). -/
theorem writeReg_thmPwrLimit {s : State} (ready : s.rbit Reg.plnReady 1 = true) (v : Nat) (hv : v < 2 ^ 32) :
    writeReg s Reg.thmPwrLimit v = s.rset Reg.thmPwrLimit (BitVec.ofNat 32 (max 1500 (min 3600 (v % 65536)))) := by
  have row : regRow Reg.thmPwrLimit = some ⟨0xC8014, 0, 1, .rw, 0xFFFF, 0xE10, .none⟩ := by decide +kernel
  have overlaid : baseOnly Reg.thmPwrLimit = false := by decide
  have plain : within Reg.thmPwrLimit (Reg.spdCtrl 0) 32 4096 = none ∧
      within Reg.thmPwrLimit (Reg.spdPwrCtl 0) 32 4096 = none ∧ within Reg.thmPwrLimit (Reg.qsrPwrCtl 0) 32 128 = none ∧
      within Reg.thmPwrLimit (Reg.chnLinkCtl 0) 32 32 = none := by decide
  have mask : v % 2 ^ 32 &&& 0xFFFF = v % 65536 := by
    rw [Nat.mod_eq_of_lt hv]
    exact Nat.and_two_pow_sub_one_eq_mod v 16
  have clamped : clampWrite s Reg.thmPwrLimit (v % 65536) = max 1500 (min 3600 (v % 65536)) := rfl
  obtain ⟨ctrl, pwr, qsr, link⟩ := plain
  simp only [writeReg, row, ready, overlaid, putReg, ctrl, pwr, qsr, link, mask, clamped]
  rfl

theorem thmPwrLimit_write {v : Word32} {s : State} (out : s.mod.inReset = false) (phase : bootPhase s ≠ 8)
    (ready : s.rbit Reg.plnReady 1 = true) :
    ∃ t, exec (.registerWrite (BitVec.ofNat 26 Reg.thmPwrLimit) v) s = .next t ∧ SameDevice s t ∧ SameWork s t ∧
      SameMemory s t ∧ t.rnat Reg.thmPwrLimit = max 1500 (min 3600 (v.toNat % 65536)) := by
  have served : ctlServes s Reg.thmPwrLimit = true := by simp [ctlServes, out, phase]
  have run : exec (.registerWrite (BitVec.ofNat 26 Reg.thmPwrLimit) v) s = .next (writeReg s Reg.thmPwrLimit v.toNat) :=
    exec_registerWrite (off := BitVec.ofNat 26 Reg.thmPwrLimit) out served (by decide) (by decide) (by decide)
  obtain ⟨device, work, memory⟩ := same_of_rset s Reg.thmPwrLimit
    (BitVec.ofNat 32 (max 1500 (min 3600 (v.toNat % 65536))))
  refine ⟨_, run.trans (by rw [writeReg_thmPwrLimit ready v.toNat v.isLt]), device, work, memory, ?_⟩
  rw [State.rnat, State.rget_rset_same, BitVec.toNat_ofNat, Nat.mod_eq_of_lt (by omega)]

/-! Answers and notices (R438, R450, R456) -/

/-- A notify write changes a flag of its mailbox, companion memory and CCH_STATUS, and what the Couch link sends. -/
structure Notified (s t : State) (m : Nat) : Prop where
  ctxs : t.arm.ctxs = s.arm.ctxs
  box : ∃ b, t.box m = { s.box m with notifyPending := b }
  below : ∀ a, a < compBase → t.mem.get a = s.mem.get a
  regs : ∀ a, a ≠ Reg.cchStatus → t.rget a = s.rget a

theorem Notified.refl (s : State) (m : Nat) : Notified s s m := ⟨rfl, ⟨_, rfl⟩, fun _ _ => rfl, fun _ _ => rfl⟩

theorem notified_notify (s : State) (m : Nat) : Notified s (notify s m) m := by
  unfold notify
  simp only
  split
  next => exact .refl s m
  split
  next => exact .refl s m
  split
  next => exact ⟨rfl, ⟨_, rfl⟩, fun _ _ => rfl, fun a ha => State.rget_ror_ne s ha _⟩
  next =>
    exact ⟨rfl, ⟨true, State.modBox_box_same _ m _⟩, fun a ha => State.wr_get_out _ _ _ (.inl (by omega)),
      fun _ _ => rfl⟩

theorem flushOutbox_ctxs : ∀ (n : Nat) (s : State) (m : Nat), (flushOutbox n s m).arm.ctxs = s.arm.ctxs
  | 0, _, _ => rfl
  | n + 1, s, m => by
    unfold flushOutbox
    split
    next => rfl
    simp only
    split
    next =>
      obtain ⟨g, c, o, snooped⟩ := sendSnoop_only s (rspOff m (s.box m).rspWrite.toNat / 64) true
      rw [snooped]
    next => exact (flushOutbox_ctxs n _ m).trans (notified_notify _ m).ctxs

theorem writeRsp_ctxs (s : State) (m : Nat) (l : Line) : (writeRsp s m l).arm.ctxs = s.arm.ctxs :=
  flushOutbox_ctxs 64 _ m

/-- Whatever mailboxes, registers and response entries leave alone, an answer leaves alone. -/
theorem respond_keeps {α : Type} {f : State → α} (box : ∀ s m g, f (State.modBox s m g) = f s)
    (reg : ∀ s a v, f (State.rset s a v) = f s) (rsp : ∀ s m l, f (writeRsp s m l) = f s)
    (s : State) (m sn : Nat) (a : Ans) : f (respond s m sn a) = f s := by
  have flag : ∀ (c : Prop) [Decidable c] u b, f (if c then State.ror u Reg.plnArmStatus b else u) = f u := by
    intro c _ u b
    split
    · exact reg _ _ _
    · rfl
  have answered : ∀ u k g l, f ((writeRsp (State.modBox u k g) k l).radd Reg.plnCmdDone 1) = f u :=
    fun u k g l => (reg _ _ _).trans ((rsp _ k l).trans (box u k g))
  unfold respond
  split
  next => rfl
  next ip _ =>
    extract_lets s1 s2 s3 s4
    have kept : f s4 = f s := ((flag _ _ _).trans (flag _ _ _)).trans (answered s m _ _)
    refine Eq.trans ?_ kept
    split
    next =>
      split
      next =>
        simp only
        split
        next => exact box _ _ _
        next => exact (answered _ _ _ _).trans (box _ _ _)
      next => rfl
    next => rfl

theorem respond_ctxs (s : State) (m sn : Nat) (a : Ans) : (respond s m sn a).arm.ctxs = s.arm.ctxs :=
  respond_keeps (f := fun u => u.arm.ctxs) (fun _ _ _ => rfl) (fun _ _ _ => rfl) writeRsp_ctxs s m sn a

theorem OnlyAnswers.sameDevice {s t : State} (h : OnlyAnswers s t) : SameDevice s t := by
  obtain ⟨_, _, _, _, _, device, _⟩ := h
  exact device

theorem OnlyAnswers.sameWork {s t : State} (h : OnlyAnswers s t) (ctxs : t.arm.ctxs = s.arm.ctxs) : SameWork s t := by
  obtain ⟨_, _, _, _, _, _, cores, quires, saved, claims, fresh, roll, vat, cal, parts, _⟩ := h
  exact ⟨cores, quires, saved, claims, fresh, roll, vat, cal, parts, ctxs⟩

/-- With none waiting before it, a response entry whose line the companion does not hold is written at once. -/
theorem writeRsp_at_once {s : State} {m : Nat} (outbox : (s.box m).outbox = [])
    (line : s.couch.dir.get (rspOff m (s.box m).rspWrite.toNat / 64) = 0) (l : Line) :
    ∃ u, writeRsp s m l = notify u m ∧
      u.box m = { s.box m with outbox := [], rspWrite := (s.box m).rspWrite + 1 } ∧
      u.mem = (s.wr (csAddr (rspOff m (s.box m).rspWrite.toNat)) (lineBytes l)).mem ∧ u.regs = s.regs := by
  have waiting : ((s.modBox m fun b => { b with outbox := b.outbox ++ [l] }).box m) =
      { s.box m with outbox := [l] } := by
    rw [State.modBox_box_same, outbox]
    rfl
  refine ⟨((s.modBox m fun b => { b with outbox := b.outbox ++ [l] }).wr
    (csAddr (rspOff m (s.box m).rspWrite.toNat)) (lineBytes l)).modBox m
    fun b => { b with outbox := [], rspWrite := b.rspWrite + 1 }, ?_, ?_, rfl, rfl⟩
  · rw [writeRsp, flushOutbox, waiting]
    simp only
    rw [if_neg (by simpa using line), flushOutbox_empty]
    obtain ⟨b, box⟩ := (notified_notify (((s.modBox m fun b => { b with outbox := b.outbox ++ [l] }).wr
      (csAddr (rspOff m (s.box m).rspWrite.toNat)) (lineBytes l)).modBox m
      fun b => { b with outbox := [], rspWrite := b.rspWrite + 1 }) m).box
    rw [box, State.modBox_box_same]
  · rw [State.modBox_box_same, State.wr_box, waiting]

theorem exec_noticePost {m : BoxId} {s : State} {l : Line} {r : List Line} (queued : (s.box m.val).notices = l :: r)
    (room : (s.box m.val).roomForNotice = true) :
    exec (.noticePost m) s =
      .next ((writeRsp (s.modBox m.val fun b => { b with notices := r }) m.val l).radd Reg.plnNotices 1) := by
  change execNoticePost m s = _
  rw [execNoticePost, queued]
  simp only
  rw [if_pos room]

theorem rspOff_add_le (m : BoxId) (i : BitVec 6) : rspOff m.val i.toNat + 64 ≤ 0x1101000 := by
  have hm := m.isLt
  have hi := i.isLt
  unfold rspOff
  omega

theorem lineBytes_length (l : Line) : (lineBytes l).length = 64 := leBytes_length 64 _

/-- A notice written at once: what its mailbox, its entry, the counter and the bytes below the control space hold. -/
theorem notice_at_once {s : State} {m : BoxId} (outbox : (s.box m.val).outbox = [])
    (line : s.couch.dir.get (rspOff m.val (s.box m.val).rspWrite.toNat / 64) = 0) (l : Line) :
    ((writeRsp s m.val l).box m.val).notices = (s.box m.val).notices ∧
      ((writeRsp s m.val l).box m.val).rspWrite = (s.box m.val).rspWrite + 1 ∧
      (writeRsp s m.val l).rd (csAddr (rspOff m.val (s.box m.val).rspWrite.toNat)) 64 = lineBytes l ∧
      (writeRsp s m.val l).rget Reg.plnNotices = s.rget Reg.plnNotices ∧ SameBelow s (writeRsp s m.val l) := by
  obtain ⟨u, written, box, mem, regs⟩ := writeRsp_at_once outbox line l
  have notified := notified_notify u m.val
  obtain ⟨b, boxNotified⟩ := notified.box
  have place := rspOff_add_le m (s.box m.val).rspWrite
  have bases : csBase + 0x1101000 ≤ compBase := by decide
  rw [written, boxNotified, box]
  refine ⟨rfl, rfl, ?_, ?_, fun a ha => ?_⟩
  · calc (notify u m.val).rd (csAddr (rspOff m.val (s.box m.val).rspWrite.toNat)) 64
        = u.rd (csAddr (rspOff m.val (s.box m.val).rspWrite.toNat)) 64 :=
          List.map_congr_left fun i hi => notified.below _ (by rw [List.mem_range] at hi; unfold csAddr; omega)
      _ = (s.wr (csAddr (rspOff m.val (s.box m.val).rspWrite.toNat)) (lineBytes l)).rd
            (csAddr (rspOff m.val (s.box m.val).rspWrite.toNat)) 64 := rd_of_mem mem _ _
      _ = lineBytes l := by
          have read := State.rd_wr_same s (csAddr (rspOff m.val (s.box m.val).rspWrite.toNat)) (lineBytes l)
          rwa [lineBytes_length] at read
  · rw [notified.regs _ (by decide), State.rget, State.rget, regs]
  · rw [notified.below a (by omega), mem, State.wr_get_out _ _ _ (.inl (by unfold csAddr; omega))]

/-! Launches (R431, R482) -/

theorem cacheAdd_only (s : State) (l : Nat) : ∃ c, cacheAdd s l = { s with couch := c } := by
  unfold cacheAdd
  split
  · exact ⟨_, rfl⟩
  · exact ⟨_, rfl⟩

/-- Steps that each change only registers and the Couch link's bookkeeping, one after the other. -/
theorem foldl_couch_only {β : Type} {f : State → β → State}
    (h : ∀ s b, ∃ g c, f s b = { s with regs := g, couch := c }) :
    ∀ (l : List β) (s : State), ∃ g c, l.foldl f s = { s with regs := g, couch := c }
  | [], _ => ⟨_, _, rfl⟩
  | b :: l, s => by
    obtain ⟨g, c, first⟩ := h s b
    obtain ⟨g, c, rest⟩ := foldl_couch_only h l { s with regs := g, couch := c }
    rw [List.foldl_cons, first]
    exact ⟨g, c, rest⟩

theorem cacheRead_only (s : State) (a n : Nat) : ∃ g c, cacheRead s a n = { s with regs := g, couch := c } := by
  unfold cacheRead
  split
  · split
    · refine foldl_couch_only (fun u l => ?_) _ s
      split
      · exact ⟨_, _, rfl⟩
      · obtain ⟨c, added⟩ := cacheAdd_only (u.radd Reg.cchCacheMiss 1) l
        exact ⟨_, c, added⟩
    · exact ⟨_, _, rfl⟩
  · exact ⟨_, _, rfl⟩

/-- The launch block lies where a launch may name it: in frames that the context may read and write, or in companion
memory. -/
def LaunchReachable (s : State) (a : Nat) : Prop :=
  (∃ k, region a = .stacked k ∧ anyGone s a 64 = false ∧ mayReach s (fld (s.rdN a 48) 16 12) a 64 true true = true) ∨
  ∃ o, region a = .companion o ∧ o + 64 ≤ compLimit s

/-- The work that an accepted launch block asks for. -/
def launchWork (s : State) (a : Nat) : Work :=
  let v := s.rdN a 48
  { (default : Work) with
    kind := .launch, ctx := fld v 16 12, want := fld v 32 7 + 1, high := (s.ctx (fld v 16 12)).par.high, block := a
    args := leBytes 32 (fld v 128 256), handle := BitVec.ofNat 16 (fld v 0 16) }

theorem exec_taskLaunch (a : BitVec 64) (s : State) : exec (.taskLaunch a) s = .next (launch s a.toNat) := rfl

theorem launch_accepted {s : State} {a : Nat} (ready : s.rbit Reg.plnReady 1 = true) (reach : LaunchReachable s a)
    (aligned : a % 64 = 0) (low : a < 2 ^ 48) (clean : areaPoisoned s a 48 = false)
    (accepted : launchStatus s (s.rdN a 48) = none) :
    ∃ g c, launch s a = queueWork { s with regs := g, couch := c } (fld (s.rdN a 48) 0 7) (launchWork s a) := by
  obtain ⟨g, c, read⟩ := cacheRead_only s a 48
  have status : launchStatus { s with regs := g, couch := c } (s.rdN a 48) = none := accepted
  refine ⟨g, c, ?_⟩
  have block : ({ s with regs := g, couch := c } : State).rdN a 48 = s.rdN a 48 := rfl
  rw [launch, ready, if_neg (by decide), if_neg (by omega), clean, read]
  obtain ⟨k, at_, present, rights⟩ | ⟨o, at_, fits⟩ := reach
  · have rights : mayReach { s with regs := g, couch := c } (fld (s.rdN a 48) 16 12) a 64 true true = true := rights
    simp only [at_, present, block, rights, status]
    rfl
  · simp only [at_, fits, block, status]
    rfl

theorem queueWork_waiting (s : State) (p : Nat) (w : Work) : ((queueWork s p w).part p).waiting =
    (s.part p).waiting ++ [{ w with st := .waiting, order := s.arm.ticket, taskNo := s.arm.launches + 1 }] := by
  rw [queueWork, State.modPart_part_same]
  rfl

theorem launch_refused {s : State} {a : Nat} (ready : s.rbit Reg.plnReady 1 = true) (bad : a % 64 ≠ 0 ∨ 2 ^ 48 ≤ a) :
    launch s a = s.ror Reg.plnSchedStatus 0x41 := by
  rw [launch, ready, if_neg (by decide), if_pos bad, refuseQuietly]

/-! The end of a teardown (R358, R360, R472, R477, R500) -/

theorem SMap.find_mem {α : Type} {k : Nat} {v : α} : ∀ {l : List (Nat × α)}, SMap.find l k = some v → (k, v) ∈ l
  | (a, w) :: r, h => by
    rw [SMap.find] at h
    split at h
    next eq =>
      cases h
      rw [eq]
      exact List.mem_cons_self
    next => exact List.mem_cons_of_mem _ (SMap.find_mem h)

/-- What a map reads at a key is listed there, or is the default. -/
theorem SMap.get_mem {α : Type} [Inhabited α] (m : SMap α) (k : Nat) : (k, m.get k) ∈ m.cells ∨ m.get k = default := by
  rw [SMap.get]
  cases found : SMap.find m.cells k with
  | none => exact .inr rfl
  | some v => exact .inl (SMap.find_mem found)

theorem page_owner_ne {s : State} {x : Nat} (unowned : ∀ c, c ∈ s.vat.map.cells → c.2.owner.toNat ≠ x) (nz : x ≠ 0)
    (p : Nat) : (s.page p).owner.toNat ≠ x := by
  obtain listed | unlisted := SMap.get_mem s.vat.map p
  · exact unowned _ listed
  · rw [State.page, unlisted]
    exact fun h => nz h.symm

/-- Steps that each leave the state as it is. -/
theorem foldl_stands {β : Type} {f : State → β → State} {s : State} (h : ∀ b, f s b = s) : ∀ l : List β, l.foldl f s = s
  | [] => rfl
  | b :: l => by rw [List.foldl_cons, h b, foldl_stands h l]

/-- A context that owns no page frees none. -/
theorem freeOwned_only {s : State} {x : Nat} (unowned : ∀ c, c ∈ s.vat.map.cells → c.2.owner.toNat ≠ x) (nz : x ≠ 0) :
    ∃ q, freeOwned s x = { s with vat := { s.vat with refq := q } } := by
  unfold freeOwned
  extract_lets s1
  have stands : s1 = s := foldl_stands (fun p => by exact if_pos (.inl (page_owner_ne unowned nz p))) _
  clear_value s1
  subst stands
  exact ⟨_, rfl⟩

theorem pagesInTransit_none {s : State} {x : Nat} (unowned : ∀ c, c ∈ s.vat.map.cells → c.2.owner.toNat ≠ x) :
    pagesInTransit s x = false := by
  rw [pagesInTransit, List.any_eq_false]
  intro c hc
  simp [unowned c hc]

/-- A register stored under a condition. -/
theorem rset_when_only (s : State) (c : Prop) [Decidable c] (a : Nat) (v : Word32) :
    ∃ g, (if c then s.rset a v else s) = { s with regs := g } := by
  split
  · exact ⟨_, rfl⟩
  · exact ⟨_, rfl⟩

theorem freeBranches_only : ∀ (l : List Nat) (s : State), ∃ r, l.foldl freeBranch s = { s with roll := r }
  | [], _ => ⟨_, rfl⟩
  | b :: l, s => by
    obtain ⟨r, rest⟩ := freeBranches_only l (freeBranch s b)
    exact ⟨r, rest⟩

theorem eraseFrame_only (s : State) (f : Nat) : ∃ m c, eraseFrame s f = { s with mem := m, cal := c } := ⟨_, _, rfl⟩

theorem eraseFrames_only : ∀ (l : List (Nat × FrameRec)) (s : State),
    ∃ m c, l.foldl (fun s r => eraseFrame s r.1) s = { s with mem := m, cal := c }
  | [], _ => ⟨_, _, rfl⟩
  | r :: l, s => by
    obtain ⟨m, c, first⟩ := eraseFrame_only s r.1
    obtain ⟨m, c, rest⟩ := eraseFrames_only l { s with mem := m, cal := c }
    rw [List.foldl_cons, first]
    exact ⟨m, c, rest⟩

theorem eraseFrame_keyCtx (s : State) (g f : Nat) :
    ((eraseFrame s g).frec f).keyCtx = if f = g then 0 else (s.frec f).keyCtx := by
  rw [eraseFrame, setKeyCtx, zeroFrame, State.modFrec_frec]
  split
  · rfl
  · rw [State.modFrec_frec_ne _ _ _ ‹_›]
    rfl

theorem eraseFrames_keyCtx (f : Nat) : ∀ (l : List (Nat × FrameRec)) (s : State),
    ((l.foldl (fun s r => eraseFrame s r.1) s).frec f).keyCtx =
      if f ∈ l.map (·.1) then 0 else (s.frec f).keyCtx
  | [], _ => rfl
  | r :: l, s => by
    rw [List.foldl_cons, eraseFrames_keyCtx f l, eraseFrame_keyCtx, List.map_cons]
    by_cases rest : f ∈ l.map (·.1)
    · rw [if_pos rest, if_pos (List.mem_cons_of_mem _ rest)]
    · simp only [rest, if_false, List.mem_cons, or_false]

/-- Once the frames that hold a context's key are erased, no frame holds it. -/
theorem eraseKeyed_keyCtx_ne (s : State) {x : Nat} (nz : x ≠ 0) (f : Nat) :
    (((s.cal.recs.cells.filter fun r => r.2.keyCtx.toNat == x).foldl
      (fun s r => eraseFrame s r.1) s).frec f).keyCtx.toNat ≠ x := by
  rw [eraseFrames_keyCtx]
  split
  next => exact fun h => nz h.symm
  next unlisted =>
    intro keyed
    obtain listed | unset := SMap.get_mem s.cal.recs f
    · exact unlisted (List.mem_map.mpr ⟨_, List.mem_filter.mpr ⟨listed, beq_iff_eq.mpr keyed⟩, rfl⟩)
    · rw [State.frec, unset] at keyed
      exact nz keyed.symm

theorem OnlyAnswers.foldl {β : Type} {f : State → β → State} (h : ∀ s b, OnlyAnswers s (f s b)) :
    ∀ (l : List β) (s : State), OnlyAnswers s (l.foldl f s)
  | [], s => .refl s
  | b :: r, s => (h s b).trans (OnlyAnswers.foldl h r (f s b))

theorem onlyAnswers_revokeBox (s : State) (m : Nat) (answer : Nat × Nat) : OnlyAnswers s (revokeBox s m answer) :=
  (onlyAnswers_modBox s m _).trans
    (.ite ((onlyAnswers_modBox _ m _).trans (onlyAnswers_respond _ _ _ _)) (onlyAnswers_modBox _ m _))

/-- A context without a recorded create becomes FREE by answers alone. -/
theorem onlyAnswers_contextFree {s : State} {x : Nat} (h : (s.ctx x).recorded = none) :
    OnlyAnswers s (contextFree s x) := by
  rw [contextFree]
  simp only [h]
  exact ((OnlyAnswers.foldl (fun u m => onlyAnswers_revokeBox u m (256, 0)) _ s).trans (onlyAnswers_modCtx _ x _)).trans
    (.foldl (fun u (d : Nat × Nat) => onlyAnswers_respond u d.1 d.2 _) _ _)

theorem responds_ctxs (a : Ans) : ∀ (l : List (Nat × Nat)) (s : State),
    (l.foldl (fun u d => respond u d.1 d.2 a) s).arm.ctxs = s.arm.ctxs
  | [], _ => rfl
  | d :: l, s => (responds_ctxs a l _).trans (respond_ctxs s d.1 d.2 a)

theorem contextFree_ctx {s : State} {x : Nat} (h : (s.ctx x).recorded = none) : (contextFree s x).ctx x = default := by
  rw [contextFree]
  simp only [h]
  rw [State.ctx, responds_ctxs]
  exact State.modCtx_ctx_same _ x _

/-- What a context has given up before it becomes FAULTED or FREE: grants, key, reservation, and every frame's key. -/
structure GivenUp (s t : State) (x : Nat) : Prop where
  ctx : t.ctx x = { s.ctx x with reserve := 0, grants := [], keyLive := false }
  keys : ∀ f, (t.frec f).keyCtx.toNat ≠ x
  nv : t.nv = s.nv
  cores : t.cores = s.cores
  quires : t.quires = s.quires

theorem exec_teardownComplete {x : CtxId} {s : State} (tearing : (s.ctx x.val).st = .tearing)
    (written : streamsWriting s x.val = false) (unowned : ∀ c, c ∈ s.vat.map.cells → c.2.owner.toNat ≠ x.val)
    (nz : x.val ≠ 0) : ∃ u, GivenUp s u x.val ∧
      exec (.teardownComplete x) s = .next (if (s.ctx x.val).byFault = false ∨ (s.ctx x.val).destroyers ≠ []
        then contextFree u x.val
        else (u.modCtx x.val fun c => { c with st := .faulted }).ror Reg.plnSchedStatus 0x20) := by
  change ∃ u, GivenUp s u x.val ∧ execTeardownComplete x s = _
  unfold execTeardownComplete
  extract_lets n c s0 gone s1 s2 s3 s4 s5
  obtain ⟨q, owned⟩ : ∃ q, s0 = { s with vat := { s.vat with refq := q } } := freeOwned_only unowned nz
  obtain ⟨r, branches⟩ : ∃ r, s1 = { s0 with roll := r } := freeBranches_only gone s0
  obtain ⟨m, k, erased⟩ : ∃ m k, s3 = { s2 with mem := m, cal := k } := eraseFrames_only _ s2
  have keys : ∀ f, (s3.frec f).keyCtx.toNat ≠ n := eraseKeyed_keyCtx_ne s2 nz
  obtain ⟨g, keyGone⟩ : ∃ g, s5 = { s4 with regs := g } := rset_when_only s4 _ _ _
  have settled : pagesInTransit s0 n = false := by
    rw [owned]
    exact pagesInTransit_none unowned
  refine ⟨s5, ?_, ?_⟩
  · have ctx2 : s2.ctx n = { s.ctx n with reserve := 0 } := by
      unfold s2
      rw [State.modCtx_ctx_same, branches, owned]
      rfl
    have ctx4 : s4.ctx n = { s2.ctx n with grants := [], keyLive := false } := by
      unfold s4
      rw [State.modCtx_ctx_same, erased]
      rfl
    have same4 : s4.cal = s3.cal ∧ s4.nv = s.nv ∧ s4.cores = s.cores ∧ s4.quires = s.quires := by
      unfold s4
      rw [erased]
      unfold s2
      rw [branches, owned]
      exact ⟨rfl, rfl, rfl, rfl⟩
    obtain ⟨cal, nv, cores, quires⟩ := same4
    clear_value s5 s4 s3 s2
    subst keyGone
    exact ⟨ctx4.trans (by rw [ctx2]), fun f => by rw [State.frec, cal]; exact keys f, nv, cores, quires⟩
  · rw [if_neg (by simp [c, n, tearing, written]), settled, if_neg (by decide)]
    by_cases fate : c.byFault = false ∨ c.destroyers ≠ []
    · rw [if_pos fate, if_pos (by simpa using fate)]
    · rw [if_neg fate, if_neg (by simpa using fate)]

/-! The statement's clauses -/

theorem noticePost_posts {m : BoxId} {s : State} {l : Line} {r : List Line} (queued : (s.box m.val).notices = l :: r)
    (room : (s.box m.val).roomForNotice = true) (outbox : (s.box m.val).outbox = [])
    (line : s.couch.dir.get (rspOff m.val (s.box m.val).rspWrite.toNat / 64) = 0) :
    ∃ t, exec (.noticePost m) s = .next t ∧ (t.box m.val).notices = r ∧
      (t.box m.val).rspWrite = (s.box m.val).rspWrite + 1 ∧
      t.rd (csAddr (rspOff m.val (s.box m.val).rspWrite.toNat)) 64 = lineBytes l ∧
      t.rnat Reg.plnNotices = (s.rnat Reg.plnNotices + 1) % 2 ^ 32 ∧ SameDevice s t ∧ SameWork s t ∧ SameBelow s t := by
  obtain ⟨u, hu⟩ : ∃ u, u = s.modBox m.val fun b => { b with notices := r } := ⟨_, rfl⟩
  have box : u.box m.val = { s.box m.val with notices := r } := by rw [hu, State.modBox_box_same]
  have dir : u.couch.dir = s.couch.dir := by rw [hu]; rfl
  obtain ⟨notices, rspWrite, entry, count, below⟩ := notice_at_once (s := u) (m := m) (by rw [box]; exact outbox)
    (by rw [box, dir]; exact line) l
  have answers : OnlyAnswers s ((writeRsp u m.val l).radd Reg.plnNotices 1) := by
    rw [hu]
    exact ((onlyAnswers_modBox s m.val _).trans (onlyAnswers_writeRsp _ _ _)).rset _ _
  have ctxs : ((writeRsp u m.val l).radd Reg.plnNotices 1).arm.ctxs = s.arm.ctxs := by
    rw [State.radd_arm, writeRsp_ctxs, hu]
    rfl
  refine ⟨(writeRsp u m.val l).radd Reg.plnNotices 1, ?_, ?_, ?_, ?_, ?_, answers.sameDevice, answers.sameWork ctxs, ?_⟩
  · rw [exec_noticePost queued room, hu]
  · rw [State.radd_box, notices, box]
  · rw [State.radd_box, rspWrite, box]
  · rw [box] at entry
    exact entry
  · rw [State.rnat, State.rget_radd_same, count, BitVec.toNat_add, hu]
    rfl
  · intro a ha
    rw [State.radd_mem, below a ha, hu]
    rfl

theorem taskLaunch_queues {a : BitVec 64} {s : State} (ready : s.rbit Reg.plnReady 1 = true)
    (reach : LaunchReachable s a.toNat) (aligned : a.toNat % 64 = 0) (low : a.toNat < 2 ^ 48)
    (clean : areaPoisoned s a.toNat 48 = false) (accepted : launchStatus s (s.rdN a.toNat 48) = none) :
    ∃ (t : State) (w : Work), exec (.taskLaunch a) s = .next t ∧
      (t.part (fld (s.rdN a.toNat 48) 0 7)).waiting = (s.part (fld (s.rdN a.toNat 48) 0 7)).waiting ++ [w] ∧
      w.kind = .launch ∧ w.ctx = fld (s.rdN a.toNat 48) 16 12 ∧ w.want = fld (s.rdN a.toNat 48) 32 7 + 1 ∧
      w.block = a.toNat ∧ w.args = leBytes 32 (fld (s.rdN a.toNat 48) 128 256) ∧ SameDevice s t ∧ SameMemory s t ∧
      t.cores = s.cores ∧ t.vat = s.vat ∧ t.roll = s.roll := by
  obtain ⟨g, c, launched⟩ := launch_accepted ready reach aligned low clean accepted
  refine ⟨queueWork { s with regs := g, couch := c } _ (launchWork s a.toNat), _, by rw [exec_taskLaunch, launched],
    queueWork_waiting _ _ _, rfl, rfl, rfl, rfl, rfl, ⟨rfl, rfl, rfl, rfl, rfl, rfl, rfl⟩, ⟨rfl, rfl, rfl⟩, rfl,
    rfl, rfl⟩

theorem teardownComplete_ends {x : CtxId} {s : State} (tearing : (s.ctx x.val).st = .tearing)
    (written : streamsWriting s x.val = false) (unrecorded : (s.ctx x.val).recorded = none)
    (unowned : ∀ c, c ∈ s.vat.map.cells → c.2.owner.toNat ≠ x.val) (nz : x.val ≠ 0) :
    ∃ t, exec (.teardownComplete x) s = .next t ∧
      (t.ctx x.val).st = (if (s.ctx x.val).byFault = false ∨ (s.ctx x.val).destroyers ≠ [] then .free else .faulted) ∧
      (t.ctx x.val).grants = [] ∧ (t.ctx x.val).keyLive = false ∧ (t.ctx x.val).reserve = 0 ∧
      (∀ f, (t.frec f).keyCtx.toNat ≠ x.val) ∧ t.nv = s.nv ∧ t.cores = s.cores ∧ t.quires = s.quires := by
  obtain ⟨u, given, run⟩ := exec_teardownComplete tearing written unowned nz
  refine ⟨_, run, ?_⟩
  by_cases fate : (s.ctx x.val).byFault = false ∨ (s.ctx x.val).destroyers ≠ []
  · have unrecorded : (u.ctx x.val).recorded = none := by rw [given.ctx]; exact unrecorded
    obtain ⟨_, _, _, _, _, ⟨nv, _⟩, cores, quires, _, _, _, _, _, cal, _⟩ := onlyAnswers_contextFree unrecorded
    rw [if_pos fate, if_pos fate, contextFree_ctx unrecorded]
    exact ⟨rfl, rfl, rfl, rfl, fun f => by rw [State.frec, cal]; exact given.keys f, nv.trans given.nv,
      cores.trans given.cores, quires.trans given.quires⟩
  · rw [if_neg fate, if_neg fate, State.ror_ctx, State.modCtx_ctx_same, given.ctx]
    exact ⟨rfl, rfl, rfl, rfl, given.keys, given.nv, given.cores, given.quires⟩

/-- Settles O28, clause by clause: a doorbell, a register or a block reaches one operation, and what that operation
leaves alone is said once for each. -/
theorem hostAccess : Obligations.HostAccess := by
  unfold Obligations.HostAccess
  refine ⟨fun m v s on line more head => exec_dblCmd_covers on line more head,
    fun m v s on fewer => dblCmd_refused on fewer,
    fun m v s on outbox covered => dblRspRead_frees on outbox covered,
    fun off v r s out on aligned low notBoot row acc => ?_,
    fun off v r s out on aligned low notBoot row acc => ?_,
    fun v s out phase ready => thmPwrLimit_write out phase ready,
    fun m s l r queued room outbox line => noticePost_posts queued room outbox line,
    fun a s ready reach aligned low clean accepted => taskLaunch_queues ready ?_ aligned low clean accepted,
    fun a s ready bad => ?_,
    fun x s tearing written unrecorded unowned nz => teardownComplete_ends tearing written unrecorded unowned nz⟩
  · rw [exec_registerWrite out on aligned low notBoot, writeReg_w1c row acc]
  · rw [exec_registerWrite out on aligned low notBoot, writeReg_ro row acc]
  · cases place : region a.toNat with
    | stacked k => rw [place] at reach; exact .inl ⟨k, place, reach⟩
    | companion o => rw [place] at reach; exact .inr ⟨o, place, reach⟩
    | qsr | spd | sts | control | unmapped => rw [place] at reach; exact reach.elim
  · rw [exec_taskLaunch, launch_refused ready bad]

end Sys2Proof.Machine
